-- ==== Sys2Proof/Word.lean ====
section
/-!
DEFINITION. Word.lean: the word types of the device. Every register is 32 bits wide (R10); memory is bytes (R9).
-/

namespace Sys2Proof

/-- A byte of a memory, a buffer or a structure. -/
abbrev Byte := BitVec 8

/-- A 32-bit register word. -/
abbrev Word := BitVec 32

end Sys2Proof
end

