-- ==== Sys2Proof/Types.lean ====
section
/-!
DEFINITION. Types.lean: the names the commands' operands use: initiators, functions, actuators and the observations
that event commands carry.
-/

namespace Sys2Proof

/-- Who makes a register or memory access (R10, R15, R26, R482). -/
inductive Initiator where
  /-- A service core, 0 to 5. -/
  | core (n : Fin 6)
  /-- The Crucible core outside the ROM routine. -/
  | crucible
  /-- The code-flash ROM routine on the Crucible core (R482). -/
  | romRoutine
  /-- The debug port (R579). -/
  | debugPort
  /-- An engine of a function, code 0 to 7, or 8 for SYS. -/
  | engine (f : Fin 9)
  deriving DecidableEq, Repr

/-- Instruction of the debug port's test access port (R579); `core 6` is access to the Crucible core. -/
inductive TapIr where
  | idcode | bypass | extest | sample | intest
  | core (n : Fin 7)
  deriving DecidableEq, Repr

/-- What the check bits of a fetched control-store word show (R195). -/
inductive CsRead where
  | clean | corrected | uncorrectable
  deriving DecidableEq, Repr

/-- Why the datapath or another job asks to stop a unit (R185): a sector-missed or write-unsafe condition, or a job
ready on a ring of strictly higher PRIO for the same LUN; or the present microword cannot execute (an undefined opcode
or port, R178 to R181). -/
inductive AbandonKind where
  | request
  | preemption (q : Fin 16384)
  | fault (o : CsRead)
  deriving DecidableEq, Repr

/-- What STG sees of one codeword as it reads and decodes it (R211, R219): its zero bits before descrambling, whether
the decoder reaches a codeword, the bits corrected, its first-iteration syndrome weight, the iterations it takes, and upsets
of words of its LDPC buffer, by word offset. -/
structure CwObs where
  zeros : Nat
  ok : Bool
  bits : Nat
  weight : Nat
  iters : Nat
  upsets : List (Nat × BitVec 80)
  deriving DecidableEq, Repr

/-- What a write-path pass observes (R295): whether the head's assist fell more than IDLE_MS ms ago. -/
structure PassObs where
  idle : Bool
  deriving DecidableEq, Repr

/-- Outcome of a preamp transaction that a strobe makes (R286): failed attempts, 3 being a link error, and the DATA of
the good response. -/
structure PalObs where
  fails : Fin 4
  data : BitVec 16
  deriving DecidableEq, Repr

/-- What one servo field and the preamp show at a wedge strobe (R286, R289, R297, R298, R360 to R362, R370). -/
structure WedgeObs where
  /-- Offset of the SAM from its predicted time in servo-clock cycles; none where none is found. -/
  sam : Option Int
  /-- Wedge index, Gray track and raw burst fraction. -/
  index : Fin 512
  track : BitVec 24
  raw : BitVec 12
  /-- The Gray track and the fraction's sign disagree, as they can at a half-track boundary (R361). -/
  disagree : Bool
  /-- Burst amplitude sum. -/
  amp : BitVec 32
  /-- Coefficient writes applied during the computation. -/
  coefWrites : Nat
  /-- The strobe falls within 2.0 µs of the rise of AEN. -/
  early : Bool
  /-- Reads of ID, FAULT, NFT and TD, where the strobe makes them. -/
  id : PalObs
  fault : PalObs
  nft : PalObs
  td : PalObs
  deriving DecidableEq, Repr

/-- What the channel sees of a sector as it passes (R311, R317, R318): the ADC codes of both readers, corrected by the trims and
taken at the interpolator's phase, for bits −24 to 37,087; and the Mueller-Müller error that counts as 1/64 bit, 0 acting as 1,
which the spec leaves open. -/
structure SectorObs where
  x1 : List Int
  x2 : List Int
  unit : Nat
  deriving DecidableEq, Repr

/-- What the decoding of a sector or of offline work meets beside its samples: what an LLR of 0 is decided as, which the spec
leaves open; the delivery FIFO full (R31, R327); and the upset words of the LDPC buffer, at word offsets in it, and of the sample
slot, by their number in it (R462, R468). -/
structure OutcomeObs where
  tie : Bool
  fifoFull : Bool
  ldpc : List (Nat × BitVec 80)
  samples : List (Nat × BitVec 80)
  deriving DecidableEq, Repr

/-- How a seek, load or unload of a whole routine ends (R387): settled with a last PES, past its timeout, or in FAULT. -/
inductive SettleObs where
  | settled (pes : Int)
  | timeout
  | fault
  deriving DecidableEq, Repr

/-- One attempt at a sector by the shipped READ or VERIFY routine (R351 to R353): its pass, what its decoding and the offline
actions after it meet, and the microseconds it adds to the recovery time. -/
structure AttemptObs where
  pass : SectorObs
  out : OutcomeObs
  us : Nat
  deriving DecidableEq, Repr

/-- One unit of a READ or VERIFY: the wait for SETTLED, the attempts (the ordinary read first), and the reads of the
group's other slots, in ascending order, where the ladder comes to L4 (R354). An attempt beyond the end of its list reads no
signal. -/
structure ReadUnitObs where
  settle : SettleObs
  attempts : List AttemptObs
  group : List AttemptObs
  deriving DecidableEq, Repr

/-- One unit of a WRITE: the wait for SETTLED, whether the head's assist fell more than IDLE_MS ms ago, whether the gate rises
at some pass before a cause ends the sector (R301), and the cause of Table "Write stop causes" that ends it, 0 for none. -/
structure WriteUnitObs where
  settle : SettleObs
  idle : Bool
  rises : Bool
  cause : Fin 9
  deriving DecidableEq, Repr

/-- The eye of an element in use of a lane of DRAM or of a NET receiver at the end of a run, in 1/256 UI, and whether a tap of it
stands at its bound (R451). -/
structure EyeObs where
  lane : Fin 16
  eye : BitVec 8
  bound : Bool
  deriving DecidableEq, Repr

/-- What the end of a calibration run shows (R444, R451): the highest RATE each flash channel trains at, and the eyes of the
elements in use, those not named being at EYE_MIN or above. -/
structure CalObs where
  rates : List (Fin 11)
  eyes : List EyeObs
  deriving DecidableEq, Repr

/-- What DETECT measures (R395): the speed of the back-EMF's frequency and direction, signed 1/16 rpm, its amplitude in µV,
and the Hall codes seen, the one at the start first. -/
structure DetectObs where
  bemf : BitVec 32
  amp : BitVec 32
  codes : List (BitVec 3)
  deriving DecidableEq, Repr

/-- What a filtered Hall edge shows (R397, R398): the code, the signed speed from the last six edges in 1/16 rpm, and the
observer's electrical angle in 360/256 degrees. -/
structure HallObs where
  code : BitVec 3
  act : BitVec 32
  angle : BitVec 8
  deriving DecidableEq, Repr

/-- What a PWM period samples (R402, R404): the Hall code, the phases of highest and lowest duty (or of the conducting
pair) with the sampled currents, a comparator trip, and whether OVERCURRENT was raised in the last second. -/
structure PwmObs where
  code : BitVec 3
  high : Fin 3
  low : Fin 3
  i1 : BitVec 16
  i2 : BitVec 16
  trip : Bool
  recent : Bool
  deriving DecidableEq, Repr

/-- The RoCEv2 headers of a received frame (R44, R46, R49, R50): destination address, destination queue-pair number, opcode,
CE mark. -/
structure RoceObs where
  gid : BitVec 128
  qpn : BitVec 24
  op : BitVec 8
  ce : Bool
  deriving DecidableEq, Repr

/-- A received frame (R39, R42, R46 to R48): its bytes from the destination MAC to the last payload byte, the destination
MAC as NET_Px_MAC_HI and NET_Px_MAC_LO hold one, whether that is a group address, the RoCEv2 headers where it has them, the
codewords that the FEC corrected in it and could not correct, and the bytes in the packet buffer before it. -/
structure FrameObs where
  bytes : List Byte
  mac : BitVec 48
  group : Bool
  roce : Option RoceObs
  corr : Nat
  uncorr : Nat
  occ : Nat
  deriving DecidableEq, Repr

/-- The recovery ladder of a sector that the service image reads (R351, R353): whether L1 has something to do, whether the
sector's group is sealed in a shingled zone, and of each attempt in the ladder's order the µs it takes and whether it returns
the data. -/
structure LadderObs where
  l1 : Bool
  group : Bool
  steps : List (Nat × Bool)
  deriving DecidableEq, Repr

/-- A media block of an object whose first read fails (R129, R130): its number in the stored stream, and its ladder. -/
structure BlockObs where
  block : Nat
  ladder : LadderObs
  deriving DecidableEq, Repr

/-- A sector that a scrub reads (R103): its address, whether its first read gives the data with corrections, its ladder
where that read fails, and where a block that the outer code rebuilds is written again. -/
structure ScrubObs where
  addr : Nat
  corrected : Bool
  ladder : Option LadderObs
  moved : Option Nat
  deriving DecidableEq, Repr

/-- A packet's queue pair, and whether it bears a CE mark (R44). -/
structure PktHead where
  qp : Fin 16384
  ce : Bool
  deriving DecidableEq, Repr

/-- The PSNs of a message's first and last packet (R60). -/
structure Psns where
  first : BitVec 24
  last : BitVec 24
  deriving DecidableEq, Repr

/-- An MCTP message of a type other than the vendor-defined one: the address it is sent to, the dynamic address that I3C may
assign before it, its type and its bytes (R70, R71). -/
structure MctpObs where
  dest : BitVec 7
  assign : Option (BitVec 7)
  type : BitVec 7
  bytes : List Byte
  deriving DecidableEq, Repr

/-- A zone to be reset, and, where the service image reclaims it, the media addresses that each live block was copied from
and to (R266, R279). -/
structure ResetObs where
  zone : Fin 524288
  copies : List (BitVec 36 × BitVec 36)
  deriving DecidableEq, Repr

/-- A repair source that can be reached (R102, R139): the queue pair that leads to it, the major it negotiates, the length
of its fragment by the bytes, and whether its GET succeeds. -/
structure FragObs where
  qp : Fin 16384
  major : Nat
  bytes : List Byte
  ok : Bool
  deriving DecidableEq, Repr

/-- What the outside world brings to a Stepata command: the bytes of the host's buffer; the media blocks whose first read
fails; the flash call that does not verify, if any; whether a verify-decompress mismatch could not be resolved; the sectors
of a scrub; and what each repair source delivers, none where it fails (R90, R102, R103, R129, R246). -/
structure CmdObs where
  data : List Byte
  recov : List BlockObs
  flash : Option Nat
  vfail : Bool
  scrub : List ScrubObs
  frags : List (Option FragObs)
  deriving DecidableEq, Repr

/-- A word of an internal memory that its checker found failing as initiator `src` read it (R462, R463): memory index, address as
Table "Protected memories" reports it, error pattern, and for a lane buffer of XFM the ring whose job was using it. -/
structure ReadUpset where
  mem : Fin 13
  addr : BitVec 40
  pat : BitVec 80
  src : Fin 11
  job : Option (Fin 16384)
  deriving DecidableEq, Repr

/-- What has struck the memories since the last comparison of the triplicated words (R460, R473): their copies, words stored in
DRAM and the SRAMs, which the next read of each will meet, and words of the other memories that were read. -/
structure UpsetObs where
  trips : List (Fin 5 × Fin 3 × BitVec 32)
  stored : List (BitVec 40 × BitVec 80)
  reads : List ReadUpset
  deriving DecidableEq, Repr

end Sys2Proof
end

