-- ==== Sys2Proof/Syntax.lean ====
section
/-!
DEFINITION. Syntax.lean: the commands of the device, one constructor per row of spec/opcode_table.json, in its order,
each with the row's operands. Where a command is an event of the outside world, the operands carry what the device
observes there (DESIGN CHOICE, log entry 4).
-/

namespace Sys2Proof

/-- The commands. Each constructor's docstring gives the row's mnemonic, its rule and its summary. -/
inductive Instr where
  /-- REGISTER_WRITE (R13): A write to a register that has no row of its own takes effect according to its access code. -/
  | registerWrite (ini : Initiator) (addr : BitVec 40) (size : Fin 4) (v : Option (BitVec 64))
  /-- RETRACT_PHASE_END (R410): After RET_MS of retract drive, the power die switches the VCM to the latch-hold current. -/
  | retractPhaseEnd (x : Fin 2)
  /-- RETRACT_DONE (R410): The 20 ms latch hold ends; the power die sets RET_DONE and raises RETRACT_A or RETRACT_B. -/
  | retractDone (x : Fin 2)
  /-- RAMP_LATCHED (R410): The VCM back-EMF shows the actuator at rest against the latch, and the power die sets LATCH. -/
  | rampLatched (x : Fin 2)
  /-- FORCE_PARK_ASSERT (R569): A filtered assertion of FORCE_PARK_N parks both actuators with cause PARK_REQUEST. -/
  | forceParkAssert
  /-- SPRUE_ALIGNMENT_LOSS (R17): The sprue link loses frame alignment, and the logic die starts to retrain it. -/
  | sprueAlignmentLoss
  /-- SPRUE_RETRAIN_TIMEOUT (R17): The sprue link has not retrained within 1 ms, and the failure is handled as a function error of MOT. -/
  | sprueRetrainTimeout
  /-- SVC_FENCE_TIMEOUT (R34): SVC has not returned from function reset within 2.0 s, and Crucible applies tail drop to NET. -/
  | svcFenceTimeout
  /-- PORT_MODE_SET (R36): A write of NET_CTRL.PORT_MODE or MEDIUM takes the new value only while both ports are disabled. -/
  | portModeSet (p : Option (Fin 2)) (v : BitVec 32)
  /-- PORT_ENABLE (R37): Setting P0_EN or P1_EN enables a port and starts auto-negotiation and link training. -/
  | portEnable (p : Fin 2)
  /-- NET_HOLD_SET (R62): Setting NET_CTRL.HOLD stops NET from starting new work requests while it still places capsules. -/
  | netHoldSet
  /-- NET_HOLD_CLEAR (R62): Clearing HOLD lets NET start the work requests posted during the hold. -/
  | netHoldClear
  /-- LINK_UP (R37): Link training completes, the port comes up and Px_LINK is raised. -/
  | linkUp (p : Fin 2)
  /-- LINK_DOWN (R56): A port loses link; its queue pairs keep their state and their timers keep running. -/
  | linkDown (p : Fin 2)
  /-- RX_FRAME (R46): A received frame is checked for address, length and queue pair, then dropped, delivered raw or handled as RoCEv2. -/
  | rxFrame (p : Fin 2) (o : FrameObs)
  /-- FEC_BURST_REARM (R40): A one-second interval with no uncorrectable codeword re-arms the burst event. -/
  | fecBurstRearm (p : Fin 2)
  /-- PFC_XON (R42): Buffer occupancy falls to XON or less, and NET sends XON. -/
  | pfcXon (p : Fin 2) (occ : Fin 262145)
  /-- CONTEXT_FETCH_DONE (R53): A queue-pair context fetched from DRAM on a miss arrives, and the packets held for it proceed. -/
  | contextFetchDone (q : Fin 16384)
  /-- PFC_PAUSE_RECEIVED (R43): A received PFC frame pauses or resumes transmission on its priorities. -/
  | pfcPauseReceived (p : Fin 2) (on off : BitVec 8)
  /-- PFC_STORM (R43): A priority stays paused for longer than STORM_MS, and PFC_STORM is raised. -/
  | pfcStorm (p : Fin 2)
  /-- CNP_RECEIVED (R45): A congestion notification decreases the queue pair's rate limit if DEC_GAP has passed. -/
  | cnpReceived (q : Fin 16384)
  /-- RATE_INCREASE (R45): The increase timer reaches INC_PERIOD, and the queue pair's rate limit rises by INC_STEP. -/
  | rateIncrease (q : Fin 16384)
  /-- RAW_CONS_WRITE (R48): The service image advances NET_RAW_CONS to free raw-ring slots; a value beyond PROD is ignored. -/
  | rawConsWrite (v : BitVec 32)
  /-- RAW_RING_CONFIG (R48): A write of NET_RAW_BASE or NET_RAW_SIZE while both ports are disabled places the raw ring and zeroes its indices. -/
  | rawRingConfig (size : Bool) (v : BitVec 32)
  /-- MBX_CONS_WRITE (R69): A write of NET_MBX_m_CONS frees mailbox slots, or stops placement into the ring when it passes PROD. -/
  | mbxConsWrite (m : Fin 256) (v : BitVec 32)
  /-- RX_SEND (R60): A received SEND message is placed as a capsule in its mailbox ring with its descriptor. -/
  | rxSend (q : Fin 16384) (psns : Psns) (bytes : List Byte) (ce : Bool)
  /-- RX_RDMA_WRITE (R58): An incoming RDMA WRITE is accepted only against an advertised buffer of the queue pair. -/
  | rxRdmaWrite (h : PktHead) (addr : BitVec 64) (key : BitVec 32) (bytes : List Byte) (psns : Psns)
  /-- RX_RDMA_READ (R58): An incoming RDMA READ is served only from an advertised buffer of the queue pair. -/
  | rxRdmaRead (h : PktHead) (addr : BitVec 64) (key len : BitVec 32) (psn : BitVec 24)
  /-- RX_READ_RESPONSE (R57): Data returned for a device-initiated RDMA READ is written to the local buffer. -/
  | rxReadResponse (h : PktHead) (bytes : List Byte)
  /-- RX_ACK (R57): An ACK acknowledges transmitted packets and completes the work requests it covers. -/
  | rxAck (h : PktHead) (psn : BitVec 24)
  /-- RX_NAK (R55): A received NAK triggers retransmission for RNR, or puts the queue pair in ERROR otherwise. -/
  | rxNak (h : PktHead) (rnr : Bool)
  /-- ACK_TIMEOUT (R54): The local ACK timer expires, and the queue pair retransmits or exhausts its retry count. -/
  | ackTimeout (q : Fin 16384)
  /-- RNR_TIMER_EXPIRY (R54): The RNR timer expires, and the queue pair retries the refused request. -/
  | rnrTimerExpiry (q : Fin 16384)
  /-- QP_ERR_FIFO_POP (R55): A read of NET_QP_ERR_FIFO returns and removes the oldest queue-pair error entry. -/
  | qpErrFifoPop
  /-- CREATE (R52): A QP-control entry creates a queue pair in RESET with the given parameters. -/
  | create (r : Fin 16384)
  /-- MODIFY (R52): A QP-control entry moves a queue pair to TARGET if the transition is allowed. -/
  | modify (r : Fin 16384)
  /-- QUERY (R161): A QP-control entry returns the queue pair's state, rate limit and PSNs. -/
  | query (r : Fin 16384)
  /-- DESTROY (R51): A QP-control entry destroys a queue pair. -/
  | destroy (r : Fin 16384)
  /-- PIN (R53): A QP-control entry pins a context in the cache, up to 64. -/
  | pin (r : Fin 16384)
  /-- UNPIN (R53): A QP-control entry unpins a cached context. -/
  | unpin (r : Fin 16384)
  /-- BIND_MAILBOX (R59): A QP-control entry binds a queue pair in RESET or INIT to a mailbox ring. -/
  | bindMailbox (r : Fin 16384)
  /-- ADVERTISE (R58): A QP-control entry writes an advertised-buffer entry for a queue pair. -/
  | advertise (r : Fin 16384)
  /-- WITHDRAW (R58): A QP-control entry removes an advertised-buffer entry. -/
  | withdraw (r : Fin 16384)
  /-- SEND (R57): A work request sends a local buffer as a SEND message on its queue pair. -/
  | send (r : Fin 16384)
  /-- RDMA_WRITE (R57): A work request writes a local buffer into a remote buffer. -/
  | rdmaWrite (r : Fin 16384)
  /-- RDMA_READ (R57): A work request reads a remote buffer into a local buffer. -/
  | rdmaRead (r : Fin 16384)
  /-- TRANSMIT (R47): A raw-transmit entry sends one raw frame on a port. -/
  | transmit (r : Fin 16384)
  /-- MCTP_CONTROL_MESSAGE (R71): Crucible answers an MCTP control message on the sideband at once. -/
  | mctpControlMessage (msg : MctpObs)
  /-- IDENTITY_GET (R518): The sideband command returns identify bytes and the identity public key. -/
  | identityGet (vendor : BitVec 32)
  /-- SIDEBAND_ATTEST (R517): The sideband command returns a signed attestation report for the given nonce. -/
  | sidebandAttest (vendor : BitVec 32) (nonce : List Byte)
  /-- SIDEBAND_LC_SET (R498): The sideband command requests an authorised life-cycle transition. -/
  | sidebandLcSet (vendor : BitVec 32) (auth : List Byte) (fl : Option Nat)
  /-- KEYSLOT_SET (R499): The sideband command burns an owner key-slot digest into an unset slot in MOULD. -/
  | keyslotSet (vendor : BitVec 32) (slot : BitVec 8) (digest : List Byte)
  /-- AUTH_ACTION (R518): The sideband command carries an authorisation for DEBUG_OPEN or key revocation. -/
  | authAction (vendor : BitVec 32) (auth : List Byte) (fl : Option Nat)
  /-- REC_READ (R544): The sideband command returns up to 8 recorder records from a sequence number. -/
  | recRead (vendor : BitVec 32) (seq : BitVec 32) (n : BitVec 8)
  /-- REC_FREEZE (R540): The sideband command freezes or releases the recorder. -/
  | recFreeze (vendor : BitVec 32) (on : BitVec 8)
  /-- REC_CLEAR (R542): The sideband command clears the recorder region under an authorisation. -/
  | recClear (vendor : BitVec 32) (auth : List Byte) (fl : Option Nat)
  /-- REC_STATUS (R544): The sideband command returns recorder status, sequence numbers and drop counters. -/
  | recStatus (vendor : BitVec 32)
  /-- CONNECT (R87): CONNECT negotiates the highest common major revision and connects the queue pair. -/
  | connect (q : Fin 16384) (cap : List Byte) (obs : CmdObs)
  /-- DISCONNECT (R88): DISCONNECT is answered after earlier commands and leaves the queue pair unconnected with its log cleared. -/
  | disconnect (q : Fin 16384) (cap : List Byte) (obs : CmdObs)
  /-- IDENTIFY (R89): IDENTIFY writes 4,096 bytes of identify data to the host buffer. -/
  | identify (q : Fin 16384) (cap : List Byte) (obs : CmdObs)
  /-- PUT (R90): PUT creates or replaces an object with data pulled from the host or carried inline. -/
  | put (q : Fin 16384) (cap : List Byte) (obs : CmdObs)
  /-- GET (R91): GET returns a byte range of an object by RDMA WRITE or inline. -/
  | get (q : Fin 16384) (cap : List Byte) (obs : CmdObs)
  /-- WRITE (R92): WRITE replaces a byte range of an existing object, growing it if needed. -/
  | write (q : Fin 16384) (cap : List Byte) (obs : CmdObs)
  /-- DELETE (R93): DELETE removes an object and reports the generation deleted. -/
  | delete (q : Fin 16384) (cap : List Byte) (obs : CmdObs)
  /-- HEAD (R93): HEAD reports an object's size and generation. -/
  | head (q : Fin 16384) (cap : List Byte) (obs : CmdObs)
  /-- LIST (R94): LIST writes entries of objects with the given key prefix from a cursor onward. -/
  | list (q : Fin 16384) (cap : List Byte) (obs : CmdObs)
  /-- FLUSH (R120): FLUSH is answered once every earlier command is answered, and with DESTAGE 1 once earlier acknowledged writes are on disk. -/
  | flush (q : Fin 16384) (cap : List Byte) (obs : CmdObs)
  /-- DESTAGE (R95): DESTAGE is answered once every write acknowledged before it is on the disk. -/
  | destage (q : Fin 16384) (cap : List Byte) (obs : CmdObs)
  /-- ORDER (R120): ORDER holds later commands until every earlier command has committed or been answered. -/
  | order (q : Fin 16384) (cap : List Byte) (obs : CmdObs)
  /-- GET_FEATURE (R96): GET_FEATURE returns the value in effect and the saved value of a feature. -/
  | getFeature (q : Fin 16384) (cap : List Byte) (obs : CmdObs)
  /-- SET_FEATURE (R96): SET_FEATURE sets a feature and optionally saves it in the retained settings. -/
  | setFeature (q : Fin 16384) (cap : List Byte) (obs : CmdObs)
  /-- POWER_STATE (R97): POWER_STATE requests entry into a power state. -/
  | powerState (q : Fin 16384) (cap : List Byte) (obs : CmdObs)
  /-- POWER_STATE_ENTERED (R136): Power-state entry completes and the POWER_STATE reply is sent. -/
  | powerStateEntered
  /-- POWER_STATE_REVERSAL (R136): At a safe point a command that needs what the target state gives up reverses the entry. -/
  | powerStateReversal
  /-- FW_STAGE (R98): FW_STAGE writes an image chunk into the inactive slot or media-profile region, verifying on FINAL. -/
  | fwStage (q : Fin 16384) (cap : List Byte) (obs : CmdObs)
  /-- FW_ACTIVATE (R99): FW_ACTIVATE activates a verified image live or at the next device reset. -/
  | fwActivate (q : Fin 16384) (cap : List Byte) (obs : CmdObs)
  /-- FORMAT_EPOCH_ADVANCE (R100): FORMAT_EPOCH_ADVANCE raises the format epoch by one, irreversibly. -/
  | formatEpochAdvance (q : Fin 16384) (cap : List Byte) (obs : CmdObs)
  /-- REPAIR_BUILD (R102): REPAIR_BUILD fetches fragments from peers, decodes and stores the target fragment. -/
  | repairBuild (q : Fin 16384) (cap : List Byte) (obs : CmdObs)
  /-- SCRUB (R103): SCRUB reads and checks media or staging without returning data, optionally rewriting rebuilt sectors. -/
  | scrub (q : Fin 16384) (cap : List Byte) (obs : CmdObs)
  /-- SANITIZE (R104): SANITIZE destroys key bands, and for ACTION 3 erases the staging tier, under an authorisation. -/
  | sanitize (q : Fin 16384) (cap : List Byte) (obs : CmdObs)
  /-- ATTEST (R105): ATTEST writes a signed attestation report for the host nonce. -/
  | attest (q : Fin 16384) (cap : List Byte) (obs : CmdObs)
  /-- SET_TIME (R106): SET_TIME sets the device's UTC clock. -/
  | setTime (q : Fin 16384) (cap : List Byte) (obs : CmdObs)
  /-- RECORDER_READ (R107): RECORDER_READ copies recorder records to the host buffer, optionally freezing recording. -/
  | recorderRead (q : Fin 16384) (cap : List Byte) (obs : CmdObs)
  /-- RECORDER_CLEAR (R107): RECORDER_CLEAR clears the recorder under an accepted authorisation. -/
  | recorderClear (q : Fin 16384) (cap : List Byte) (obs : CmdObs)
  /-- ERROR_LOG_READ (R125): ERROR_LOG_READ copies a queue pair's error-log entries to the host buffer. -/
  | errorLogRead (q : Fin 16384) (cap : List Byte) (obs : CmdObs)
  /-- QUEUE_RESTART (R126): QUEUE_RESTART discards held commands and unfreezes a queue pair whose ERR_SEQ matches. -/
  | queueRestart (q : Fin 16384) (cap : List Byte) (obs : CmdObs)
  /-- ABORT (R127): ABORT catches or misses a target command and answers with CAUGHT or MISSED. -/
  | abort (q : Fin 16384) (cap : List Byte) (obs : CmdObs)
  /-- WRITE_COMMIT (R112): A PUT, WRITE or DELETE commits once its data is in the write buffer and its locator names the new content. -/
  | writeCommit (q : Fin 16384) (tag : BitVec 16)
  /-- WRITE_ACKNOWLEDGE (R113): A change is acknowledged once its data and journal record are non-volatile. -/
  | writeAcknowledge (q : Fin 16384) (tag : BitVec 16) (fault : Bool)
  /-- ACTIVATION_SUSPEND (R134): At 100 ms of a live activation, commands still running are suspended and control passes to the new image. -/
  | activationSuspend
  /-- ACTIVATION_TIMEOUT (R135): The new image is not ready by 450 ms; its slot is marked invalid and the old image resumes. -/
  | activationTimeout
  /-- DESTAGE_START (R231): Staging occupancy reaches DESTAGE_HIGH_WATER, and destage begins. -/
  | destageStart
  /-- STAGED_PAGE_RELEASE (R232): A staged page is released once its media write and journal record are done. -/
  | stagedPageRelease (pbas : List (BitVec 36))
  /-- SQ_ENABLE (R144): A write of SQ_CFG.ENABLE 1 moves a submission ring to ACTIVE if every check passes. -/
  | sqEnable (q : Fin 16384)
  /-- CQ_ENABLE (R144): A write of CQ_CFG.ENABLE 1 moves a completion ring to ACTIVE if its checks pass. -/
  | cqEnable (c : Fin 4096)
  /-- SQ_DOORBELL (R150): A submission doorbell is accepted and advances P, or moves the ring to ERROR or is ignored. -/
  | sqDoorbell (q : Fin 16384) (v : BitVec 17)
  /-- CQ_DOORBELL (R151): A consumer doorbell frees completion slots and may drop the interrupt request. -/
  | cqDoorbell (c : Fin 4096) (v : BitVec 17)
  /-- ENTRY_FETCH_DONE (R153): A fetched submission entry is checked for index and PHASE and used, refetched or faulted. -/
  | entryFetchDone (q : Fin 16384) (idx : BitVec 17)
  /-- PHASE_RETRY (R153): Every 64 FABRIC cycles a stale entry is refetched, up to 16 times, then the ring enters ERROR. -/
  | phaseRetry (q : Fin 16384)
  /-- JOB_START (R156): The ring manager starts a job whose entries are checked, reserving a completion place and budget. -/
  | jobStart (q : Fin 16384) (aged : Bool)
  /-- COMPLETION_POST (R162): A finished job's completion is posted in ring order and SQ_DONE advances. -/
  | completionPost (q : Fin 16384)
  /-- SPILL_WRITE (R168): A spilled completion is written to its completion ring once a slot there frees. -/
  | spillWrite (c : Fin 4096)
  /-- RING_ERR_FIFO_POP (R175): A read of RING_ERR_FIFO returns and removes the oldest ring error. -/
  | ringErrFifoPop
  /-- NOP (R179): The eft executes a microword that does nothing. -/
  | nop (e : Fin 12) (o : CsRead)
  /-- LDI (R179): The eft loads a zero-extended immediate into a scratch register. -/
  | ldi (e : Fin 12) (o : CsRead)
  /-- LDH (R179): The eft loads an immediate into the upper half of a scratch register. -/
  | ldh (e : Fin 12) (o : CsRead)
  /-- ADDI (R179): The eft adds a sign-extended immediate and sets the flags. -/
  | addi (e : Fin 12) (o : CsRead)
  /-- MOV (R179): The eft copies one scratch register to another. -/
  | mov (e : Fin 12) (o : CsRead)
  /-- ADD (R179): The eft adds two registers and sets the flags. -/
  | add (e : Fin 12) (o : CsRead)
  /-- SUB (R179): The eft subtracts two registers and sets the flags. -/
  | sub (e : Fin 12) (o : CsRead)
  /-- AND (R179): The eft ANDs two registers. -/
  | and (e : Fin 12) (o : CsRead)
  /-- OR (R179): The eft ORs two registers. -/
  | or (e : Fin 12) (o : CsRead)
  /-- XOR (R179): The eft XORs two registers. -/
  | xor (e : Fin 12) (o : CsRead)
  /-- SHL (R179): The eft shifts a register left. -/
  | shl (e : Fin 12) (o : CsRead)
  /-- SHR (R179): The eft shifts a register right logically. -/
  | shr (e : Fin 12) (o : CsRead)
  /-- CMP (R179): The eft sets the flags of a subtraction without storing it. -/
  | cmp (e : Fin 12) (o : CsRead)
  /-- JOB (R179): The eft loads a body word of the job's first entry. -/
  | job (e : Fin 12) (o : CsRead)
  /-- XFER (R182): The eft starts moving bytes between BUF and a datapath channel. -/
  | xfer (e : Fin 12) (o : CsRead)
  /-- XFER_DONE (R182): The eft's transfer ends and XDONE holds. -/
  | xferDone (e : Fin 12)
  /-- WAIT (R182): The eft waits for an event or a timeout. -/
  | wait (e : Fin 12) (o : CsRead)
  /-- WAIT_TIMEOUT (R182): A WAIT reaches its timeout and the TO condition holds. -/
  | waitTimeout (e : Fin 12)
  /-- BR (R180): The eft branches if the condition holds. -/
  | br (e : Fin 12) (o : CsRead)
  /-- CALL (R179): The eft pushes a return address and branches. -/
  | call (e : Fin 12) (o : CsRead)
  /-- RET (R179): The eft pops the return stack and branches. -/
  | ret (e : Fin 12) (o : CsRead)
  /-- DBNZ (R179): The eft decrements a register and branches if it is not zero. -/
  | dbnz (e : Fin 12) (o : CsRead)
  /-- COMMIT (R187): The eft enters the committed part of the unit. -/
  | commit (e : Fin 12) (o : CsRead)
  /-- END (R184): The eft ends the unit successfully, completing the job after its last unit. -/
  | endUnit (e : Fin 12) (o : CsRead)
  /-- FAIL (R184): The eft ends the job at once with the status KIND selects. -/
  | fail (e : Fin 12) (o : CsRead)
  /-- RES (R184): The eft writes or adds a scratch register into a result. -/
  | res (e : Fin 12) (o : CsRead)
  /-- EVT (R179): The eft sets EFT_ATTN.MICRO with a code. -/
  | evt (e : Fin 12) (o : CsRead)
  /-- HALT (R179): The eft enters DEBUG_HALT when debugging is enabled, else faults ILLEGAL. -/
  | halt (e : Fin 12) (o : CsRead)
  /-- UNIT_ABANDON (R185): An abandon request from the datapath meets an uncommitted unit, which is abandoned for restart. -/
  | unitAbandon (e : Fin 12) (k : AbandonKind)
  /-- UNIT_RESTART (R185): An abandoned unit restarts from its entry once the preempting job has ended. -/
  | unitRestart (e : Fin 12)
  /-- EFT_WATCHDOG (R190): A unit's running time reaches EFT_WDOG and the unit is abandoned with cause WATCHDOG. -/
  | eftWatchdog (e : Fin 12)
  /-- BREAKPOINT_HALT (R197): The eft reaches the EFT_BREAK address with debugging enabled and halts. -/
  | breakpointHalt (e : Fin 12)
  /-- TIME_US (R181): An IN from port TIME_US returns the free-running microsecond count. -/
  | timeUs (e : Fin 12) (o : CsRead)
  /-- UNIT_RESTARTS (R181): An IN from port UNIT_RESTARTS returns the restarts of the present unit. -/
  | unitRestarts (e : Fin 12) (o : CsRead)
  /-- TOKEN (R176): An OUT to TOKEN takes the MEDx datapath token or waits for it. -/
  | token (e : Fin 12) (o : CsRead)
  /-- LOAD_START (R194): Crucible writes START, and the eft enters LOADING with its control store invalid. -/
  | loadStart (e : Fin 12)
  /-- CS_DATA_WRITE (R194): Crucible writes one microword to the control store at ADDR. -/
  | csDataWrite (e : Fin 12) (v : BitVec 32)
  /-- LOAD_FINISH (R194): Crucible writes FINISH, and the CRC check validates the control store or sets LOAD_ERR. -/
  | loadFinish (e : Fin 12)
  /-- EFT_RUN (R197): A write of EFT_CTRL.RUN lets the eft leave STOPPED or makes it stop after its present job. -/
  | eftRun (e : Fin 12) (b : Bool)
  /-- EFT_STEP (R197): In DEBUG_HALT the eft executes one microword and halts again. -/
  | eftStep (e : Fin 12) (o : CsRead)
  /-- EFT_RESUME (R197): A write of RESUME makes the eft leave DEBUG_HALT. -/
  | eftResume (e : Fin 12)
  /-- CHANNEL_ENABLE (R200): A write of CHc_MODE.EN starts a flash channel in SDR mode 0 if its geometry is valid. -/
  | channelEnable (c : Fin 8) (en : Bool)
  /-- RATE_SWITCH (R201): A write of SWITCH starts a rate switch once the channel is idle. -/
  | rateSwitch (c : Fin 8)
  /-- RATE_SWITCH_DONE (R202): Channel training ends at the requested rate or a lower one, or the channel goes down. -/
  | rateSwitchDone (c : Fin 8) (passed : Fin 11)
  /-- READ_PAGE (R220): The STG eft reads a page and runs the LDPC and retry ladder. -/
  | readPage (c : Fin 8) (reads : List (List CwObs)) (soft : List CwObs) (tmo : Bool)
  /-- PROGRAM_PAGE (R226): The STG eft programs a page into the NAND array. -/
  | programPage (c : Fin 8) (failed : BitVec 4) (tmo : Bool)
  /-- ERASE_BLOCK (R226): The STG eft erases a block. -/
  | eraseBlock (c : Fin 8) (failed : BitVec 4) (tmo : Bool)
  /-- STG_SET_FEATURE (R206): The STG eft issues an ONFI SET FEATURES to a LUN. -/
  | stgSetFeature (c : Fin 8)
  /-- STG_GET_FEATURE (R206): The STG eft issues an ONFI GET FEATURES to a LUN. -/
  | stgGetFeature (c : Fin 8)
  /-- RESET_LUN (R206): The STG eft resets a LUN. -/
  | resetLun (c : Fin 8)
  /-- READ_PARAM (R206): The STG eft reads the parameter page or READ ID data. -/
  | readParam (c : Fin 8) (tmo : Bool)
  /-- CMD (R212): An OUT to CMD issues a command cycle to the job's LUN. -/
  | cmd (e : Fin 12) (o : CsRead)
  /-- ADDR (R212): An OUT to ADDR issues column and row address cycles. -/
  | addr (e : Fin 12) (o : CsRead)
  /-- APPLY (R212): An OUT to APPLY sets the LUN's read offsets to a retry entry if they differ. -/
  | apply (e : Fin 12) (o : CsRead)
  /-- STATUS (R212): An IN from STATUS issues READ STATUS ENHANCED and returns the status byte. -/
  | status (e : Fin 12) (o : CsRead)
  /-- DECODE (R212): An OUT to DECODE starts LDPC decoding of a buffer set; an IN returns the failing bitmap. -/
  | decode (e : Fin 12) (o : CsRead)
  /-- DECODE_DONE (R212): A DECODE ends and the DECODED event is raised. -/
  | decodeDone (c : Fin 8) (obs : List (Fin 32 × CwObs))
  /-- SYNDROME (R212): An IN from SYNDROME returns a codeword's first-iteration syndrome weight. -/
  | syndrome (e : Fin 12) (o : CsRead)
  /-- YIELD (R212): An OUT to YIELD parks the job in a context slot and frees the eft. -/
  | yield (e : Fin 12) (o : CsRead)
  /-- CONFIRM (R212): An OUT to CONFIRM issues the confirm cycle that starts a program or erase. -/
  | confirm (e : Fin 12) (o : CsRead)
  /-- SUSPEND (R212): An OUT to SUSPEND issues the program or erase suspend command. -/
  | suspend (e : Fin 12) (o : CsRead)
  /-- RESUME (R212): An OUT to RESUME issues the resume command. -/
  | resume (e : Fin 12) (o : CsRead)
  /-- RESET (R212): An OUT to RESET issues RESET LUN or RESET to the die. -/
  | reset (e : Fin 12) (o : CsRead)
  /-- FEATURE_DATA (R212): An OUT to FEATURE_DATA issues the four SET FEATURES parameter bytes. -/
  | featureData (e : Fin 12) (o : CsRead)
  /-- LUN_READY (R213): A LUN reports ready and wakes the job parked with YIELD 0. -/
  | lunReady (c : Fin 8) (d : Fin 8) (fail : Bool)
  /-- ARRAY_TIMEOUT (R213): A parked job's array time passes its limit and it wakes with TO holding. -/
  | arrayTimeout (c : Fin 8) (d : Fin 8)
  /-- SUSPEND_REQUEST (R216): SREQ rises for a LUN and wakes its committed program or erase. -/
  | suspendRequest (c : Fin 8) (d : Fin 8) (timeLeft : Bool)
  /-- SUSPEND_RESUME_CONDITION (R217): A resume condition holds and wakes the suspended job. -/
  | suspendResumeCondition (c : Fin 8) (d : Fin 8) (byTime : Bool)
  /-- PARKED_JOB_RESUME (R214): A woken parked job resumes after its YIELD once the eft is free. -/
  | parkedJobResume (c : Fin 8)
  /-- BLK_CMD (R228): A write of STG_BLK_CMD with GO requests a block-record flag change. -/
  | blkCmd (v : BitVec 32)
  /-- BLK_CMD_APPLY (R228): STG applies a pending block command at the channel's next idle boundary. -/
  | blkCmdApply
  /-- ADVISE_FIFO_POP (R227): A read of STG_ADVISE_FIFO returns and removes the oldest advice entry. -/
  | adviseFifoPop
  /-- COMPRESS (R241): An XFM lane compresses a buffer to a raw DEFLATE stream and verifies it. -/
  | compress (l : Fin 8) (mis : List Bool)
  /-- DECOMPRESS (R247): An XFM lane decodes a DEFLATE stream into a buffer. -/
  | decompress (l : Fin 8)
  /-- ENCODE (R250): The erasure lane writes M parity fragments from K data fragments. -/
  | encode
  /-- ERASURE_DECODE (R250): The erasure lane solves for wanted fragments from present ones and checks consistency. -/
  | erasureDecode
  /-- ENCRYPT (R252): A cipher lane encrypts units with AES-256-XTS under a band key. -/
  | encrypt (l : Fin 4) (n : Fin 4097)
  /-- DECRYPT (R252): A cipher lane decrypts units with AES-256-XTS under a band key. -/
  | decrypt (l : Fin 4) (n : Fin 4097)
  /-- COPY (R248): The copy lane copies a buffer as if through a temporary buffer. -/
  | copy
  /-- ZONE_ENABLE (R265): ZONE_CTRL.EN going to 1 starts the zone-table scan. -/
  | zoneEnable
  /-- ZONE_SCAN_DONE (R265): The zone-table scan ends and held MEDx jobs may be checked. -/
  | zoneScanDone
  /-- ZONE_OPEN (R266): The OPEN zone command binds a parity context to a shingled zone. -/
  | zoneOpen (z : Fin 524288)
  /-- ZONE_CLOSE (R266): The CLOSE zone command releases the context, sealing a partial group. -/
  | zoneClose (z : Fin 524288)
  /-- ZONE_FINISH (R266): The FINISH zone command closes the zone and sets it FULL. -/
  | zoneFinish (z : Fin 524288)
  /-- ZONE_RESET (R266): The RESET zone command empties a shingled zone. -/
  | zoneReset (o : ResetObs)
  /-- ZONE_SYNC (R266): The SYNC zone command clears HOLD and resets the reserved pointer to WP. -/
  | zoneSync (z : Fin 524288)
  /-- SET_RO (R266): The SET_RO zone command makes a zone READ_ONLY. -/
  | setRo (z : Fin 524288)
  /-- ZONE_OFFLINE (R266): The OFFLINE zone command makes a zone OFFLINE. -/
  | zoneOffline (z : Fin 524288)
  /-- REMAP (R275): The REMAP zone command applies a remap defect entry in a conventional zone. -/
  | remap (z : Fin 524288)
  /-- ZONE_CMD_UNDEFINED (R266): A zone command with an undefined OP is refused with BAD_ARG. -/
  | zoneCmdUndefined (z : Fin 524288) (k : Fin 8)
  /-- ZONE_OFFER (R280): A write of ZONE_OFFER_REQ computes and shows a zone offer by headroom. -/
  | zoneOffer (v : BitVec 32)
  /-- WRITE_RELEASE (R270): WP reaches a job's first slot and the keeper releases its write-gate arming. -/
  | writeRelease (z : Fin 524288)
  /-- PAL_TRANSACTION (R285): MEDx sends a command frame to the preamp and checks the response frame. -/
  | palTransaction (x : Fin 2) (wr : Bool) (addr : Fin 9) (r1 r2 r3 : BitVec 32)
  /-- PREAMP_FAULT_INPUT (R289): PFLT_N falls and MEDx reads the preamp FAULT word and acts on each bit. -/
  | preampFaultInput (x : Fin 2) (o : PalObs)
  /-- PAL_CMD (R309): A write of MEDx_PAL_CMD with GO sends a raw preamp frame. -/
  | palCmd (x : Fin 2) (v : BitVec 32) (r1 r2 r3 : BitVec 32)
  /-- TD_SWEEP (R299): A write of MEDx_TD_CTRL.GO starts a heater sweep to touchdown on a head. -/
  | tdSweep (x : Fin 2) (v : BitVec 32)
  /-- WHEAD (R300): An OUT to WHEAD selects a head and sends MODE write-ready. -/
  | whead (e : Fin 12) (o : CsRead)
  /-- WSECT (R300): An OUT to WSECT loads a slot for writing and retargets the servo if needed. -/
  | wsect (e : Fin 12) (o : CsRead)
  /-- WPARITY (R300): An OUT to WPARITY makes the loaded slot take a parity sector. -/
  | wparity (e : Fin 12) (o : CsRead)
  /-- WSTAT (R300): An IN from WSTAT returns the status of the last armed sector. -/
  | wstat (e : Fin 12) (o : CsRead)
  /-- WEND (R300): An OUT to WEND ends the write run. -/
  | wend (e : Fin 12) (o : CsRead)
  /-- ARM (R300): An OUT to ARM arms the loaded slot for writing. -/
  | arm (e : Fin 12) (o : CsRead)
  /-- WRITE_SECTOR_PASS (R301): An armed sector's position arrives and the gate rises only if every condition holds. -/
  | writeSectorPass (x : Fin 2) (mine : Bool) (o : PassObs)
  /-- SECTOR_WRITE_END (R302): An armed write sector ends, written or stopped, and WDONE is raised. -/
  | sectorWriteEnd (x : Fin 2)
  /-- RHEAD (R333): An OUT to RHEAD selects a head for reading and starts a new run. -/
  | rhead (e : Fin 12) (o : CsRead)
  /-- RSECT (R333): An OUT to RSECT loads a slot for reading and retargets the servo if needed. -/
  | rsect (e : Fin 12) (o : CsRead)
  /-- RARM (R312): An OUT to RARM arms reading of the loaded slot at its next on-track pass. -/
  | rarm (e : Fin 12) (o : CsRead)
  /-- RSTAT (R333): An IN from RSTAT returns the outcome of the last armed sector. -/
  | rstat (e : Fin 12) (o : CsRead)
  /-- RERASED (R333): An IN from RERASED returns the erased bits and ranges of the last sector. -/
  | rerased (e : Fin 12) (o : CsRead)
  /-- REND (R333): An OUT to REND ends the read run and writes back gain and frequency. -/
  | rend (e : Fin 12) (o : CsRead)
  /-- READ_SECTOR_PASS (R317): An armed sector passes under the head and is acquired, synced, sampled and detected. -/
  | readSectorPass (x : Fin 2) (o : SectorObs)
  /-- SECTOR_READ_OUTCOME (R327): Decoding of a sector ends with its outcome and RDONE is raised. -/
  | sectorReadOutcome (x : Fin 2) (o : OutcomeObs)
  /-- SECTOR_GAP (R314): A sector gap lets the channel apply ADC trims, slice retirement and adaptation. -/
  | sectorGap (x : Fin 2)
  /-- ADC_MEAS_PERIOD (R447): A 65,536-sample measurement period of a slice ends and spares move their shadow phase. -/
  | adcMeasPeriod (x : Fin 2) (r : Fin 2) (k : Fin 34) (off gain skew : BitVec 8)
  /-- SYNC (R348): An IN from SYNC returns the SYNC word of the last armed sector. -/
  | sync (e : Fin 12) (o : CsRead)
  /-- SSLOT (R348): An IN from SSLOT returns the sample slot of the last armed sector. -/
  | sslot (e : Fin 12) (o : CsRead)
  /-- SPIN (R345): An OUT to SPIN pins or unpins a sample slot. -/
  | spin (e : Fin 12) (o : CsRead)
  /-- OREDET (R347): An OUT to OREDET starts offline re-detection or a probe on a sample slot. -/
  | oredet (e : Fin 12) (o : CsRead)
  /-- OFFLINE_DONE (R347): Offline work ends and ODONE is raised. -/
  | offlineDone (x : Fin 2) (o : OutcomeObs)
  /-- OSTAT (R348): An IN from OSTAT returns the outcome of the last OREDET. -/
  | ostat (e : Fin 12) (o : CsRead)
  /-- OCSTART (R348): An OUT to OCSTART clears the rebuild engine and binds it to a group. -/
  | ocstart (e : Fin 12) (o : CsRead)
  /-- OCSTAT (R348): An IN from OCSTAT returns the rebuild engine's accumulation state. -/
  | ocstat (e : Fin 12) (o : CsRead)
  /-- OCSOLVE (R354): An OUT to OCSOLVE rebuilds a data slot of the bound group from the outer code. -/
  | ocsolve (e : Fin 12) (o : CsRead)
  /-- OCSOLVE_DONE (R354): An OCSOLVE ends and OCDONE is raised. -/
  | ocsolveDone (x : Fin 2)
  /-- REDETECT (R349): A MEDx class 1 job runs one full offline run on a sample slot. -/
  | redetect (x : Fin 2) (o : OutcomeObs)
  /-- MEDIA_READ (R351): A MEDx READ job reads sectors, running the recovery ladder where needed. -/
  | mediaRead (e : Fin 4) (obs : List ReadUnitObs)
  /-- MEDIA_WRITE (R303): A MEDx WRITE job writes sectors at the zone's write pointer. -/
  | mediaWrite (e : Fin 4) (obs : List WriteUnitObs)
  /-- VERIFY (R351): A MEDx VERIFY job reads and checks sectors without moving data. -/
  | verify (e : Fin 4) (obs : List ReadUnitObs)
  /-- CAPTURE (R183): A MEDx CAPTURE job keeps a sector's samples in the sample buffer. -/
  | capture (e : Fin 4) (obs : List ReadUnitObs)
  /-- SEEK (R387): A MEDx SEEK job retargets the actuator and waits for SETTLED. -/
  | seek (e : Fin 4) (o : SettleObs)
  /-- LOAD (R387): A MEDx LOAD job loads the heads off the ramp and waits for SETTLED. -/
  | load (e : Fin 4) (o : SettleObs)
  /-- UNLOAD (R183): A MEDx UNLOAD job unloads the heads to the ramp. -/
  | unload (e : Fin 4) (latched : Bool)
  /-- WEDGE_STROBE (R366): At each wedge strobe the servo engine demodulates, computes the control law and writes outputs. -/
  | wedgeStrobe (x : Fin 2) (o : WedgeObs)
  /-- SVSTAT (R384): An IN from SVSTAT returns MEDx_SV_STATUS. -/
  | svstat (e : Fin 12) (o : CsRead)
  /-- RETARGET (R376): An OUT to RETARGET sets a new effective target for the reference generator. -/
  | retarget (e : Fin 12) (o : CsRead)
  /-- ROFFSET (R384): An OUT to ROFFSET sets the read offset applied to the target. -/
  | roffset (e : Fin 12) (o : CsRead)
  /-- RAMP_OFF (R385): An OUT to RAMP_OFF starts a load with an initial retarget, or is refused. -/
  | rampOff (e : Fin 12) (o : CsRead)
  /-- RAMP_ON (R385): An OUT to RAMP_ON starts an unload, or is refused. -/
  | rampOn (e : Fin 12) (o : CsRead)
  /-- RAMP_TIMEOUT (R385): LOADING or UNLOADING lasts past its timeout and the engine faults RAMP_TIMEOUT. -/
  | rampTimeout (x : Fin 2)
  /-- FAULT_CLR (R386): A write of FAULT_CLR after the retract moves the engine from FAULT to OFF. -/
  | faultClr (x : Fin 2)
  /-- SV_CMD_RETARGET (R393): A write of MEDx_SV_CMD.GO retargets the engine while no eft owns the token. -/
  | svCmdRetarget (x : Fin 2) (v : BitVec 32)
  /-- TRACE_ARM (R389): A write of ARM clears the trace and moves it to ARMED. -/
  | traceArm (x : Fin 2)
  /-- TRACE_TRIG_NOW (R389): A write of TRIG_NOW triggers an armed trace. -/
  | traceTrigNow (x : Fin 2)
  /-- TRACE_STOP (R389): A write of STOP moves the trace to IDLE. -/
  | traceStop (x : Fin 2)
  /-- SERVO_LANE_FRAME (R408): The power die receives a servo-lane frame and applies its commands or discards it. -/
  | servoLaneFrame (x : Fin 2) (good : Bool)
  /-- LANE_TIMEOUT (R408): No valid lane frame arrives within LANE_TMO while armed, and the actuator is parked. -/
  | laneTimeout (x : Fin 2)
  /-- SPEED_COMMAND (R399): A write of MOT_SPD_CMD.TARGET sets a new spindle set point or is refused. -/
  | speedCommand (v : BitVec 32)
  /-- SPEED_REF_TICK (R399): Every 1 ms the speed reference steps toward TARGET and SPIN_OK is checked. -/
  | speedRefTick (rev : Bool)
  /-- SPEED_LOOP_TICK (R400): Every 100 µs the PI loop updates the torque current command. -/
  | speedLoopTick (act : BitVec 32) (iq : BitVec 16) (emf : BitVec 32) (inBand : Bool)
  /-- DETECT_END (R395): DET_MS of detection ends and the spindle starts, resumes or reverse-brakes by the result. -/
  | detectEnd (o : DetectObs)
  /-- STOP_DETECTED (R394): No Hall edge for STOP_MS with low back-EMF, and the spindle is STOPPED. -/
  | stopDetected
  /-- START_TIMEOUT (R396): The spindle has not reached 600 rpm within START_S and enters FAULT. -/
  | startTimeout
  /-- HALL_EDGE (R397): A filtered Hall edge drives six-step commutation, hand-off and rotor-loss checks. -/
  | hallEdge (o : HallObs)
  /-- RELOCK_TIMEOUT (R398): RELOCK lasts RELOCK_MS and the spindle enters FAULT. -/
  | relockTimeout
  /-- ALIGN_END (R401): Open-loop alignment ends and forced commutation begins. -/
  | alignEnd
  /-- PWM_PERIOD (R402): Each PWM period the bridge switches and the shunt current is sampled. -/
  | pwmPeriod (o : PwmObs)
  /-- VM_OVERVOLTAGE (R406): VM exceeds OV_V with the chopper on; a chopper fault is declared and regeneration refused. -/
  | vmOvervoltage
  /-- INPUT_DIP (R412): An input falls below its threshold and the deglitch interval starts. -/
  | inputDip (v12 : Bool)
  /-- POWER_LOSS (R413): A dip lasts DEGLITCH; the power die isolates, parks, flags and enters HOLDUP. -/
  | powerLoss
  /-- HOLDUP_DONE (R415): A write of MOT_PL_CTRL.DONE ends hold-up. -/
  | holdupDone
  /-- VM_BELOW_HOLD_MIN (R415): VM falls below HOLD_MIN_V and hold-up ends. -/
  | vmBelowHoldMin
  /-- INPUT_GOOD_BOOT (R415): After hold-up the input has been good for 100 ms and a cold boot starts. -/
  | inputGoodBoot
  /-- MODEL_STEP (R421): Every 1 ms the thermal model, cap derating, head heat and calibration triggers update. -/
  | modelStep (duty : List (Fin 257))
  /-- SENSOR_SAMPLE (R423): Sensors are sampled and cross-checked against neighbours and the model. -/
  | sensorSample (t : List (Option (BitVec 16)))
  /-- QUENCH_COOLED (R427): Every usable sensor has read below 115 °C for 2 s and a cold boot starts. -/
  | quenchCooled
  /-- SENSOR_REARM (R424): A write of 1 to a TH_EXCLUDED bit re-arms a sensor. -/
  | sensorRearm (m : BitVec 20)
  /-- BUDGET_WINDOW (R428): Every 100 µs the arbiter measures input power, updates TRIM and grants balances. -/
  | budgetWindow (p12 : BitVec 16) (meters : List (BitVec 16))
  /-- AVFS_TICK (R439): Every 10 µs the AVFS loop reads slack and steps voltage or frequency. -/
  | avfsTick (slack : List (BitVec 8))
  /-- CORE_DROOP (R440): A monitor shows slack of 4/256 or less and the CORE clock halves for 64 cycles. -/
  | coreDroop
  /-- CAL_REQUEST (R447): A write of CAL_REQ bit s requests a calibration run. -/
  | calRequest (m : BitVec 8)
  /-- CAL_RUN_START (R448): A pending calibration run starts at its subsystem's boundary. -/
  | calRunStart (k : Fin 8) (heads : BitVec 12)
  /-- CAL_DEFER_TIMEOUT (R448): No boundary within DEFER_MS, and the controller forces one and raises DEFER_FORCED. -/
  | calDeferTimeout (k : Fin 8)
  /-- CAL_RUN_TIMEOUT (R448): An ADC run has not completed within TMO_MS and ends NO_ACTIVITY. -/
  | calRunTimeout (k : Fin 8)
  /-- CAL_RUN_END (R447): A calibration run ends with its RESULT and updates T_LAST on success. -/
  | calRunEnd (k : Fin 8) (o : CalObs)
  /-- SCRUB_START (R470): A write of MEM_SCRUB_CTRL.GO starts a scrub of a memory range, or is refused. -/
  | scrubStart (v : BitVec 32)
  /-- SCRUB_STOP (R472): A write of STOP ends the scrub after the word in progress. -/
  | scrubStop
  /-- SCRUB_END (R472): The scrub reads LIMIT, sets DONE and raises SCRUB_DONE. -/
  | scrubEnd
  /-- ERROR_TABLE_CLEAR (R465): A write of MEM_m_TAB_CLR clears a memory's error table and overflow count. -/
  | errorTableClear (m : Fin 13)
  /-- VOTE_CHECK (R473): Every 1 ms the triplicated words are compared and minority bits rewritten. -/
  | voteCheck (ups : UpsetObs)
  /-- DRAM_REFRESH (R458): The controller issues all-bank refresh at the interval for the devices' temperature. -/
  | dramRefresh
  /-- DRAM_TEMP_POLL (R458): Every 32 ms the controller reads MR4 of each DRAM device. -/
  | dramTempPoll (a b c d e : BitVec 5)
  /-- DRAM_TRAINING_DONE (R457): DRAM training ends at a rate or fails with TRAIN_FAIL. -/
  | dramTrainingDone (top : Option (Fin 4))
  /-- WIPE_DONE (R474): A memory wipe ends, allowing service-core release. -/
  | wipeDone
  /-- XIP_READ (R479): The XIP controller serves a line read from prefetch, branch cache or array. -/
  | xipRead (l : Fin 2097152) (cru : Bool)
  /-- CF_PROGRAM (R486): The ROM routine programs up to one page of code flash. -/
  | cfProgram (off src len flags ra mtvec : BitVec 32)
  /-- CF_ERASE (R486): The ROM routine erases a code-flash sector or block. -/
  | cfErase (off kind flags ra mtvec : BitVec 32)
  /-- CF_INFO (R483): The ROM routine returns CF_STATUS and its revision. -/
  | cfInfo
  /-- CF_PULSE_END (R486): A program or erase pulse ends; a read gap opens and the array is verified. -/
  | cfPulseEnd (left : List (Fin 16384 × BitVec 32))
  /-- L2_INVALIDATE (R481): A write of CRU_L2_INV.GO invalidates level-2 lines of a flash range. -/
  | l2Invalidate (v : BitVec 32)
  /-- MAILBOX_SEND (R519): A write of SVC_CMBX_TX_GO sends a request to Crucible unless the FIFO is full. -/
  | mailboxSend
  /-- MAILBOX_REPLY (R519): A write of CRU_MBX_TX_GO sends Crucible's reply to the service image. -/
  | mailboxReply
  /-- CRU_MBX_POP (R519): A write of CRU_MBX_RX_POP removes the head request. -/
  | cruMbxPop
  /-- SVC_CMBX_POP (R523): A write of SVC_CMBX_RX_POP removes the head reply. -/
  | svcCmbxPop
  /-- FLASH_WRITE (R519): Crucible programs a spare region of code flash for the service image. -/
  | flashWrite (seq : BitVec 8) (off : BitVec 32) (src : BitVec 40) (len : BitVec 32) (fl : Option Nat)
  /-- FLASH_ERASE (R519): Crucible erases in a spare region of code flash for the service image. -/
  | flashErase (seq : BitVec 8) (off : BitVec 32) (kind : BitVec 8) (fl : Option Nat)
  /-- SETTINGS_WRITE (R564): Crucible appends a settings record to both copies in turn. -/
  | settingsWrite (seq : BitVec 8) (tag : BitVec 16) (src : BitVec 40) (len : BitVec 32) (fl : Option Nat)
  /-- STAGE (R512): Crucible writes a firmware chunk into the inactive slot or profile region. -/
  | stage (seq : BitVec 8) (target place : BitVec 8) (off : BitVec 32) (src : BitVec 40) (len : BitVec 32) (final : Bool) (fl : Option Nat)
  /-- ACTIVATE (R513): Crucible activates a staged image live or at the next reset. -/
  | activate (seq : BitVec 8) (target mode : BitVec 8)
  /-- READY (R508): The service image reports ready, and Crucible confirms slots and raises SVN counters. -/
  | ready (seq : BitVec 8)
  /-- BAND_CREATE (R501): Crucible creates and stores a wrapped key for a band. -/
  | bandCreate (seq : BitVec 8) (band : BitVec 8) (fl : Option Nat)
  /-- CRU_SANITIZE (R502): Crucible runs the sanitize steps for an authorised action. -/
  | cruSanitize (seq : BitVec 8) (action band : BitVec 8) (a : BitVec 40) (fl : Option Nat)
  /-- AUTH_CHECK (R516): Crucible checks a recorder-clear authorisation. -/
  | authCheck (seq : BitVec 8) (action : BitVec 8) (a : BitVec 40)
  /-- CRU_ATTEST (R517): Crucible writes a signed attestation report to a destination. -/
  | cruAttest (seq : BitVec 8) (nonce dst : BitVec 40)
  /-- WINDOW_SET (R493): Crucible programs a DRAM window, or refuses it with DENIED. -/
  | windowSet (seq : BitVec 8) (set index : BitVec 8) (base limit : BitVec 40) (en : Bool)
  /-- FUNC_RESET (R533): The service image asks Crucible to reset a function. -/
  | funcReset (seq : BitVec 8) (f : BitVec 8)
  /-- CRU_LC_SET (R498): Crucible carries out an authorised life-cycle transition and resets. -/
  | cruLcSet (seq : BitVec 8) (a : BitVec 40) (fl : Option Nat)
  /-- DEBUG_LC_MOULD (R497): The debug port moves a BLANK device to MOULD and generates the identity seed. -/
  | debugLcMould
  /-- FUSE_LIFECYCLE (R494): A fuse command burns the life-cycle state. -/
  | fuseLifecycle (arg : BitVec 8)
  /-- FUSE_VAULT_WORD (R498): A fuse command burns the vault control word. -/
  | fuseVaultWord (arg : BitVec 8)
  /-- FUSE_KEK_STEP (R502): A fuse command advances KEK_EPOCH by one. -/
  | fuseKekStep (arg : BitVec 8)
  /-- FUSE_SVN_CRU (R508): A fuse command raises the CRU SVN counter. -/
  | fuseSvnCru (arg : BitVec 8)
  /-- FUSE_SVN_SVC (R508): A fuse command raises the SVC SVN counter. -/
  | fuseSvnSvc (arg : BitVec 8)
  /-- FUSE_SVN_PROF (R508): A fuse command raises the PROF SVN counter. -/
  | fuseSvnProf (arg : BitVec 8)
  /-- FUSE_KEY_SLOT (R499): A fuse command burns a key-slot digest. -/
  | fuseKeySlot (arg : BitVec 8)
  /-- FUSE_IDENTITY_SEED (R499): A fuse command burns the identity seed. -/
  | fuseIdentitySeed (arg : BitVec 8)
  /-- FUSE_BURN_DONE (R499): A fuse burn completes and BUSY clears. -/
  | fuseBurnDone
  /-- BAND_CMD_CREATE (R501): CRU_BAND_CMD CREATE draws a band key and returns it wrapped. -/
  | bandCmdCreate (b : Fin 64)
  /-- BAND_LOAD (R501): CRU_BAND_CMD LOAD unwraps a band key into XFM. -/
  | bandLoad (b : Fin 64)
  /-- BAND_UNLOAD (R255): CRU_BAND_CMD UNLOAD clears a band key from XFM at the next unit boundary. -/
  | bandUnload (b : Fin 64)
  /-- BAND_REWRAP (R501): CRU_BAND_CMD REWRAP re-wraps a band key under the next KEK epoch. -/
  | bandRewrap (b : Fin 64)
  /-- HASH_START (R522): A write of CRU_HASH_CTRL.GO starts a SHAKE256 computation. -/
  | hashStart (outlen : BitVec 8)
  /-- HASH_DONE (R522): The hash computation ends and its output is readable. -/
  | hashDone
  /-- RNG_DATA_READ (R500): A read of CRU_RNG_DATA returns 32 DRBG bits, reseeding as needed. -/
  | rngDataRead
  /-- ENTROPY_HEALTH_FAIL (R500): An entropy health test fails; FAIL is set and ENTROPY_FAIL raised. -/
  | entropyHealthFail
  /-- WDOG_KICK (R522): A write of CRU_WDOG.KICK restarts the boot watchdog. -/
  | wdogKick
  /-- WDOG_STOP (R522): A write of CRU_WDOG.STOP ends the boot watchdog. -/
  | wdogStop
  /-- BOOT_WATCHDOG_EXPIRY (R508): The boot watchdog expires and a device reset follows. -/
  | bootWatchdogExpiry
  /-- TRIAL_TIMEOUT (R508): A service image on trial sends no READY within 10 s; its slot is invalidated and the device resets. -/
  | trialTimeout
  /-- CORE_RESTART (R522): A write of CRU_CORE_CTRL.RESTART restarts service cores at CRU_CORE_VEC. -/
  | coreRestart (m : BitVec 6)
  /-- BOOT_START (R511): After a reset release the device boots through its steps to release the service cores. -/
  | bootStart (kat entropy chopper : Bool) (pass : BitVec 4) (straps : BitVec 3)
  /-- EVENT_RAISE (R526): A source is raised; it offers a record, routes its interrupt and may be a function error. -/
  | eventRaise (n : Fin 256) (bit : Fin 8) (payload : Option (List Byte))
  /-- HANDLE_TIMEOUT (R530): A function in HANDLING for HANDLE_MS is tail-dropped with CAUSE 2. -/
  | handleTimeout (f : Fin 7)
  /-- ERROR_SLOT_CLEAR (R530): A write of VALID to EVC_ERR_f_PRI clears the slot and returns the function to NORMAL. -/
  | errorSlotClear (f : Fin 7)
  /-- ERROR_RAISE (R529): A write of EVC_ERR_RAISE raises a function error for a function. -/
  | errorRaise (f : Fin 8) (cond : BitVec 8)
  /-- TAIL_DROP (R532): Crucible or the controller fences a function and holds its rings and efts. -/
  | tailDrop (f : Fin 8)
  /-- FUNCTION_RESET (R533): A write of EVC_FRESET starts a function reset, tail-dropping first if needed. -/
  | functionReset (f : Fin 8)
  /-- FUNCTION_RESET_END (R533): A function reset ends; the fence clears and FRESET_DONE is raised. -/
  | functionResetEnd (f : Fin 7) (pass : BitVec 4) (chopper : Bool)
  /-- SOFT_POST (R525): A write of EVC_SOFT_POST posts a software record as a SOFT source. -/
  | softPost (k : Fin 8) (cond : BitVec 8) (func : Fin 16)
  /-- RECORDER_DRAIN (R539): Crucible programs pending records into the region when 8 are pending or one has waited 100 ms. -/
  | recorderDrain (old : Bool) (f : Option Nat)
  /-- DRAIN_POP (R539): A write of EVC_DRAIN_POP removes the oldest pending record. -/
  | drainPop
  /-- RECORDER_FREEZE (R540): A write of EVC_CTRL.FREEZE freezes or releases the recorder. -/
  | recorderFreeze (on : Bool)
  /-- FREEZE_TIMEOUT (R540): A freeze holder is released after 10 s. -/
  | freezeTimeout (sb : Bool)
  /-- WINDOW_LOAD (R541): A write of EVC_WIN_v_CURSOR loads up to 8 kept records into a window. -/
  | windowLoad (v : Fin 2) (seq : BitVec 32)
  /-- RECORDER_FAULT_SET (R543): A write of EVC_RFAULT.SET sets the sticky fault word and enters RAM-only mode. -/
  | recorderFaultSet (page : Fin 4096)
  /-- TIME_LOAD (R535): A write of EVC_TIME_SET GO loads the record clock and clears UNSYNC. -/
  | timeLoad (hi : BitVec 31)
  /-- TOKEN_REFILL (R537): Every RATE ms a source's token bucket gains a token. -/
  | tokenRefill (n : Fin 256)
  /-- INPUT_GOOD (R549): Both inputs rise above their thresholds and the power-up hold timer starts. -/
  | inputGood
  /-- POWER_UP_START (R549): The power-up conditions have held for 2 ms; ISO_GATE turns on and VM ramps. -/
  | powerUpStart
  /-- RAMP_FAILURE (R550): VM has not reached 10.8 V within 40 ms; the ramp stops and is retried. -/
  | rampFailure
  /-- VM_GOOD (R551): VM reaches 10.8 V and the rail sequence starts. -/
  | vmGood
  /-- RAIL_SEQUENCE_STEP (R551): Every 0.5 ms the next module rail starts. -/
  | railSequenceStep
  /-- COLD_RESET_RELEASE (R551): Every rail is good for 10 ms and the power-on cold reset is released. -/
  | coldResetRelease (xtal : Bool)
  /-- RAIL_FAULT (R552): A rail leaves its window; the power die parks, resets and powers down the rails. -/
  | railFault (k : Fin 8)
  /-- PRESENCE_REMOVAL (R555): A filtered negation of PRESENT_N starts the power-loss sequence. -/
  | presenceRemoval
  /-- RESET_PIN_ASSERT (R557): RESET_N falls and holds the logic die in reset. -/
  | resetPinAssert
  /-- RESET_PIN_LONG (R557): RESET_N has been low for 1 s and the reset becomes cold. -/
  | resetPinLong
  /-- RESET_PIN_RELEASE (R557): RESET_N rises and the reset in progress is released. -/
  | resetPinRelease
  /-- PWR_RESET_WARM (R557): Crucible writes PWR_RESET KIND 1 and a warm reset begins. -/
  | pwrResetWarm
  /-- PWR_RESET_DEVICE (R557): Crucible writes PWR_RESET KIND 2 and a device reset begins. -/
  | pwrResetDevice
  /-- PWR_RESET_COLD (R557): Crucible writes PWR_RESET KIND 3 and a cold reset begins. -/
  | pwrResetCold
  /-- SIF_EDGE (R565): A filtered input's new level has held for MINW and its output follows. -/
  | sifEdge (n : Fin 8) (level held : Bool)
  /-- SIF_WINDOW (R566): A WIN_MS window of an input ends and its transition count restarts. -/
  | sifWindow (n : Fin 8)
  /-- SIF_STUCK (R567): An input has held its active level for STUCK_MS and is declared faulty with STUCK. -/
  | sifStuck (n : Fin 8)
  /-- SIF_REARM (R568): A write of 1 to SIF_FAULT re-arms a faulty input. -/
  | sifRearm (m : BitVec 16)
  /-- WAKE_ASSERT (R570): A filtered assertion of WAKE sets WAKE_SEEN. -/
  | wakeAssert
  /-- DEBUG_IR_UPDATE (R579): A debug-port instruction-register update is checked against the life-cycle rights. -/
  | debugIrUpdate (r : TapIr)
  /-- INPUT_OVERVOLTAGE (R584): VIN12 exceeds SHUNT_V for DEGLITCH and is treated as a power loss. -/
  | inputOvervoltage
  /-- AON_OSC_FAIL (R598): The AON crystal fails and an internal oscillator replaces it. -/
  | aonOscFail
  /-- SPRUE_LINK_RETRAINED (R17): The sprue link regains frame alignment within 1 ms, and register traffic, MOT events and telemetry resume across it. -/
  | sprueLinkRetrained
  /-- VAON_RETENTION_LOSS (R558): VAON falls below its retention level as VM decays, clearing the AON domain so that the next cold reset is a power-on cold reset. -/
  | vaonRetentionLoss
  /-- SCRUB_WORD (R471): The scrubber reads one word, records a corrected or uncorrectable result in the summary, counters and table, and writes a correction back unless a newer write reached the word. -/
  | scrubWord (pat : BitVec 80)
  /-- CF_VERIFY_DONE (R486): A code-flash verify ends; a read gap serves waiting reads, and the routine returns, fails or starts the next pulse. -/
  | cfVerifyDone
  /-- BRAKE_CHOPPER (R405): VM rises above or falls back below SHUNT_V, and the shunt regulator switches the brake resistor across VM or off it. -/
  | brakeChopper (up : Bool)
  /-- RAMP_RETRY (R550): One second after a failed VM ramp, the power die turns ISO_GATE on and ramps VM again, until three ramps have failed. -/
  | rampRetry
  /-- RAIL_FAULT_RESTART (R552): 100 ms after a rail fault, the power die powers up again under R551 with a cold reset of cause RAIL_FAULT. -/
  | railFaultRestart
  /-- AON_WRITE_DONE (R31): An AON register write completes its handshake, up to 92 µs after issue, and the busy bit clears so a further AON write is accepted. -/
  | aonWriteDone
  /-- BAND_CMD_DONE (R501): A CRU_BAND_CMD operation ends; BUSY clears and CRU_BAND_STAT shows DONE, or ERR after a failed unwrap. -/
  | bandCmdDone
  deriving DecidableEq, Repr

end Sys2Proof
end

