-- ==== Sys2Proof/Decode.lean ====
section
/-!
DEFINITION. Decode.lean: the command that a word of the opcode table spells. The rows of spec/opcode_table.json give no
bits, so no word spells a command.
-/

namespace Sys2Proof

/-- The command whose bits are `w`: none, since the table gives its rows no bits. -/
def decodeTableWord (_nbits _w : Nat) : Option Instr := none

end Sys2Proof
end

