-- ==== Sys2Proof/Config.lean ====
section
/-!
DEFINITION. Config.lean: free values. Each constant has no body: the spec leaves the value open, and no proof can see
what it is. A claim about the model holds whatever they are.
-/

namespace Sys2Proof.Config

/-- Parity byte `i` of the LDPC codeword of some data, in the code that `P` parity bytes select (R208, R219: the codes'
matrices are not given). -/
opaque ldpcParity : Nat → List Byte → Nat → Byte

/-- The four bytes, as a number, that SET FEATURES writes at feature address 1 (timing mode) or 2 (interface
configuration) for a rate (R201: ONFI's codes, which the spec does not give). -/
opaque onfiMode : Nat → Nat → Nat

/-- Byte `i` of what a die answers to READ PARAMETER PAGE or READ ID with an address (R206: the die maker's data). -/
opaque nandParam : Nat → Nat → Nat → Byte

/-- The four bytes a die holds for a feature address never set (R206). -/
opaque nandFeature : Nat → Nat → Nat

/-- A byte of data the spec calls undefined or does not state: drawn with the counter `State.drawn`. -/
opaque freeByte : Nat → Byte

/-- Code lengths the silicon chooses for symbol frequencies under a limit (R242): used only where they are an optimal
length-limited prefix code. -/
opaque codeLengths : List Nat → Nat → List Nat

/-- Run-length form the silicon chooses for a dynamic header's code lengths (R242): symbol and extra bits of each
code-length code; used only where it stands for those lengths. -/
opaque headerRuns : List Nat → List (Nat × Nat)

/-- Byte `i` of the KEK of an epoch, derived from the root secret by a function the spec does not give (R499). -/
opaque kek : Nat → Nat → Byte

/-- ML-DSA-65 verification (FIPS 204): public key, context, message, signature (R505, R516). -/
opaque mldsaVerify : List Byte → List Byte → List Byte → List Byte → Bool

/-- Byte `i` of an ML-DSA-65 signature under the key generated from a seed: seed, context, message (R517). -/
opaque mldsaSign : List Byte → List Byte → List Byte → Nat → Byte

/-- Byte `i` of the ML-DSA-65 public key generated from a seed (R499). -/
opaque mldsaKey : List Byte → Nat → Byte

/-- Byte `i` of the KMAC256 that authenticates a counter record (R516); its key is not given. -/
opaque kmac : List Byte → Nat → Byte

/-- The sample between two neighbours at a fraction `n` / 64 of the bit between them (R311: the spec does not give the
interpolation): the later sample, then the earlier one. -/
opaque interpolate : Nat → Int → Int → Int

/-- The path MTU in bytes that a queue pair's packets keep to (R57: the spec does not give it). -/
opaque pathMtu : Nat → Nat

/-- A service image of a version serves a Stepata major (R84, R138: which majors an image serves is its own). -/
opaque servesMajor : Nat → Nat → Bool

/-- User capacities of the media and of the staging tier in bytes, and whether the part is the EX one (R89: facts of the
module that the spec does not fix). -/
opaque mediaBytes : Nat
opaque stagingBytes : Nat
opaque partEx : Bool

end Sys2Proof.Config
end

