-- ==== Sys2Proof/Machine/SectorCode.lean ====
section
/-!
DEFINITION. Machine/SectorCode.lean: the sector's LDPC code (R325), the sync mark (R338), and the linear solver of the
erasure codes (R250, R271).
-/

namespace Sys2Proof

/-- Shift of the circulant of data column `c` in block row `r` (R325). -/
def ldpcShift (r c : Nat) : Nat := (19 * (r + 1) * (c + 1) + c * c) % 512

/-- Block (r, c) of a data column is not zero (R325). -/
def ldpcUsed (r c : Nat) : Bool := r = c % 7 || r = (c + 1) % 7 || r = (c + 3) % 7

/-- Exclusive-or of two bit lists of one length. -/
def xorBits (a b : List Bool) : List Bool := List.zipWith (fun p q => p != q) a b

/-- S(r): the product of block row r's data blocks with the data bits (R325). `cols` are the 65 data columns. -/
def ldpcRow (cols : List (List Bool)) (r : Nat) : List Bool :=
  cols.zipIdx.foldl (fun acc (b, c) => if ldpcUsed r c then xorBits acc (b.rotateLeft (ldpcShift r c)) else acc)
    (List.replicate 512 false)

/-- Cut a list into `n` pieces of `k`. -/
def chunks {α : Type} (k : Nat) : Nat → List α → List (List α)
  | 0, _ => []
  | n + 1, l => l.take k :: chunks k n (l.drop k)

/-- The 3,584 parity bits, by the staircase p(0) = S(0), p(j) = S(j) xor p(j − 1) (R325). -/
def ldpcParityBits (data : List Bool) : List Bool :=
  let cols := chunks 512 65 data
  let rec go : Nat → Nat → List Bool → List Bool
    | 0, _, _ => []
    | n + 1, j, p =>
      let q := xorBits (ldpcRow cols j) p
      q ++ go n (j + 1) q
  go 7 0 (List.replicate 512 false)

/-- Bytes from bits, each byte least significant bit first. -/
def bytesOf (bits : List Bool) : List Byte := (chunks 8 (bits.length / 8) bits).map fun b => BitVec.ofNat 8 (bitsNat b)

/-- The 4,608 bytes of a media block's codeword (R290, R325): its 4,160 data bytes, then 448 bytes of parity. -/
def encodeSector (data : List Byte) : List Byte := let d := fit 4160 data; d ++ bytesOf (ldpcParityBits (bitsOf d))

/-- The sync mark SM, bit 47 first (R338). -/
def syncMark : List Bool := (List.range 48).map fun i => Nat.testBit 0xF05AA50F5F0A (47 - i)

/-- Swap the first row with a non-zero head to the front, if there is one. -/
def pivotRow (k : Nat) : List (List Nat) → Option (List Nat × List (List Nat))
  | [] => none
  | r :: rs =>
    if r.getD k 0 ≠ 0 then some (r, rs)
    else match pivotRow k rs with
      | some (p, rest) => some (p, r :: rest)
      | none => none

/-- Gauss-Jordan elimination over a field of characteristic 2: rows of coefficients, each followed by its right-hand
sides; `done` are the rows reduced so far. Answers the reduced rows in column order, none where the system is
singular. -/
def gauss (mul : Nat → Nat → Nat) (inv : Nat → Nat) : Nat → Nat → List (List Nat) → List (List Nat) →
    Option (List (List Nat))
  | 0, _, done, _ => some done
  | n + 1, k, done, rows =>
    match pivotRow k rows with
    | none => none
    | some (p, rest) =>
      let f := inv (p.getD k 0)
      let p := p.map (mul f)
      let clear (r : List Nat) : List Nat :=
        let c := r.getD k 0
        List.zipWith (fun a b => a ^^^ mul c b) r p
      gauss mul inv n (k + 1) (done.map clear ++ [p]) (rest.map clear)

/-- The matrix that gives unknowns from right-hand sides: the inverse of a square matrix, where it has one. -/
def solveMatrix (mul : Nat → Nat → Nat) (inv : Nat → Nat) (m : List (List Nat)) : Option (List (List Nat)) :=
  let n := m.length
  let aug := m.mapIdx fun i r => r ++ (List.range n).map fun j => b2n (i = j)
  (gauss mul inv n 0 [] aug).map fun rows => rows.map fun r => r.drop n

end Sys2Proof
end

