-- ==== Sys2Proof/Machine/Sparse.lean ====
section
/-!
DEFINITION. Machine/Sparse.lean: sparse maps from addresses to values, in one canonical form: keys strictly rising and
no entry equal to what an unlisted key reads as. The default of an unlisted key is a parameter of every operation, so
the map itself is plain data.
-/

namespace Sys2Proof

/-- A sparse map: (key, value) pairs. -/
abbrev Sparse (α : Type) := List (Nat × α)

namespace Sparse

/-- Value at a key: its entry, else what an unlisted key reads as. -/
def get {α : Type} (d : Nat → α) (m : Sparse α) (k : Nat) : α :=
  match m.lookup k with
  | some v => v
  | none => d k

/-- Insert an entry at its place among rising keys. -/
def ins {α : Type} (k : Nat) (v : α) : Sparse α → Sparse α
  | [] => [(k, v)]
  | (k', v') :: t => if k < k' then (k, v) :: (k', v') :: t else (k', v') :: ins k v t

/-- Write a key. Writing what an unlisted key reads as removes the entry. -/
def set {α : Type} [DecidableEq α] (d : Nat → α) (m : Sparse α) (k : Nat) (v : α) : Sparse α :=
  let m' := m.filter fun e => e.1 ≠ k
  if v = d k then m' else ins k v m'

/-- Write consecutive keys. -/
def setList {α : Type} [DecidableEq α] (d : Nat → α) (m : Sparse α) (k : Nat) : List α → Sparse α
  | [] => m
  | v :: vs => setList d (set d m k v) (k + 1) vs

/-- Read `n` consecutive keys. -/
def getList {α : Type} (d : Nat → α) (m : Sparse α) (k : Nat) : Nat → List α
  | 0 => []
  | n + 1 => get d m k :: getList d m (k + 1) n

/-- Return to the default every key the predicate names. -/
def clear {α : Type} (m : Sparse α) (p : Nat → Bool) : Sparse α := m.filter fun e => !p e.1

/-- The canonical form: keys strictly rising, no entry equal to the default. -/
def wf {α : Type} [DecidableEq α] (d : Nat → α) : Sparse α → Bool
  | [] => true
  | [(k, v)] => v ≠ d k
  | (k, v) :: (k', v') :: t => v ≠ d k && k < k' && wf d ((k', v') :: t)

end Sparse

end Sys2Proof
end

