-- ==== Sys2Proof/Machine/StateMed.lean ====
section
/-!
DEFINITION. Machine/StateMed.lean: state of the zone keeper (spec/09) and of one MEDx function beyond its registers: the
write path and preamp (spec/10), the read channel (spec/11), sector recovery (spec/12) and the servo engine (spec/13).
-/

namespace Sys2Proof.Machine

/-- A parity context of the zone keeper (R266, R270 to R272). -/
structure Ctx where
  /-- The OPEN zone that holds it. -/
  zone : Nat
  /-- The reserved pointer (R270). -/
  rwp : Nat
  /-- Data sectors accumulated in the present group, 0 to 256. -/
  fill : Nat
  /-- P(0) to P(7) of the present group: eight sectors of symbols (R271). -/
  parity : List (List Nat)
  deriving DecidableEq, Repr

/-- A shingled WRITE job the keeper has let start (R268, R270). -/
structure ZoneWrite where
  /-- Submission ring and FIRST index. -/
  sq : Nat
  first : Nat
  /-- Actuator and zone. -/
  act : Nat
  zone : Nat
  /-- First slot, and the slot after the last one reserved. -/
  start : Nat
  stop : Nat
  /-- The keeper has released its first arming. -/
  released : Bool
  deriving DecidableEq, Repr

/-- The zone keeper. -/
structure Zone where
  /-- ZONE_STATUS.SCAN (R265). -/
  scan : Bool
  /-- Parity contexts of actuators A and B, 16 each (R266). -/
  ctxA : List (Option Ctx)
  ctxB : List (Option Ctx)
  /-- Started shingled WRITE jobs, oldest first. -/
  writes : List ZoneWrite
  /-- Zones treated as absent since the scan (R602). -/
  absent : List Nat
  /-- Zones whose fields the keeper could not write: refused as OFFLINE until EN falls (R602). -/
  locked : List Nat
  deriving DecidableEq, Repr

/-- A sector position: what WSECT or RSECT loads (R274, R300, R333). -/
structure Sect where
  zone : Nat
  slot : Nat
  /-- Parity sector number that WPARITY gave (R300). -/
  parity : Option Nat
  head : Nat
  track : Nat
  sector : Nat
  shingled : Bool
  deriving DecidableEq, Repr

/-- A heater sweep (R299). -/
structure Sweep where
  head : Nat
  /-- Heater code now. -/
  code : Nat
  /-- Strobes left at this code. -/
  left : Nat
  /-- Strobes left of the baseline revolution. -/
  learn : Nat
  deriving DecidableEq, Repr

/-- A head-band entry as last read: its four words (R292, Table "Head-band entry"). -/
structure HeadBand where
  w0 : Word
  w1 : Word
  w2 : Word
  w3 : Word
  deriving DecidableEq, Repr

/-- The write path of one MEDx and what its preamp holds. -/
structure Wr where
  /-- Words the preamp holds: ID as last read, MODE, WRITE_I, WRITE_OS, ASSIST, HEATER (R287). -/
  pId : Nat
  pMode : Nat
  pWi : Nat
  pOs : Nat
  pAssist : Nat
  pHeater : Nat
  /-- Writes sent whose response has not come: address and DATA, oldest first (R285, R286). -/
  sent : List (Nat × Nat)
  /-- The head-band entry in use, and the head and band it is that of; none until one has been read (R292). -/
  entry : HeadBand
  entryOf : Option (Nat × Nat)
  /-- Command frames sent on PAL_SDO since the last reset of MEDx, newest first (R284, R285). -/
  sdo : List (BitVec 32)
  /-- What WD carries while the gate is up, cell by cell from the first preamble bit: the level, and the delay of the
  transition into the cell in 1/32 of a cell (R284, R290, R291). -/
  wd : List (Bool × Nat)
  /-- The sector being written lies at a servo field: its gate is down and rises again behind the field (R291). -/
  inField : Bool
  /-- MEDx_WR_STATUS: GATE, ASSIST_ON, LINK_UP, FLT_SUBST, HEAD, LAST_WSTAT. -/
  gate : Bool
  aen : Bool
  linkUp : Bool
  fltSubst : Bool
  head : Nat
  wstat : Nat
  /-- The write FIFO: bytes, 32 per entry (R290, R301). -/
  fifo : List Byte
  /-- The media block of the sector written last, for the parity context (R272). -/
  lastData : List Byte
  /-- The loaded slot and the armed one (R300). -/
  loaded : Option Sect
  armed : Option Sect
  /-- Eft that armed. -/
  armedBy : Nat
  /-- WDONE holds: the last armed sector has ended (EV 24). -/
  wdone : Bool
  /-- A run is in progress, and the head and band whose entry it uses (R292, R294). -/
  run : Bool
  runHead : Nat
  runBand : Nat
  /-- A gate has risen in this run (R293). -/
  begun : Bool
  /-- The heater is wanted at HEAT_W, and strobes spent there (R293). -/
  heatW : Bool
  preheat : Nat
  /-- Passes missed for position or write-unsafe (R301). -/
  unsafeRevs : Nat
  /-- A boundary cause waits for the sector's end: 6, 7 or 8 (R302). -/
  boundary : Option Nat
  /-- Assist loop: DAC, sensor streak, limit streak, ASSIST_LIMIT raised in this job; no sample before 2.0 µs
  (R297). -/
  dac : Nat
  exc : Nat
  limit : Nat
  limitRaised : Bool
  /-- Touchdown: baseline, streak, and heater held at 0 since (R298). -/
  tdBase : Option Nat
  tdStreak : Nat
  touched : Bool
  /-- The heater sweep (R299). -/
  sweep : Option Sweep
  deriving DecidableEq, Repr

/-- A head-band read entry as last loaded: its four words (R310, Table "Head-band read entry"). -/
structure ReadBand where
  w0 : Word
  w1 : Word
  w2 : Word
  w3 : Word
  deriving DecidableEq, Repr

/-- What detection and decoding go by (R322 to R326). -/
structure DetCfg where
  /-- Coefficients 0 to 63 of the equaliser, taps of the target g(1, ·) and g(2, ·), and the 48 predictor taps. -/
  eq : List Int
  g1 : List Int
  g2 : List Int
  np : List Int
  eqMain : Nat
  /-- Readers enabled: mask. Weights of the outputs, 0 for that of a reader not enabled. -/
  readers : Nat
  w1 : Nat
  w2 : Nat
  /-- LLR_SCALE; NORM in eighths; LOCAL_ITER and GLOBAL_ITER in effect. -/
  scale : Nat
  norm : Nat
  locals : Nat
  globals : Nat
  deriving DecidableEq, Repr

/-- An armed read: its number, its sector and head, and the settings in force at its arming (R310, R342, R344). -/
structure ReadArm where
  seq : Nat
  sect : Sect
  pba : Nat
  head : Nat
  band : Nat
  entry : ReadBand
  /-- MEDx_SR_SYNC.WIN and THR. -/
  win : Nat
  thr : Nat
  /-- Sample slot, if one qualified (R344). -/
  sample : Option Nat
  /-- The sector is the distrusted one (R350). -/
  distrust : Bool
  deriving DecidableEq, Repr

/-- A defect range in codeword bits (R329, R330): `lost` is the reader, 1 or 2, that is dropped over it, or 0 where its bits are
erased. -/
structure Range where
  first : Nat
  last : Nat
  lost : Nat
  deriving DecidableEq, Repr

/-- One reader alone carries the range (R329). -/
def Range.one (r : Range) : Bool := r.lost ≠ 0

/-- A sector that has passed and whose decoding runs, or that failed before it (R317 to R341). -/
structure ReadPass where
  arm : ReadArm
  /-- RSTAT flags 4 to 9. -/
  flags : Nat
  erased : Nat
  ranges : List Range
  sync : Word
  /-- Samples of both readers as delivered to the equaliser, for bits −16 to 37,087. -/
  x1 : List Int
  x2 : List Int
  cfg : DetCfg
  deriving DecidableEq, Repr

/-- The read channel of one MEDx. -/
structure Rc where
  head : Nat
  loaded : Option Sect
  armed : Option ReadArm
  armedBy : Nat
  /-- RARMs made; the last one's number (R333). -/
  seq : Nat
  /-- Sectors in the decoder, oldest first, at most three online slots (R328). -/
  decoding : List ReadPass
  /-- RDONE holds (EV 25). -/
  rdone : Bool
  rstat : Word
  rerased : Word
  /-- A run is in progress, and the band last loaded (R310, R313). -/
  run : Bool
  band : Option Nat
  /-- The entry loaded, and the coefficients and predictor taps read with it or at the last gap (R310, R322). -/
  entry : ReadBand
  eq : List Int
  np : List Int
  /-- Words of the coefficient and predictor stores written since the last sector passed or gap was used (R332). -/
  written : List Nat
  gain : Nat
  freq : Int
  theta : Int
  locked : Bool
  synced : Bool
  /-- What the CHAN to FABRIC FIFO holds: the block delivered last, less what has been taken; nothing after a sector that ended
  without data (R31, R327). -/
  out : List Byte
  /-- Gathered statistics: equaliser (64) and predictor (48), with their head and band (R331). -/
  statG : List Int
  statH : List Int
  statOf : Option (Nat × Nat)
  /-- EQ_LIMIT was raised in this run. -/
  eqLimit : Bool
  /-- DEGRADED per reader, and the phases the two spares of each reader shadow (R315). -/
  degraded1 : Bool
  degraded2 : Bool
  shadow : List Nat
  deriving DecidableEq, Repr

/-- A slot of the sector sample buffer (R343). -/
structure Sample where
  valid : Bool
  pba : Nat
  head : Nat
  band : Nat
  tgt : Nat
  outcome : Nat
  sw : Nat
  sync : Word
  ranges : List Range
  /-- Samples of both readers, for bits −16 to 37,087. -/
  x1 : List Int
  x2 : List Int
  deriving DecidableEq, Repr

/-- Offline work (R347): slot, offset, target set, probe; `eft` for an OREDET, `job` the ring and FIRST index of a
REDETECT job. -/
structure Offline where
  slot : Nat
  off : Int
  tgt : Nat
  probe : Bool
  eft : Nat
  job : Option (Nat × Nat)
  /-- The PBA that was distrusted when it was asked for (R350). -/
  distrust : Option Nat
  /-- Settings in force since it started (R347); none while it waits for the fourth slot. -/
  cfg : Option DetCfg
  deriving DecidableEq, Repr

/-- The rebuild engine (R348, R354). -/
structure Rebuild where
  zone : Nat
  group : Nat
  shingled : Bool
  isSealed : Bool
  /-- Sectors of the group accumulated: offset in the group and bytes. -/
  have_ : List (Nat × List Byte)
  ok : Bool
  /-- An OCSOLVE runs for this offset. -/
  solving : Option Nat
  /-- Step L4 of the shipped routine bound it for this job: the ring and FIRST index (R354). -/
  l4 : Option (Nat × Nat)
  deriving DecidableEq, Repr

/-- Sector recovery of one MEDx. -/
structure Sr where
  slot0 : Sample
  slot1 : Sample
  /-- The slot written less recently. -/
  older : Nat
  lastSlot : Nat
  lastKept : Bool
  /-- SYNC word of the last armed sector. -/
  sync : Word
  /-- Offline work, in start order: the first runs (R347). -/
  offline : List Offline
  /-- OSTAT of the last OREDET; none before any (R348). -/
  ostat : Option Word
  odone : Bool
  rebuild : Option Rebuild
  ocdone : Bool
  deriving DecidableEq, Repr

/-- Servo engine states (R364). -/
inductive SvSt where
  | off | loading | seeking | settling | tracking | unloading | fault | held
  deriving DecidableEq, Repr

/-- A retarget: track and flags (R376); a track shifted by DELTA may lie outside the 24 bits (R388). -/
structure Retarget where
  track : Int
  write : Bool
  shingled : Bool
  deriving DecidableEq, Repr

/-- The trace buffer's states (R389). -/
inductive TraceSt where
  | idle | armed | triggered | done
  deriving DecidableEq, Repr

/-- One servo engine. -/
structure Sv where
  st : SvSt
  clamped : Bool
  wus : Bool
  bank : Nat
  timing : Bool
  xfEn : Bool
  following : Bool
  cause : Nat
  miss : Nat
  fe : Nat
  /-- Good wedges in a row in LOADING; settled wedges in a row; good TRACKING wedges in a row. -/
  goodRun : Nat
  settleRun : Nat
  wusRun : Nat
  /-- Reference r, velocity, acceleration, position, PES, effective target (R376, R377). -/
  r : Int
  v : Int
  a : Int
  y : Int
  pes : Int
  target : Int
  /-- The retarget that set the effective target, and the latest one received (R376, R383). -/
  base : Retarget
  latest : Retarget
  /-- A retarget or read offset waits for the next strobe. -/
  fresh : Bool
  roffset : Int
  /-- Head of the last wedge, and a rebase waits for its first good wedge (R380). -/
  head : Nat
  rebase : Bool
  /-- In UNLOADING, the ramp-side seek has ended and the drive runs (R385). -/
  driving : Bool
  vcm : Int
  ma : Int
  yma : Int
  xf : Int
  /-- States s1 and s2 of the sixteen biquads (R367). -/
  biquads : List (Int × Int)
  /-- Published VCM commands, newest first (R374). -/
  hist : List Int
  wedge : Option Nat
  cycles : Nat
  amp : Nat
  /-- SETTLED and RAMP_DONE hold (EV 28, EV 29). -/
  settled : Bool
  rampDone : Bool
  trace : TraceSt
  wrapped : Bool
  wptr : Nat
  trigIdx : Nat
  post : Nat
  records : Sparse (Word × Word × Word × Word)
  deriving DecidableEq, Repr

/-- One MEDx function and its media. -/
structure Med where
  wr : Wr
  rc : Rc
  sr : Sr
  sv : Sv
  /-- The medium: codeword bytes written at (head, track, sector), keyed head × 2^40 + track × 2^16 + sector. -/
  disk : Sparse (List Byte)
  deriving DecidableEq, Repr

/-- The zone keeper after reset: nothing open (R266). -/
def Zone.reset : Zone :=
  { scan := false, ctxA := List.replicate 16 none, ctxB := List.replicate 16 none, writes := [], absent := [],
    locked := [] }

/-- The write path after reset: link down until ID is read (R286, Table "MEDx_WR_CTRL and MEDx_WR_STATUS fields"). -/
def Wr.reset : Wr :=
  { pId := 0, pMode := 0, pWi := 0, pOs := 0, pAssist := 0, pHeater := 0, sent := [],
    entry := ⟨0, 0, 0, 0⟩, entryOf := none, begun := false, sdo := [], wd := [], inField := false, gate := false, aen := false, linkUp := false,
    fltSubst := false, head := 0, wstat := 0, fifo := [], lastData := [], loaded := none, armed := none, armedBy := 0, wdone := false,
    run := false, runHead := 0, runBand := 0, heatW := false, preheat := 0, unsafeRevs := 0, boundary := none, dac := 0,
    exc := 0, limit := 0, limitRaised := false, tdBase := none, tdStreak := 0, touched := false, sweep := none }

/-- The read channel after reset. -/
def Rc.reset : Rc :=
  { head := 0, loaded := none, armed := none, armedBy := 0, seq := 0, decoding := [], rdone := false, rstat := 0, rerased := 0,
    run := false, band := none, entry := ⟨0, 0, 0, 0⟩, eq := [], np := [], written := [], gain := 0, freq := 0, theta := 0, locked := false, synced := false, out := [],
    statG := [], statH := [], statOf := none, eqLimit := false, degraded1 := false, degraded2 := false,
    shadow := [0, 0, 0, 0] }

/-- An empty sample slot. -/
def Sample.reset : Sample :=
  { valid := false, pba := 0, head := 0, band := 0, tgt := 0, outcome := 0, sw := 0, sync := 0, ranges := [],
    x1 := [], x2 := [] }

/-- Sector recovery after reset. -/
def Sr.reset : Sr :=
  { slot0 := .reset, slot1 := .reset, older := 0, lastSlot := 0, lastKept := false, sync := 0, offline := [],
    ostat := none, odone := false, rebuild := none, ocdone := false }

/-- The servo engine after reset: OFF (R364, R391) with write-unsafe asserted, as it is once the engine has left reset (R364, R393; DEDUCED, log entry 22), locked-phase timing. -/
def Sv.reset : Sv :=
  { st := .off, clamped := false, wus := true, bank := 0, timing := true, xfEn := false, following := false, cause := 0,
    miss := 0, fe := 0, goodRun := 0, settleRun := 0, wusRun := 0, r := 0, v := 0, a := 0, y := 0, pes := 0, target := 0,
    base := ⟨0, false, false⟩, latest := ⟨0, false, false⟩, fresh := false, roffset := 0, head := 0, rebase := false,
    driving := false, vcm := 0, ma := 0, yma := 0, xf := 0, biquads := List.replicate 16 (0, 0),
    hist := List.replicate 16 0, wedge := none, cycles := 0, amp := 0, settled := false, rampDone := false,
    trace := .idle, wrapped := false, wptr := 0, trigIdx := 0, post := 0, records := [] }

/-- One MEDx after power-on, with a blank medium (DESIGN CHOICE, log entry 12). -/
def Med.reset : Med := { wr := .reset, rc := .reset, sr := .reset, sv := .reset, disk := [] }

end Sys2Proof.Machine
end

