-- ==== Sys2Proof/Machine/Detect.lean ====
section
/-!
DEFINITION. Machine/Detect.lean: the equaliser, the tentative decisions and timing errors, the max-log-MAP detector, and the
min-sum decoder of the read channel (R311, R318, R322 to R327, R329), on plain values. Equaliser outputs and errors are in
eighths of an ADC LSB, whitened errors in 1/1024 LSB, path metrics in 2^−20 LSB²; arithmetic is exact but where the spec
bounds it, and divisions truncate toward zero (DESIGN CHOICE, log entry 54).
-/

namespace Sys2Proof.Machine

open Sys2Proof

/-- Codes of an ADC stream as captured: one signed 7-bit sample for each of bits −24 to 37,087, 0 where the observation ends. -/
def adcCodes (x : List Int) : List Int := (x.take 37112 ++ List.replicate (37112 - x.length) 0).map (clampI (-64) 63)

/-- A stream from bit −16 on, delayed by `d` / 64 bit (R311): an integer delay line, then the interpolation between
neighbours, whose value the spec leaves open. -/
def delayed (d : Nat) (x : List Int) : List Int :=
  let near := x.drop (8 - d / 64)
  let far := x.drop (7 - d / 64)
  let out := if d % 64 = 0 then near else List.zipWith (fun a b => clampI (-128) 127 (Config.interpolate (d % 64) a b)) near far
  out.take 37104

/-- Inner product of two lists. -/
def dotI (a b : List Int) : Int := (List.zipWith (· * ·) a b).foldl (· + ·) 0

/-- `n` successive outputs of a filter over a stream. -/
def filtered (c : List Int) : Nat → List Int → List Int
  | 0, _ => []
  | n + 1, x => dotI c x :: filtered c n x.tail

/-- Reader `m` (0 or 1) is enabled. -/
def DetCfg.on (c : DetCfg) (m : Nat) : Bool := nbit c.readers m

/-- Coefficients of the path from reader `m` to output `n`, in the order of a window of ascending bits (R322). -/
def DetCfg.path (c : DetCfg) (n m : Nat) : List Int :=
  if c.on m then ((c.eq.drop ((2 * n + m) * 16)).take 16).reverse else List.replicate 16 0

/-- Output `n` of the equaliser for `len` bits from bit `b` on; `x1` and `x2` begin at bit −16. -/
def equalise (c : DetCfg) (n b len : Nat) (x1 x2 : List Int) : List Int :=
  let from_ (x : List Int) : List Int := x.drop (b + c.eqMain + 1)
  List.zipWith (fun p q => clampI (-2047) 2047 (Int.tdiv (p + q) 16))
    (filtered (c.path n 0) len (from_ x1)) (filtered (c.path n 1) len (from_ x2))

/-- +1 for a bit 1, −1 for a bit 0 (R323). -/
def sgnBit (b : Bool) : Int := if b then 1 else -1

/-- Target-filtered value of a bit and the four before it, newest first (R323). -/
def idealOf (g : List Int) (as : List Bool) : Int := 8 * dotI g (as.map sgnBit)

/-- Values `ideal` of a sequence, its four predecessors given oldest first. -/
def ideals (g : List Int) : List Bool → List Bool → List Int
  | _, [] => []
  | before, b :: t =>
    let w := (before.drop (before.length - 4)) ++ [b]
    idealOf g w.reverse :: ideals g (w.drop 1) t

/-- One bit's input to the trellis: the outputs' weights and values, and the a-priori LLR. -/
structure DetIn where
  w1 : Nat
  w2 : Nat
  y1 : Int
  y2 : Int
  la : Int

/-- The survivor of a state: its metric, the last three errors of both outputs and its last bits, newest first. -/
structure Surv where
  m : Int
  e1 : List Int
  e2 : List Int
  past : List Bool

/-- Bits a(k − 1) to a(k − 4) of state `s`. -/
def stateBits (s : Nat) : List Bool := (List.range 4).map fun i => Nat.testBit s i

/-- Taps of output `n` for the pattern of a bit `a` after state `s` (R324). -/
def DetCfg.taps (c : DetCfg) (n s : Nat) (a : Bool) : List Int :=
  let p := b2n (Nat.testBit s 1) * 4 + b2n (Nat.testBit s 0) * 2 + b2n a
  (c.np.drop (n * 24 + p * 3)).take 3

/-- The branch of bit `a` out of state `s`: its metric and its errors (R324). -/
def branch (c : DetCfg) (i : DetIn) (s : Nat) (v : Surv) (a : Bool) : Int × Int × Int :=
  let as := a :: stateBits s
  let e1 := i.y1 - idealOf c.g1 as
  let e2 := i.y2 - idealOf c.g2 as
  let w1 := 128 * e1 - dotI (c.taps 0 s a) v.e1
  let w2 := 128 * e2 - dotI (c.taps 1 s a) v.e2
  (i.w1 * w1 ^ 2 + i.w2 * w2 ^ 2 - sgnBit a * i.la * 2 ^ (c.scale + 19), e1, e2)

/-- Branches of a bit, two of each state: for bit 0, then for bit 1. -/
def branches (c : DetCfg) (i : DetIn) (vs : List Surv) : List (Surv × (Int × Int × Int)) :=
  (vs.zipIdx).flatMap fun (v, s) => [(v, branch c i s v false), (v, branch c i s v true)]

/-- Survivors after a bit: of the two branches into a state the one of least metric, the lower state's on a tie. -/
def survivors (bs : List (Surv × (Int × Int × Int))) : List Surv :=
  (List.range 16).map fun t =>
    let pick (s : Nat) : Surv :=
      match bs[2 * s + t % 2]? with
      | some (v, (bm, e1, e2)) => ⟨v.m + bm, (e1 :: v.e1).take 3, (e2 :: v.e2).take 3, (decide (t % 2 = 1) :: v.past).take 13⟩
      | none => ⟨0, [], [], []⟩
    let p := pick (t / 2)
    let q := pick (t / 2 + 8)
    if q.m < p.m then q else p

/-- A metric that no path reaches. -/
def farMetric : Int := 2 ^ 80

/-- Survivors where the bits before are known: oldest first the last seven of them, and the last three outputs, newest first. -/
def startFrom (c : DetCfg) (known : List Bool) (y1 y2 : List Int) : List Surv :=
  let err (g ys : List Int) : List Int := (List.range 3).map fun i =>
    ys.getD i 0 - idealOf g (known.reverse.drop i)
  let s0 : Nat := ((known.reverse.take 4).zipIdx).foldl (fun n (b, i) => n + b2n b * 2 ^ i) 0
  (List.range 16).map fun s => ⟨if s = s0 then 0 else farMetric, err c.g1 y1, err c.g2 y2, []⟩

/-- Tentative decisions: the early trace-back of the best survivor at a depth of 12 bits (R318). -/
def traceBack (c : DetCfg) : List DetIn → List Surv → List Bool
  | [], _ => []
  | i :: is, vs =>
    let vs := survivors (branches c i vs)
    let best := vs.foldl (fun (b : Surv) v => if v.m < b.m then v else b) (vs.headD ⟨0, [], [], []⟩)
    if best.past.length = 13 then best.past.getD 12 false :: traceBack c is vs else traceBack c is vs

/-- Bit `i` of the 2T pattern 1100. -/
def twoT (i : Nat) : Bool := i % 4 < 2

/-- Tentative decisions of bits 48 to `n` (R318, R339). -/
def tentative (c : DetCfg) (n : Nat) (x1 x2 : List Int) : List Bool :=
  let y1 := equalise c 0 45 (n - 32) x1 x2
  let y2 := equalise c 1 45 (n - 32) x1 x2
  let ins := List.zipWith (fun p q => (⟨c.w1, c.w2, p, q, 0⟩ : DetIn)) (y1.drop 3) (y2.drop 3)
  traceBack c ins (startFrom c ((List.range 7).map fun i => twoT (41 + i)) (y1.take 3).reverse (y2.take 3).reverse)

/-- Timing errors of bits 48 on: the Mueller-Müller error of both outputs against the target-filtered bits, `unit` of which
make 1/64 bit (R318). `bits` are those of bits 48 on that the loop goes by. -/
def timingErrors (c : DetCfg) (unit : Nat) (bits : List Bool) (x1 x2 : List Int) : List Int :=
  let part (n w : Nat) (g : List Int) : List Int :=
    let y := equalise c n 47 (bits.length + 1) x1 x2
    let d := ideals g ((List.range 4).map fun i => twoT (43 + i)) (twoT 47 :: bits)
    List.zipWith (fun (p : Int × Int) (q : Int × Int) => (w : Int) * (q.1 * p.2 - p.1 * q.2)) (y.zip d) (y.zip d).tail
  (List.zipWith (· + ·) (part 0 c.w1 c.g1) (part 1 c.w2 c.g2)).map fun e => Int.tdiv e (orOne unit : Nat)

/-- Known preamble bits 48 to 127. -/
def preambleBits : List Bool := (List.range 80).map fun i => twoT (48 + i)

/-- Weight of output `n` at codeword bit `t` (R329): 0 over a range that this output's reader alone carries. -/
def weightAt (rs : List Range) (n w t : Nat) : Nat :=
  if rs.any fun r => r.lost = n && r.first ≤ t && t ≤ r.last then 0 else w

/-- Codeword bit `t` is erased (R329). -/
def erasedAt (rs : List Range) (t : Nat) : Bool := rs.any fun r => r.lost = 0 && r.first ≤ t && t ≤ r.last

/-- Metrics of every bit: the states' before it, and its 32 branches (R324). -/
def metrics (c : DetCfg) : List DetIn → List Surv → List (List Int × List Int)
  | [], _ => []
  | i :: is, vs =>
    let bs := branches c i vs
    (vs.map Surv.m, bs.map fun b => b.2.1) :: metrics c is (survivors bs)

/-- Least of a list of metrics. -/
def leastM (l : List Int) : Int := l.foldl min (l.headD 0)

/-- Differences M(−1) − M(+1) of the bits of a window, the metrics behind it taken as equal (R324). -/
def windowDiffs (w : List (List Int × List Int)) : List Int :=
  (w.foldr (fun (m : List Int × List Int) (acc : List Int × List Int) =>
    let ends := (List.range 32).map fun k => m.2.getD k 0 + acc.1.getD (k % 16) 0
    let all := (List.range 32).map fun k => ends.getD k 0 + m.1.getD (k / 2) 0
    let side (b : Nat) : Int := leastM ((List.range 16).map fun s => all.getD (2 * s + b) 0)
    ((List.range 16).map fun s => min (ends.getD (2 * s) 0) (ends.getD (2 * s + 1) 0), (side 0 - side 1) :: acc.2))
    (List.replicate 16 0, [])).2

/-- Differences of all bits: windows of 64 bits, 32 of them overlap, each giving its first 32 (R324). -/
def allDiffs : Nat → List (List Int × List Int) → List Int
  | 0, _ => []
  | n + 1, ms => (windowDiffs (ms.take 64)).take 32 ++ allDiffs n (ms.drop 32)

/-- One detector pass over the codeword that begins at bit `cw` (R324, R329): L − La of its 36,864 bits, saturated to ±31, and
0 where erased. `y1` and `y2` begin at bit cw − 3. -/
def detectPass (c : DetCfg) (y1 y2 : List Int) (rs : List Range) (la : List Int) : List Int :=
  let la' := la ++ List.replicate 32 0
  let ins := (List.zipWith (fun (p : Int × Int) (l : Int) => (p, l)) ((y1.drop 3).zip (y2.drop 3)) la').mapIdx fun t (p, l) =>
    (⟨weightAt rs 1 c.w1 t, weightAt rs 2 c.w2 t, p.1, p.2, l⟩ : DetIn)
  let v0 := startFrom c (syncMark.drop 41) (y1.take 3).reverse (y2.take 3).reverse
  (List.zipWith (fun d l => clampI (-31) 31 (Int.tdiv d (2 ^ (c.scale + 20)) - l)) (allDiffs 1152 (metrics c ins v0)) la).mapIdx
    fun t v => if erasedAt rs t then 0 else v

/-- Block columns of block row `r` with their shifts (R325). -/
def rowBlocks (r : Nat) : List (Nat × Nat) :=
  ((List.range 65).filter (ldpcUsed r)).map (fun c => (c, ldpcShift r c))
    ++ (if r < 6 then [(65 + r, 0)] else []) ++ (if 0 < r then [(64 + r, 0)] else []) ++ (if r = 6 then [(71, 0)] else [])

/-- Checks of block row `r` that hard decisions leave unsatisfied (R327). -/
def rowWeight (cols : List (List Bool)) (r : Nat) : Nat :=
  (((rowBlocks r).foldl (fun acc (c, s) => xorBits acc ((cols.getD c []).rotateLeft s)) (List.replicate 512 false)).filter id).length

/-- Syndrome weight of hard decisions, 0 to 3,584 (R327). -/
def syndWeight (cols : List (List Bool)) : Nat := ((List.range 7).map (rowWeight cols)).foldl (· + ·) 0

/-- Check-to-bit messages of one check for its bit-to-check ones, negative standing for a bit 1 (R326): `norm` eighths of the
least other magnitude, rounded toward zero, with the product of the other signs. -/
def checkNode (norm : Nat) (qs : List Int) : List Int :=
  let neg := (qs.filter fun q => q < 0).length % 2 = 1
  qs.mapIdx fun i q =>
    let m := ((qs.eraseIdx i).map Int.natAbs).foldl min ((qs.eraseIdx i).map Int.natAbs |>.headD 0) * norm / 8
    if neg != decide (q < 0) then -(m : Int) else m

/-- Rows of `n` columns. -/
def rowsOf : Nat → List (List Int) → List (List Int)
  | 0, _ => []
  | n + 1, cs => cs.map (fun c => c.headD 0) :: rowsOf n (cs.map List.tail)

/-- Decoder values: the sums of all columns, and each block row's check-to-bit messages, by block (R326). -/
structure DecSt where
  p : List (List Int)
  r : List (List (List Int))

/-- The layer of block row `k` (R326). -/
def layer (norm : Nat) (d : DecSt) (k : Nat) : DecSt :=
  let bl := rowBlocks k
  let q := List.zipWith (fun (b : Nat × Nat) r => List.zipWith (· - ·) ((d.p.getD b.1 []).rotateLeft b.2) r) bl (d.r.getD k [])
  let r' := rowsOf bl.length ((rowsOf 512 (q.map fun c => c.map (clampI (-31) 31))).map (checkNode norm))
  let p := (bl.zip (List.zipWith (fun a b => List.zipWith (· + ·) a b) q r')).foldl (fun p (b, v) => p.set b.1 (v.rotateRight b.2)) d.p
  ⟨p, d.r.set k r'⟩

/-- Hard decisions: a negative sum is a bit 1, and `tie` what a sum of 0 is taken as. -/
def hardBits (tie : Bool) (p : List (List Int)) : List (List Bool) := p.map fun c => c.map fun v => v < 0 || (v = 0 && tie)

/-- Local iterations, each followed by the syndrome check (R326): the values, and whether the syndrome is zero. -/
def localIters (norm : Nat) (tie : Bool) : Nat → DecSt → Bool × DecSt
  | 0, d => (false, d)
  | n + 1, d =>
    let d := (List.range 7).foldl (layer norm) d
    if syndWeight (hardBits tie d.p) = 0 then (true, d) else localIters norm tie n d

/-- How a decoding ends: zero syndrome reached, the global iterations run, the first-iteration weight, the hard decisions. -/
structure DecRes where
  ok : Bool
  globals : Nat
  sw : Nat
  bits : List Bool

/-- Global iterations from number `g` on (R326): a detector pass with what the decoder returned, then local iterations. A first
pass whose hard decisions already satisfy every check has ended: a local iteration would change none of them. -/
def globalIters (c : DetCfg) (y1 y2 : List Int) (rs : List Range) (tie : Bool) : Nat → Nat → Nat → List (List (List Int)) →
    List Int → DecRes
  | 0, g, sw, _, _ => ⟨false, g, sw, []⟩
  | n + 1, g, sw, r, la =>
    let ch := (detectPass c y1 y2 rs la).map fun l => -l
    let p := List.zipWith (· - ·) ch la
    let hard := hardBits tie (chunks 512 72 p)
    let sw := if g = 0 then syndWeight hard else sw
    if g = 0 && sw = 0 then ⟨true, 1, 0, hard.flatten⟩
    else
      match localIters c.norm tie c.locals ⟨chunks 512 72 p, r⟩ with
      | (true, d) => ⟨true, g + 1, sw, (hardBits tie d.p).flatten⟩
      | (false, d) =>
        globalIters c y1 y2 rs tie n (g + 1) sw d.r (List.zipWith (fun a b => clampI (-31) 31 (b - a)) d.p.flatten ch)

/-- A codeword's detection and decoding (R324 to R327). -/
def decodeSector (c : DetCfg) (cw : Nat) (x1 x2 : List Int) (rs : List Range) (tie : Bool) : DecRes :=
  globalIters c (equalise c 0 (cw - 3) 36899 x1 x2) (equalise c 1 (cw - 3) 36899 x1 x2) rs tie c.globals 0 0
    ((List.range 7).map fun k => (rowBlocks k).map fun _ => List.replicate 512 0) (List.replicate 36864 0)

/-- A probe: the first-iteration weight of one detector pass (R347). -/
def probeWeight (c : DetCfg) (cw : Nat) (x1 x2 : List Int) (rs : List Range) (tie : Bool) : Nat :=
  syndWeight (hardBits tie (chunks 512 72 ((detectPass c (equalise c 0 (cw - 3) 36899 x1 x2) (equalise c 1 (cw - 3) 36899 x1 x2)
    rs (List.replicate 36864 0)).map fun l => -l)))

/-- The 4,160 bytes of a codeword's data bits (R325). -/
def dataBytes (bits : List Bool) : List Byte := bytesOf (bits.take 33280)

end Sys2Proof.Machine
end

