-- ==== Sys2Proof/Machine/ReadSignal.lean ====
section
/-!
DEFINITION. Machine/ReadSignal.lean: the read channel's arithmetic on one sector's samples (R313, R317 to R321, R329 to
R331, R339, R340), on plain values. Bits count from the first preamble bit; index `i` of a sample list is bit i − 16.
-/

namespace Sys2Proof.Machine

open Sys2Proof

/-- Sum of magnitudes. -/
def sumAbs (l : List Int) : Nat := l.foldl (fun a i => a + i.natAbs) 0

/-- Samples of bits `b … b + n - 1`. -/
def bitsAt (x : List Int) (b n : Nat) : List Int := (x.drop (b + 16)).take n

/-- One gain step with its clamp to 0 to 255, and whether the clamp acted (R313). -/
def gainStep (g : Nat) (d : Int) : Nat × Bool :=
  let v := (g : Int) + d
  ((clampI 0 255 v).toNat, v < 0 || 255 < v)

/-- A bit lies in a hold. -/
def inHold (h : List (Nat × Nat)) (k : Nat) : Bool := h.any fun (a, b) => a ≤ k && k ≤ b

/-- The acquisition gain over the eight preamble blocks (R313): `xs` the enabled readers' samples. A block with a bit in a hold
takes no step (R330). -/
def gainAcquire (agcTgt gAcq : Nat) (h : List (Nat × Nat)) (xs : List (List Int)) (g : Nat) : Nat × Bool :=
  (List.range 8).foldl (fun (acc : Nat × Bool) j =>
    if (List.range 4).any fun i => inHold h (4 * j + i) then acc else
    let n : Int := 4 * xs.length
    let a : Int := ((xs.map fun x => sumAbs (bitsAt x (4 * j) 4)).foldl (· + ·) 0 : Nat)
    let d := clampI (-8) 8 (Int.tdiv ((agcTgt * n - a) * gAcq) (8 * n))
    let (g, lim) := gainStep acc.1 d
    (g, acc.2 || lim)) (g, false)

/-- tan((k + 1/2) π / 128) × 10^15 for k = 0 to 63: the boundaries of the zero-phase step (R317). -/
def zpsBounds : List Nat :=
  [12272462379566, 36832180994845, 61436352581593, 86114851197627, 110897911595913, 135816278709387, 160901362453489, 186185399527583] ++
  [211701624023983, 237484448816070, 263569659899917, 289994626112606, 316798526952603, 344022601592426, 371710422612743, 399908198514537] ++
  [428665109699499, 458033683370672, 488070213722862, 518835234899975, 550394055537264, 582817365334976, 616181926094866, 650571362080153] ++
  [686077067544862, 722799252964205, 760848156070251, 800345449499320, 841425884007254, 884239215225349, 928952473370367, 975752649932376] ++
  [1024849894150227, 1076481336415266, 1130915687498827, 1188458804282966, 1249460468133578, 1314322696351079, 1383510007652873, 1457562200087105] ++
  [1537110389861881, 1622897325693454, 1715803370795664, 1816880087892402, 1927394156630064, 2048885533030750, 2183245547884152, 2332823403101350] ++
  [2500573890994256, 2690266237279612, 2906785761665535, 3156580333940788, 3448339762033024, 3794063400088301, 4210802033502800, 4723629327882300] ++
  [5370990435003728, 6214987771089037, 7362887641324244, 9017302360424734, 11612398861435246, 16277007959935408, 27150170665699697, 81483240206546169]

/-- The zero-phase step −128 × atan2(−Q, I) / π, rounded (R317), from −128 to 128. -/
def zpsSteps (i q : Int) : Int :=
  let n : Int := (zpsBounds.filter fun t => t * i.natAbs < q.natAbs * 10 ^ 15).length
  let n := if i < 0 then 128 - n else n
  if q < 0 || (q = 0 && i < 0) then -n else n

/-- I and Q over bits 32 to 47 (R317): readers with their weights. -/
def zpsSums (xs : List (List Int × Nat)) : Int × Int :=
  let dot (c : List Int) : Int :=
    xs.foldl (fun acc (x, w) => acc + w * (List.zipWith (· * ·) (bitsAt x 32 16) c).foldl (· + ·) 0) 0
  (dot ((List.replicate 4 [1, 1, -1, -1]).flatten), dot ((List.replicate 4 [-1, 1, 1, -1]).flatten))

/-- Timing errors of bits `a … b`; τ is 0 before bit 48. -/
def tausAt (taus : List Int) (a b : Nat) : List Int := (taus.drop (a - 48)).take (b + 1 - max 48 a)

/-- The bit at which lock is declared (R317). -/
def lockBit (thr : Nat) (taus : List Int) : Option Nat :=
  ((List.range 33).map fun i => 64 + i).find? fun k => sumAbs (tausAt taus (k - 31) k) ≤ thr * 32

/-- D(e) of the tentative decisions, `dec` holding bits 121 to 182 (R339). -/
def syncDist (dec : List Bool) (e : Int) : Nat :=
  let w := dec.drop (7 + e).toNat
  ((List.range 48).filter fun i => w.getD i false ≠ syncMark.getD i false).length

/-- The offsets −7 to +7. -/
def offsets15 : List Int := (List.range 15).map fun (i : Nat) => (i : Int) - 7

/-- Of offsets with a value each, the one of least value; ties to the smaller magnitude, then the negative (R340). -/
def bestOffset (l : List (Int × Nat)) : Option (Int × Nat) :=
  l.foldl (fun best (e, v) =>
    match best with
    | none => some (e, v)
    | some (e', v') =>
      if v < v' || (v = v' && (e.natAbs < e'.natAbs || (e.natAbs = e'.natAbs && e < e'))) then some (e, v) else best) none

/-- The accepted offset: the lowest in the window that qualifies (R339). -/
def acceptSync (win thr : Nat) (dec : List Bool) : Option (Int × Nat) :=
  ((offsets15.filter fun e => e.natAbs ≤ win).map fun e => (e, syncDist dec e)).find? fun p => p.2 ≤ thr

/-- SYNC word (Table "SYNC word"). -/
def syncWord (acc : Option (Int × Nat)) (dec : List Bool) : Word :=
  let (e, d) := acc.getD (0, 0)
  let (b, m) := (bestOffset (offsets15.map fun e => (e, syncDist dec e))).getD (0, 0)
  BitVec.ofNat 32 (b2n acc.isSome + unsigned 4 e * 2 ^ 4 + d * 2 ^ 8 + unsigned 4 b * 2 ^ 16 + m * 2 ^ 24)

/-- Sums of the last `n` entries, at every index; entries before the list count 0. -/
def slideSum (n : Nat) (l : List Int) : List Int :=
  let rec pre : Int → List Int → List Int
    | _, [] => []
    | a, i :: t => (a + i) :: pre (a + i) t
  let p := pre 0 l
  List.zipWith (· - ·) p (List.replicate n 0 ++ p)

/-- Entries at which a condition has held for `n` entries in a row. -/
def heldFor (n : Nat) (l : List Bool) : List Bool :=
  let rec go : Nat → List Bool → List Bool
    | _, [] => []
    | c, b :: t => let c' := if b then c + 1 else 0; (decide (n ≤ c')) :: go c' t
  go 0 l

/-- What the defect detector compares with (R329). -/
structure DefCfg where
  taThr : Nat
  taLen : Nat
  dropPct : Nat
  dropLen : Nat
  agcTgt : Nat
  pre : Nat
  post : Nat
  freezeMax : Nat
  deriving DecidableEq, Repr

/-- Flags of one reader, per sample (R329). -/
def defectFlags (c : DefCfg) (x : List Int) : List Bool :=
  let ta := heldFor c.taLen ((slideSum 32 x).map fun v => decide (c.taThr * 32 < v.natAbs))
  let full := (slideSum 32 (x.map fun (i : Int) => (i.natAbs : Int))).mapIdx fun (i : Nat) (v : Int) =>
    decide (31 ≤ i) && decide (v * 16 < c.agcTgt * c.dropPct * 32)
  List.zipWith (· || ·) ta (heldFor c.dropLen full)

/-- Maximal runs of true entries: first and last index. -/
def stretches (l : List Bool) : List (Nat × Nat) :=
  let rec go : Nat → Option Nat → List Bool → List (Nat × Nat)
    | i, some a, [] => [(a, i - 1)]
    | _, none, [] => []
    | i, some a, true :: t => go (i + 1) (some a) t
    | i, some a, false :: t => (a, i - 1) :: go (i + 1) none t
    | i, none, true :: t => go (i + 1) (some i) t
    | i, none, false :: t => go (i + 1) none t
  go 0 none l

/-- Insert a range, with its mask of readers, by its first bit. -/
def insRange (r : Nat × Nat × Nat) : List (Nat × Nat × Nat) → List (Nat × Nat × Nat)
  | [] => [r]
  | q :: t => if r.1 < q.1 then r :: q :: t else q :: insRange r t

/-- Merge ranges that overlap or touch, given by ascending first bit (R329). -/
def mergeRanges (l : List (Nat × Nat × Nat)) : List (Nat × Nat × Nat) :=
  (l.foldl (fun acc (a, b, m) =>
    match acc with
    | (a', b', m') :: t => if a ≤ b' + 1 then (a', max b b', m ||| m') :: t else (a, b, m) :: acc
    | [] => [(a, b, m)]) []).reverse

/-- At most eight ranges: the last one is extended to the end of the codeword (R330). -/
def capRanges (l : List (Nat × Nat × Nat)) : List (Nat × Nat × Nat) :=
  if l.length ≤ 8 then l
  else
    let m := (l.drop 7).foldl (fun a r => a ||| r.2.2) 0
    l.take 7 ++ [(((l.drop 7).headD (0, 0, 0)).1, 36863, m)]

/-- Flags of a reader that fall into the codeword beginning at bit `cw`, as codeword stretches. -/
def codewordStretches (cw : Nat) (flags : List Bool) : List (Nat × Nat) :=
  stretches (((flags.drop (cw + 16)).take 36864))

/-- Defect ranges of a sector (R329): `flags` of the enabled readers with their masks, 1 and 2. -/
def defectRanges (c : DefCfg) (cw : Nat) (oneReader : Bool) (flags : List (List Bool × Nat)) : List Range :=
  let all := flags.flatMap fun (f, m) =>
    (codewordStretches cw f).map fun (a, b) => (a - c.pre, min 36863 (b + c.post), m)
  (capRanges (mergeRanges (all.foldl (fun l r => insRange r l) []))).map fun (a, b, m) =>
    ⟨a, b, if oneReader && flags.length = 2 && m ≠ 3 then m else 0⟩

/-- Bits of the sector over which the loops hold: the widened stretches of any enabled reader, each cut to FREEZE_MAX,
and none that begins within 32 bits of the last (R330). -/
def holdRanges (c : DefCfg) (flags : List (List Bool)) : List (Nat × Nat) :=
  let all := flags.flatMap fun f => (stretches (f.drop 16)).map fun (a, b) => (a - c.pre, b + c.post, 0)
  let m := mergeRanges (all.foldl (fun l r => insRange r l) [])
  (m.foldl (fun (acc : List (Nat × Nat) × Option Nat) (a, b, _) =>
    let near := match acc.2 with
      | some z => decide (a < z + 33)
      | none => false
    (if near then acc.1 else acc.1 ++ [(a, min b (a + c.freezeMax - 1))], some b)) ([], none)).1

/-- Gains of the phase loop (R318, R319). -/
structure LoopCfg where
  kpAcq : Nat
  kiAcq : Nat
  kpTrk : Nat
  kiTrk : Nat
  fMax : Int
  /-- First bit after the accepted mark; none where no mark is accepted. -/
  cw : Option Nat
  deriving DecidableEq, Repr

/-- The phase loop over the timing errors of bits `k` on (R318 to R320). -/
def phaseLoop (c : LoopCfg) (h : List (Nat × Nat)) : Nat → List Int → Int × Int → Int × Int
  | _, [], st => st
  | k, t :: ts, (theta, f) =>
    let trk := match c.cw with
      | some b => decide (b ≤ k)
      | none => false
    let kp := if trk then c.kpTrk else c.kpAcq
    let ki := if trk then c.kiTrk else c.kiAcq
    if inHold h k then phaseLoop c h (k + 1) ts (theta, f)
    else
      let v := t * 2 ^ 14
      phaseLoop c h (k + 1) ts (theta + f + v / 2 ^ kp, clampI (-c.fMax) c.fMax (f + v / 2 ^ ki))

/-- The mean of |τ| over some 64 bits of the data field exceeds the slip threshold (R321); the pad is ignored (R338). -/
def slipSeen (thr cw : Nat) (taus : List Int) : Bool :=
  ((slideSum 64 (((taus.drop (cw - 48)).take 36864).map fun t => (t.natAbs : Int))).drop 63).any fun v => decide (thr * 64 < v)

/-- The data gain loop (R313): every 256 bits of the codeword outside holds; the pad is ignored (R338). -/
def dataGain (target dead : Nat) (xs : List (List Int)) (h : List (Nat × Nat)) (cw : Nat) (g : Nat) : Nat × Bool :=
  let per : List Nat := (List.range 36864).filterMap fun i =>
    if inHold h (cw + i) then none else some (cw + i)
  let arr := xs.map fun x => x.toArray
  let blocks := chunks 256 (per.length / 256) per
  blocks.foldl (fun (acc : Nat × Bool) b =>
    let a : Int := (arr.map fun x => b.foldl (fun s k => s + ((x.getD (k + 16) 0).natAbs : Int)) 0).foldl (· + ·) 0
    let n : Int := 256 * xs.length
    let d : Int := if a < ((target : Int) - dead) * n then 1 else if ((target : Int) + dead) * n < a then -1 else 0
    let (g, lim) := gainStep acc.1 d
    (g, acc.2 || lim)) (g, false)

/-- G and H of one decoded sector (R331), errors in eighths of an ADC LSB (DEDUCED, log entry 23): `bits` the codeword that
begins at bit `cw`. -/
def sectorStats (c : DetCfg) (x1 x2 : List Int) (bits : List Bool) (cw : Nat) (ranges : List Range) : List Int × List Int :=
  let known := syncMark.drop 38
  let err (n : Nat) (g : List Int) : List Int :=
    List.zipWith (· - ·) (equalise c n (cw - 3) 36867 x1 x2) (ideals g (known.take 7) (known.drop 7 ++ bits))
  let x (m : Nat) : List Int := (if m = 0 then x1 else x2).drop (cw + c.eqMain + 1)
  let free := (List.range 36864).map fun k => !(ranges.any fun r => r.first ≤ k && k ≤ r.last)
  let lim (i : Int) : Int := clampI (-(2 ^ 23)) (2 ^ 23) i
  let sumOver (on : List Bool) (a b : List Int) : Int :=
    lim ((List.zipWith (fun (f : Bool) (v : Int) => if f then v else 0) on (List.zipWith (· * ·) a b)).foldl (· + ·) 0)
  let e (n : Nat) : List Int := err n (if n = 0 then c.g1 else c.g2)
  let pats := List.zipWith (fun (p : Bool × Bool) (a : Bool) => b2n p.1 * 4 + b2n p.2 * 2 + b2n a)
    ((known.drop 8 ++ bits).zip (known.drop 9 ++ bits)) bits
  let prev (n i : Nat) : List Int := (e n).drop (2 - i)
  let tap (n p i : Nat) : Int := c.np.getD (n * 24 + p * 3 + i) 0
  let whitened (n : Nat) : List Int :=
    List.zipWith (fun (v : Int × Nat) (q : Int × Int × Int) =>
      v.1 - Int.tdiv (tap n v.2 0 * q.1 + tap n v.2 1 * q.2.1 + tap n v.2 2 * q.2.2) 128)
      (((e n).drop 3).zip pats) ((prev n 0).zip ((prev n 1).zip (prev n 2)))
  ((List.range 64).map fun i => sumOver free ((e (i / 32)).drop 3) ((x (i / 16 % 2)).drop (15 - i % 16)),
   (List.range 48).map fun i =>
     sumOver (List.zipWith (fun f p => f && decide (p = i / 3 % 8)) free pats) (whitened (i / 24)) (prev (i / 24) (i % 3)))

end Sys2Proof.Machine
end

