-- ==== Sys2Proof/Machine/Gf.lean ====
section
/-!
DEFINITION. Machine/Gf.lean: the Galois fields of the spec: GF(2^8) with polynomial 0x11D (R249, R459), GF(2^16) with
x^16 + x^12 + x^3 + x + 1 (spec/09), and the decoder of the 80/64 code (R459, R460).
-/

namespace Sys2Proof

/-- Carry-less product of `a` and the low `n` bits of `b`. -/
def clmul : Nat → Nat → Nat → Nat
  | 0, _, _ => 0
  | n + 1, a, b => clmul n a b ^^^ (if b.testBit n then a <<< n else 0)

/-- Remainder of a polynomial whose degree is below `d + n`, modulo one of degree `d`. -/
def polyMod (d poly : Nat) : Nat → Nat → Nat
  | 0, a => a
  | n + 1, a => polyMod d poly n (if a.testBit (d + n) then a ^^^ (poly <<< n) else a)

/-- Product in GF(2^8), polynomial 0x11D. -/
def gf8Mul (a b : Nat) : Nat := polyMod 8 0x11D 8 (clmul 8 a b)

/-- Power in GF(2^8). -/
def gf8Pow (a : Nat) : Nat → Nat
  | 0 => 1
  | n + 1 => gf8Mul a (gf8Pow a n)

/-- Inverse in GF(2^8): the 254th power (0 for 0). -/
def gf8Inv (a : Nat) : Nat :=
  let a2 := gf8Mul a a
  let a4 := gf8Mul a2 a2
  let a8 := gf8Mul a4 a4
  let a16 := gf8Mul a8 a8
  let a32 := gf8Mul a16 a16
  let a64 := gf8Mul a32 a32
  let a128 := gf8Mul a64 a64
  gf8Mul a128 (gf8Mul a64 (gf8Mul a32 (gf8Mul a16 (gf8Mul a8 (gf8Mul a4 a2)))))

/-- Product in GF(2^16), polynomial x^16 + x^12 + x^3 + x + 1. -/
def gf16Mul (a b : Nat) : Nat := polyMod 16 0x1100B 16 (clmul 16 a b)

/-- Square `n` times in GF(2^16) and multiply the results together: a^(2^1 + … + 2^n). -/
def gf16Inv (a : Nat) : Nat :=
  (List.range 15).foldl (fun (acc : Nat × Nat) _ =>
    let sq := gf16Mul acc.2 acc.2
    (gf16Mul acc.1 sq, sq)) (1, a) |>.1

/-- Outcome of a read of a protected word (R460), for the error pattern it carries: `corrected` names the symbol and
the pattern that stays in the delivered word, which is not zero where the code miscorrects. -/
inductive Ecc where
  | clean
  | corrected (symbol : Nat) (residue : BitVec 80)
  | uncorrectable
  deriving DecidableEq, Repr

/-- Symbol `i` of an 80-bit word. -/
def symbolOf (w : BitVec 80) (i : Nat) : Nat := w.toNat / 2 ^ (8 * i) % 256

/-- Syndrome S0 of an 80-bit word or error pattern (R459). -/
def eccS0 (w : BitVec 80) : Nat := (List.range 10).foldl (fun a i => a ^^^ symbolOf w i) 0

/-- Syndrome S1 (R459). -/
def eccS1 (w : BitVec 80) : Nat := (List.range 10).foldl (fun a i => a ^^^ gf8Mul (symbolOf w i) (gf8Pow 2 i)) 0

/-- The checker of R460 on an error pattern. The code is linear, so the syndromes of the stored word are those of its
error pattern. -/
def eccDecode (e : BitVec 80) : Ecc :=
  let s0 := eccS0 e
  let s1 := eccS1 e
  if s0 = 0 && s1 = 0 then .clean
  else if s0 ≠ 0 && s1 ≠ 0 then
    match (List.range 10).find? fun j => gf8Mul s0 (gf8Pow 2 j) = s1 with
    | some j => .corrected j (e ^^^ BitVec.ofNat 80 (s0 * 2 ^ (8 * j)))
    | none => .uncorrectable
  else .uncorrectable

/-- The check symbols c0 and c1 the writer chooses for a 64-bit word (R459): with v8 and v9 unknown, S0 = 0 and
S1 = 0 give c1 = (S1' + S0' α^8) / (α^8 + α^9) and c0 = S0' + c1. -/
def eccCheck (d : BitVec 64) : Nat × Nat :=
  let w : BitVec 80 := d.zeroExtend 80
  let a8 := gf8Pow 2 8
  let c1 := gf8Mul (eccS1 w ^^^ gf8Mul (eccS0 w) a8) (gf8Inv (a8 ^^^ gf8Pow 2 9))
  (eccS0 w ^^^ c1, c1)

end Sys2Proof
end

