-- ==== Sys2Proof/Machine/RegMap.lean ====
section
/-!
DEFINITION. Machine/RegMap.lean: the register map of the device: the address of every register the spec's register
tables name, and one row per register with its access code, its reset value and the bits its fields occupy.
The rows follow the tables "… registers" of the chapters (each block names its chapter); addresses are those of the
service cores' map (R25), window base plus offset.
-/

namespace Sys2Proof.Reg

/-- Base of a function's register window, function code 0 to 7, and 8 for SYS (R25, Table "Functions, their register
windows and event blocks"). -/
def window (f : Nat) : Nat := 0x20000000 + f * 0x1000000

/-- Base of the window of actuator `a` (0 MEDA, 1 MEDB). -/
def medBase (a : Nat) : Nat := 0x22000000 + a * 0x1000000

/-- Base of the registers of eft `e`: 0, 1 of MEDA, 2, 3 of MEDB, 4 to 11 of STG channels 0 to 7 (R197). -/
def eftBase (e : Nat) : Nat :=
  if e < 4 then medBase (e / 2) + 0x400000 + (e % 2) * 0x1000 else 0x24400000 + (e - 4) * 0x1000

def NET_ID : Nat := 0x20000000
def NET_CTRL : Nat := 0x20000004
def NET_STATUS : Nat := 0x20000008
def NET_EVENT_STATUS : Nat := 0x2000000C
def NET_EVENT_ENABLE : Nat := 0x20000010
def NET_QPN_BASE : Nat := 0x20000020
def NET_QPC_BASE_LO : Nat := 0x20000028
def NET_QPC_BASE_HI : Nat := 0x2000002C
def NET_QP_ERR_FIFO : Nat := 0x20000030
def NET_BAD_QPN : Nat := 0x20000034
def NET_CACHE_DROP : Nat := 0x20000038
def NET_CACHE_STATUS : Nat := 0x2000003C
def NET_CC_CFG : Nat := 0x20000040
def NET_CC_RATE : Nat := 0x20000044
def NET_RAW_BASE : Nat := 0x20000050
def NET_RAW_SIZE : Nat := 0x20000054
def NET_RAW_PROD : Nat := 0x20000058
def NET_RAW_CONS : Nat := 0x2000005C
def NET_RAW_DROP : Nat := 0x20000060
def NET_P_CFG (p : Nat) : Nat := 0x20000100 + p * 0x40
def NET_P_MAC_LO (p : Nat) : Nat := 0x20000104 + p * 0x40
def NET_P_MAC_HI (p : Nat) : Nat := 0x20000108 + p * 0x40
def NET_P_PFC (p : Nat) : Nat := 0x2000010C + p * 0x40
def NET_P_BUF_THR (p : Nat) : Nat := 0x20000110 + p * 0x40
def NET_P_FEC_CORR (p : Nat) : Nat := 0x20000114 + p * 0x40
def NET_P_FEC_UNCORR (p : Nat) : Nat := 0x20000118 + p * 0x40
def NET_P_FEC_THR (p : Nat) : Nat := 0x2000011C + p * 0x40
def NET_P_RX_DROP (p : Nat) : Nat := 0x20000120 + p * 0x40
def NET_MBX_BASE (m : Nat) : Nat := 0x20001000 + m * 0x10
def NET_MBX_DESC (m : Nat) : Nat := 0x20001004 + m * 0x10
def NET_MBX_PROD (m : Nat) : Nat := 0x20001008 + m * 0x10
def NET_MBX_CONS (m : Nat) : Nat := 0x2000100C + m * 0x10
def NET_GID (p g w : Nat) : Nat := 0x20002000 + p * 0x100 + g * 0x10 + w * 0x4
def SQ_BASE_LO (s : Nat) : Nat := 0x28800000 + s * 0x20
def SQ_BASE_HI (s : Nat) : Nat := 0x28800004 + s * 0x20
def SQ_CFG (s : Nat) : Nat := 0x28800008 + s * 0x20
def SQ_STATE (s : Nat) : Nat := 0x2880000C + s * 0x20
def SQ_PROD (s : Nat) : Nat := 0x28800010 + s * 0x20
def SQ_FETCH (s : Nat) : Nat := 0x28800014 + s * 0x20
def SQ_DONE (s : Nat) : Nat := 0x28800018 + s * 0x20
def CQ_BASE_LO (c : Nat) : Nat := 0x28900000 + c * 0x20
def CQ_BASE_HI (c : Nat) : Nat := 0x28900004 + c * 0x20
def CQ_CFG (c : Nat) : Nat := 0x28900008 + c * 0x20
def CQ_STATE (c : Nat) : Nat := 0x2890000C + c * 0x20
def CQ_PROD (c : Nat) : Nat := 0x28900010 + c * 0x20
def CQ_CONS (c : Nat) : Nat := 0x28900014 + c * 0x20
def SQ_DOORBELL (s : Nat) : Nat := 0x28A00000 + s * 0x4
def CQ_DOORBELL (c : Nat) : Nat := 0x28A10000 + c * 0x4
def RING_ID : Nat := 0x28B00000
def RING_EVENT_STATUS : Nat := 0x28B00004
def RING_EVENT_ENABLE : Nat := 0x28B00008
def RING_ERR_FIFO : Nat := 0x28B0000C
def RING_CTRL : Nat := 0x28B00010
def RING_SPILL (f : Nat) : Nat := 0x28B00040 + f * 0x4
def EFT_ID (x : Nat) : Nat := eftBase x + 0x0
def EFT_CTRL (x : Nat) : Nat := eftBase x + 0x4
def EFT_STATE (x : Nat) : Nat := eftBase x + 0x8
def EFT_CAUSE (x : Nat) : Nat := eftBase x + 0xC
def EFT_RESTARTS (x : Nat) : Nat := eftBase x + 0x10
def EFT_FAULTS (x : Nat) : Nat := eftBase x + 0x14
def EFT_WDOG (x : Nat) : Nat := eftBase x + 0x18
def EFT_CS_ECC (x : Nat) : Nat := eftBase x + 0x1C
def EFT_LOAD_CTRL (x : Nat) : Nat := eftBase x + 0x20
def EFT_CS_DATA (x : Nat) : Nat := eftBase x + 0x24
def EFT_LOAD_CRC (x : Nat) : Nat := eftBase x + 0x28
def EFT_BREAK (x : Nat) : Nat := eftBase x + 0x2C
def EFT_DBG_SEL (x : Nat) : Nat := eftBase x + 0x30
def EFT_DBG_DATA (x : Nat) : Nat := eftBase x + 0x34
def EFT_JOB (x : Nat) : Nat := eftBase x + 0x38
def EFT_FLAGS (x : Nat) : Nat := eftBase x + 0x3C
def EFT_ATTN (x : Nat) : Nat := eftBase x + 0x40
def STG_ID : Nat := 0x24000000
def STG_CTRL : Nat := 0x24000004
def STG_STATUS : Nat := 0x24000008
def STG_EVENT_STATUS : Nat := 0x2400000C
def STG_EVENT_ENABLE : Nat := 0x24000010
def STG_RAND_KEY : Nat := 0x24000014
def STG_BLKTAB_BASE_LO : Nat := 0x24000018
def STG_BLKTAB_BASE_HI : Nat := 0x2400001C
def STG_RETRY_BASE_LO : Nat := 0x24000020
def STG_RETRY_BASE_HI : Nat := 0x24000024
def STG_RETRY_CFG : Nat := 0x24000028
def STG_LDPC_CFG : Nat := 0x2400002C
def STG_LDPC_LLR : Nat := 0x24000030
def STG_TRK_CFG : Nat := 0x24000034
def STG_GRAY_01 : Nat := 0x24000038
def STG_GRAY_23 : Nat := 0x2400003C
def STG_SUSP_CFG : Nat := 0x24000040
def STG_SUSP_LIMIT : Nat := 0x24000044
def STG_WEAR_CFG : Nat := 0x24000048
def STG_BLK_CMD : Nat := 0x2400004C
def STG_ADVISE_FIFO : Nat := 0x24000050
def STG_ADVISE_OVF : Nat := 0x24000054
def CH_MODE (c : Nat) : Nat := 0x24001000 + c * 0x40
def CH_MAP (c : Nat) : Nat := 0x24001004 + c * 0x40
def CH_GEOM (c : Nat) : Nat := 0x24001008 + c * 0x40
def CH_TMO_RD (c : Nat) : Nat := 0x2400100C + c * 0x40
def CH_TMO_PG (c : Nat) : Nat := 0x24001010 + c * 0x40
def CH_TMO_ER (c : Nat) : Nat := 0x24001014 + c * 0x40
def CH_STATUS (c : Nat) : Nat := 0x24001018 + c * 0x40
def CH_CW_OK (c : Nat) : Nat := 0x2400101C + c * 0x40
def CH_CW_FAIL (c : Nat) : Nat := 0x24001020 + c * 0x40
def CH_RETRIES (c : Nat) : Nat := 0x24001024 + c * 0x40
def CH_SOFT (c : Nat) : Nat := 0x24001028 + c * 0x40
def CH_SUSPENDS (c : Nat) : Nat := 0x2400102C + c * 0x40
def CH_CORR_BITS (c : Nat) : Nat := 0x24001030 + c * 0x40
def XFM_ID : Nat := 0x25000000
def XFM_CTRL : Nat := 0x25000004
def XFM_STATUS : Nat := 0x25000008
def XFM_EVENT_STATUS : Nat := 0x2500000C
def XFM_EVENT_ENABLE : Nat := 0x25000010
def XFM_FB_THR : Nat := 0x25000014
def XFM_CMP_JOBS : Nat := 0x25000020
def XFM_CMP_STORED : Nat := 0x25000024
def XFM_VERIFY_MISMATCH : Nat := 0x25000028
def XFM_FALLBACK_JOBS : Nat := 0x2500002C
def XFM_INFLATE_ERRORS : Nat := 0x25000030
def XFM_EC_INCONSISTENT : Nat := 0x25000034
def XFM_CIPH_UNITS : Nat := 0x25000038
def XFM_KEY_STATUS_LO : Nat := 0x25000040
def XFM_KEY_STATUS_HI : Nat := 0x25000044
def ZONE_ID : Nat := 0x28C00000
def ZONE_CTRL : Nat := 0x28C00004
def ZONE_STATUS : Nat := 0x28C00008
def ZONE_EVENT_STATUS : Nat := 0x28C0000C
def ZONE_EVENT_ENABLE : Nat := 0x28C00010
def ZONE_TAB_BASE_LO : Nat := 0x28C00014
def ZONE_TAB_BASE_HI : Nat := 0x28C00018
def ZONE_COUNT : Nat := 0x28C0001C
def ZONE_DEF_BASE_LO : Nat := 0x28C00020
def ZONE_DEF_BASE_HI : Nat := 0x28C00024
def ZONE_DEF_SIZE : Nat := 0x28C00028
def ZONE_CMD : Nat := 0x28C00030
def ZONE_CMD_RESULT : Nat := 0x28C00034
def ZONE_WP_FAULTS : Nat := 0x28C00038
def ZONE_OFFER_REQ : Nat := 0x28C00040
def ZONE_OFFER_HEADS : Nat := 0x28C00044
def ZONE_OFFER : Nat := 0x28C00048
def ZONE_OFFER_SCORE : Nat := 0x28C0004C
def ZONE_PLACE_CFG : Nat := 0x28C00050
def ZONE_CTX (a k : Nat) : Nat := 0x28C00100 + a * 0x40 + k * 0x4
def ZONE_RWP (a k : Nat) : Nat := 0x28C00200 + a * 0x40 + k * 0x4
def MED_WR_ID (x : Nat) : Nat := medBase x + 0x100000
def MED_WR_CTRL (x : Nat) : Nat := medBase x + 0x100004
def MED_WR_STATUS (x : Nat) : Nat := medBase x + 0x100008
def MED_WR_EVENT_STATUS (x : Nat) : Nat := medBase x + 0x10000C
def MED_WR_EVENT_ENABLE (x : Nat) : Nat := medBase x + 0x100010
def MED_WR_CFG (x : Nat) : Nat := medBase x + 0x100014
def MED_ASSIST_LOOP (x : Nat) : Nat := medBase x + 0x100018
def MED_TD_CFG (x : Nat) : Nat := medBase x + 0x10001C
def MED_TD_CTRL (x : Nat) : Nat := medBase x + 0x100020
def MED_TD_RESULT (x : Nat) : Nat := medBase x + 0x100024
def MED_PAL_CMD (x : Nat) : Nat := medBase x + 0x100028
def MED_PAL_RESP (x : Nat) : Nat := medBase x + 0x10002C
def MED_PAL_ERRORS (x : Nat) : Nat := medBase x + 0x100030
def MED_WR_SECTORS (x : Nat) : Nat := medBase x + 0x100034
def MED_WR_STOPS (x : Nat) : Nat := medBase x + 0x100038
def MED_ASSIST_STEPS (x : Nat) : Nat := medBase x + 0x10003C
def MED_ASSIST_NOW (x h : Nat) : Nat := medBase x + 0x100080 + h * 0x4
def MED_XFER (x i : Nat) : Nat := medBase x + 0x101000 + i * 0x4
def MED_HB (x h b w : Nat) : Nat := medBase x + 0x102000 + h * 0x100 + b * 0x10 + w * 0x4
def MED_RC_ID (x : Nat) : Nat := medBase x + 0x200000
def MED_RC_CTRL (x : Nat) : Nat := medBase x + 0x200004
def MED_RC_STATUS (x : Nat) : Nat := medBase x + 0x200008
def MED_RC_EVENT_STATUS (x : Nat) : Nat := medBase x + 0x20000C
def MED_RC_EVENT_ENABLE (x : Nat) : Nat := medBase x + 0x200010
def MED_RC_CFG (x : Nat) : Nat := medBase x + 0x200014
def MED_RC_TIMING (x : Nat) : Nat := medBase x + 0x200018
def MED_RC_TIMING2 (x : Nat) : Nat := medBase x + 0x20001C
def MED_RC_AGC (x : Nat) : Nat := medBase x + 0x200020
def MED_RC_DEF1 (x : Nat) : Nat := medBase x + 0x200024
def MED_RC_DEF2 (x : Nat) : Nat := medBase x + 0x200028
def MED_RC_ADAPT (x : Nat) : Nat := medBase x + 0x20002C
def MED_ADC_LIM (x : Nat) : Nat := medBase x + 0x200030
def MED_RC_SECTORS (x : Nat) : Nat := medBase x + 0x200034
def MED_RC_FAILS (x : Nat) : Nat := medBase x + 0x200038
def MED_RC_ITER (x : Nat) : Nat := medBase x + 0x20003C
def MED_RC_ERASED (x : Nat) : Nat := medBase x + 0x200040
def MED_RC_SLIPS (x : Nat) : Nat := medBase x + 0x200044
def MED_RC_NOW (x : Nat) : Nat := medBase x + 0x200048
def MED_ADC_TRIM (x r s : Nat) : Nat := medBase x + 0x200100 + r * 0x100 + s * 0x4
def MED_ADC_MEAS (x r s : Nat) : Nat := medBase x + 0x200400 + r * 0x100 + s * 0x4
def MED_ADC_PHASE (x r q : Nat) : Nat := medBase x + 0x200600 + r * 0x20 + q * 0x4
def MED_ADC_STATUS (x r : Nat) : Nat := medBase x + 0x200640 + r * 0x4
def MED_TGT (x t w : Nat) : Nat := medBase x + 0x200800 + t * 0x10 + w * 0x4
def MED_RHB (x h b w : Nat) : Nat := medBase x + 0x202000 + h * 0x100 + b * 0x10 + w * 0x4
def MED_EQ (x h b w : Nat) : Nat := medBase x + 0x208000 + h * 0x800 + b * 0x80 + w * 0x4
def MED_NP (x h w : Nat) : Nat := medBase x + 0x20E000 + h * 0x40 + w * 0x4
def MED_SR_ID (x : Nat) : Nat := medBase x + 0x300000
def MED_SR_CTRL (x : Nat) : Nat := medBase x + 0x300004
def MED_SR_SYNC (x : Nat) : Nat := medBase x + 0x300008
def MED_SR_LADDER (x : Nat) : Nat := medBase x + 0x30000C
def MED_SR_EVENT_STATUS (x : Nat) : Nat := medBase x + 0x300010
def MED_SR_EVENT_ENABLE (x : Nat) : Nat := medBase x + 0x300014
def MED_SR_PIN (x : Nat) : Nat := medBase x + 0x300018
def MED_SR_STATUS (x : Nat) : Nat := medBase x + 0x30001C
def MED_SR_DISTRUST_LO (x : Nat) : Nat := medBase x + 0x300020
def MED_SR_DISTRUST_HI (x : Nat) : Nat := medBase x + 0x300024
def MED_SR_LAST_FAIL (x : Nat) : Nat := medBase x + 0x300028
def MED_SR_SYNC_MISS (x : Nat) : Nat := medBase x + 0x300040
def MED_SR_FALSE_SYNC (x : Nat) : Nat := medBase x + 0x300044
def MED_SR_OFFLINE_OK (x : Nat) : Nat := medBase x + 0x300048
def MED_SR_OC_OK (x : Nat) : Nat := medBase x + 0x30004C
def MED_SR_UNRECOVERED (x : Nat) : Nat := medBase x + 0x300050
def MED_SR_BUDGET (x : Nat) : Nat := medBase x + 0x300054
def MED_SR_SLOT_PBA_LO (x s : Nat) : Nat := medBase x + 0x300100 + s * 0x20
def MED_SR_SLOT_PBA_HI (x s : Nat) : Nat := medBase x + 0x300104 + s * 0x20
def MED_SR_SLOT_INFO (x s : Nat) : Nat := medBase x + 0x300108 + s * 0x20
def MED_SR_SLOT_SYNC (x s : Nat) : Nat := medBase x + 0x30010C + s * 0x20
def MED_SR_SLOT_SW (x s : Nat) : Nat := medBase x + 0x300110 + s * 0x20
def MED_SR_RANGE (x s i : Nat) : Nat := medBase x + 0x300200 + s * 0x20 + i * 0x4
def MED_SV_ID (x : Nat) : Nat := medBase x + 0x500000
def MED_SV_CTRL (x : Nat) : Nat := medBase x + 0x500004
def MED_SV_STATUS (x : Nat) : Nat := medBase x + 0x500008
def MED_SV_EVENT_STATUS (x : Nat) : Nat := medBase x + 0x50000C
def MED_SV_EVENT_ENABLE (x : Nat) : Nat := medBase x + 0x500010
def MED_SV_DEADLINE (x : Nat) : Nat := medBase x + 0x500014
def MED_SV_WUS (x : Nat) : Nat := medBase x + 0x500018
def MED_SV_FE (x : Nat) : Nat := medBase x + 0x50001C
def MED_SV_MISS (x : Nat) : Nat := medBase x + 0x500020
def MED_SV_SETTLE (x : Nat) : Nat := medBase x + 0x500024
def MED_SV_VMAX (x : Nat) : Nat := medBase x + 0x500028
def MED_SV_AMAX (x : Nat) : Nat := medBase x + 0x50002C
def MED_SV_JMAX (x : Nat) : Nat := medBase x + 0x500030
def MED_SV_MIN_TRACK (x : Nat) : Nat := medBase x + 0x500034
def MED_SV_MAX_TRACK (x : Nat) : Nat := medBase x + 0x500038
def MED_SV_CLAMP (x : Nat) : Nat := medBase x + 0x50003C
def MED_SV_SLEW (x : Nat) : Nat := medBase x + 0x500040
def MED_SV_LOAD (x : Nat) : Nat := medBase x + 0x500044
def MED_SV_UNLOAD (x : Nat) : Nat := medBase x + 0x500048
def MED_SV_CMD (x : Nat) : Nat := medBase x + 0x50004C
def MED_SV_TANDEM (x : Nat) : Nat := medBase x + 0x500050
def MED_SV_TARGET_LO (x : Nat) : Nat := medBase x + 0x500054
def MED_SV_TARGET_HI (x : Nat) : Nat := medBase x + 0x500058
def MED_SV_REF_LO (x : Nat) : Nat := medBase x + 0x50005C
def MED_SV_REF_HI (x : Nat) : Nat := medBase x + 0x500060
def MED_SV_POS_LO (x : Nat) : Nat := medBase x + 0x500064
def MED_SV_POS_HI (x : Nat) : Nat := medBase x + 0x500068
def MED_SV_VEL (x : Nat) : Nat := medBase x + 0x50006C
def MED_SV_ACC (x : Nat) : Nat := medBase x + 0x500070
def MED_SV_PES (x : Nat) : Nat := medBase x + 0x500074
def MED_SV_OUT (x : Nat) : Nat := medBase x + 0x500078
def MED_SV_ROFFSET (x : Nat) : Nat := medBase x + 0x50007C
def MED_SV_CYCLES (x : Nat) : Nat := medBase x + 0x500080
def MED_SV_MAXCYC (x : Nat) : Nat := medBase x + 0x500084
def MED_SV_WUS_RISES (x : Nat) : Nat := medBase x + 0x500088
def MED_SV_DL_MISS (x : Nat) : Nat := medBase x + 0x50008C
def MED_SV_WEDGE_MISS (x : Nat) : Nat := medBase x + 0x500090
def MED_SV_RETARGETS (x : Nat) : Nat := medBase x + 0x500094
def MED_SV_REFUSED (x : Nat) : Nat := medBase x + 0x500098
def MED_SV_CLAMPS (x : Nat) : Nat := medBase x + 0x50009C
def MED_SV_FAULTS (x : Nat) : Nat := medBase x + 0x5000A0
def MED_SV_TRACE_CTRL (x : Nat) : Nat := medBase x + 0x5000A4
def MED_SV_TRACE_POST (x : Nat) : Nat := medBase x + 0x5000A8
def MED_SV_TRACE_THR (x : Nat) : Nat := medBase x + 0x5000AC
def MED_SV_TRACE_STATUS (x : Nat) : Nat := medBase x + 0x5000B0
def MED_SV_HEAD (x h : Nat) : Nat := medBase x + 0x500100 + h * 0x4
def MED_SV_COEF (x b w : Nat) : Nat := medBase x + 0x510000 + b * 0x200 + w * 0x4
def MED_SV_LIN (x h i : Nat) : Nat := medBase x + 0x520000 + h * 0x100 + i * 0x4
def MED_SV_TRACE (x r w : Nat) : Nat := medBase x + 0x580000 + r * 0x10 + w * 0x4
def MOT_ID : Nat := 0x26000000
def MOT_CTRL : Nat := 0x26000004
def MOT_STATUS : Nat := 0x26000008
def MOT_EVENT_STATUS : Nat := 0x2600000C
def MOT_EVENT_ENABLE : Nat := 0x26000010
def MOT_SPD_CMD : Nat := 0x26000014
def MOT_SPD_REF : Nat := 0x26000018
def MOT_SPD_ACT : Nat := 0x2600001C
def MOT_RAMP : Nat := 0x26000020
def MOT_SPD_OK : Nat := 0x26000024
def MOT_SPD_LOOP : Nat := 0x26000028
def MOT_ILIM : Nat := 0x2600002C
def MOT_PWM : Nat := 0x26000030
def MOT_HALL : Nat := 0x26000034
def MOT_OBS : Nat := 0x26000038
def MOT_OBS2 : Nat := 0x2600003C
def MOT_START : Nat := 0x26000040
def MOT_OPENLOOP : Nat := 0x26000044
def MOT_SHUNT : Nat := 0x26000048
def MOT_PL_CFG : Nat := 0x2600004C
def MOT_HOLD : Nat := 0x26000050
def MOT_RETRACT_A : Nat := 0x26000054
def MOT_RETRACT_B : Nat := 0x26000058
def MOT_VCM_FS : Nat := 0x2600005C
def MOT_LANE : Nat := 0x26000060
def MOT_LANE_ERR : Nat := 0x26000064
def MOT_PHASE_I : Nat := 0x26000068
def MOT_VM : Nat := 0x2600006C
def MOT_VIN5 : Nat := 0x26000070
def MOT_SPIN_I : Nat := 0x26000074
def MOT_LOST_CNT : Nat := 0x26000078
def MOT_HALL_ERR : Nat := 0x2600007C
def MOT_DIP_CNT : Nat := 0x26000080
def MOT_PL_CTRL : Nat := 0x26000084
def MOT_IIN : Nat := 0x26000088
def TH_ID : Nat := 0x28100000
def TH_CTRL : Nat := 0x28100004
def TH_STATUS : Nat := 0x28100008
def TH_EVENT_STATUS : Nat := 0x2810000C
def TH_EVENT_ENABLE : Nat := 0x28100010
def TH_EXCLUDED : Nat := 0x28100014
def TH_AMBIENT : Nat := 0x28100018
def TH_PEAK : Nat := 0x2810001C
def TH_QUENCH_INFO : Nat := 0x28100020
def TH_SENSOR (s : Nat) : Nat := 0x28100100 + s * 0x4
def TH_NODE (i : Nat) : Nat := 0x28100200 + i * 0x4
def TH_LIMIT (i : Nat) : Nat := 0x28100300 + i * 0x4
def TH_NODE_KC (i : Nat) : Nat := 0x28100400 + i * 0x4
def TH_EDGE (e : Nat) : Nat := 0x28100500 + e * 0x4
def BA_ID : Nat := 0x28200000
def BA_CTRL : Nat := 0x28200004
def BA_CAP : Nat := 0x28200008
def BA_DERATE : Nat := 0x2820000C
def BA_FIXED : Nat := 0x28200010
def BA_STATUS : Nat := 0x28200014
def BA_POWER : Nat := 0x28200018
def BA_TRIM : Nat := 0x2820001C
def BA_P5 : Nat := 0x28200020
def BA_FUNC (f : Nat) : Nat := 0x28200040 + f * 0x4
def BA_BAL (f : Nat) : Nat := 0x28200060 + f * 0x4
def BA_GRANT (f : Nat) : Nat := 0x28200080 + f * 0x4
def BA_COST_MED : Nat := 0x282000A0
def BA_COST_SEEK : Nat := 0x282000A4
def BA_COST_STG : Nat := 0x282000A8
def BA_COST_XFM : Nat := 0x282000AC
def BA_HEAD_CFG : Nat := 0x282000B0
def BA_SCHED_CFG : Nat := 0x282000B4
def BA_HEADROOM (a : Nat) : Nat := 0x282000B8 + a * 0x4
def BA_SCHED_LAST (a : Nat) : Nat := 0x282000C0 + a * 0x4
def BA_HEAD (a h : Nat) : Nat := 0x28200100 + a * 0x40 + h * 0x4
def BA_HEAT (a h : Nat) : Nat := 0x28200180 + a * 0x40 + h * 0x4
def BA_METER (m : Nat) : Nat := 0x28200200 + m * 0x4
def BA_SEEK (k : Nat) : Nat := 0x28200300 + k * 0x4
def AV_ID : Nat := 0x28300000
def AV_CTRL : Nat := 0x28300004
def AV_FREQ_REQ : Nat := 0x28300008
def AV_STATUS : Nat := 0x2830000C
def AV_SLACK : Nat := 0x28300010
def AV_DROOPS : Nat := 0x28300014
def AV_LIMITS : Nat := 0x28300018
def CAL_ID : Nat := 0x28400000
def CAL_CTRL : Nat := 0x28400004
def CAL_STATUS : Nat := 0x28400008
def CAL_EVENT_STATUS : Nat := 0x2840000C
def CAL_EVENT_ENABLE : Nat := 0x28400010
def CAL_REQ : Nat := 0x28400014
def CAL_SUB_CFG (s : Nat) : Nat := 0x28400100 + s * 0x20
def CAL_SUB_TIME (s : Nat) : Nat := 0x28400104 + s * 0x20
def CAL_SUB_LAST (s : Nat) : Nat := 0x28400108 + s * 0x20
def CAL_SUB_COUNT (s : Nat) : Nat := 0x2840010C + s * 0x20
def CAL_SUB_AGE (s : Nat) : Nat := 0x28400110 + s * 0x20
def CAL_FH_CFG (a : Nat) : Nat := 0x28400200 + a * 0x4
def CAL_FH_HEAD (a h : Nat) : Nat := 0x28400300 + a * 0x40 + h * 0x4
def MEM_ID : Nat := 0x28500000
def MEM_CFG : Nat := 0x28500004
def MEM_STATUS : Nat := 0x28500008
def MEM_EVENT_STATUS : Nat := 0x2850000C
def MEM_EVENT_ENABLE : Nat := 0x28500010
def MEM_DRAM_CFG : Nat := 0x28500014
def MEM_RETAIN : Nat := 0x28500018
def MEM_SCRUB_CTRL : Nat := 0x28500020
def MEM_SCRUB_BASE_LO : Nat := 0x28500024
def MEM_SCRUB_BASE_HI : Nat := 0x28500028
def MEM_SCRUB_LIMIT_LO : Nat := 0x2850002C
def MEM_SCRUB_LIMIT_HI : Nat := 0x28500030
def MEM_SCRUB_STATUS : Nat := 0x28500034
def MEM_SCRUB_WORDS_LO : Nat := 0x28500038
def MEM_SCRUB_WORDS_HI : Nat := 0x2850003C
def MEM_SCRUB_CORR : Nat := 0x28500040
def MEM_SCRUB_UNCORR : Nat := 0x28500044
def MEM_SCRUB_FIRST_LO : Nat := 0x28500048
def MEM_SCRUB_FIRST_HI : Nat := 0x2850004C
def MEM_SCRUB_LAST_LO : Nat := 0x28500050
def MEM_SCRUB_LAST_HI : Nat := 0x28500054
def MEM_VOTE_DISAGREE : Nat := 0x28500060
def MEM_VOTE_LAST : Nat := 0x28500064
def MEM_CORR (m : Nat) : Nat := 0x28500100 + m * 0x20
def MEM_UNCORR (m : Nat) : Nat := 0x28500104 + m * 0x20
def MEM_TAB_STATUS (m : Nat) : Nat := 0x28500108 + m * 0x20
def MEM_TAB_OVF (m : Nat) : Nat := 0x2850010C + m * 0x20
def MEM_TAB_CLR (m : Nat) : Nat := 0x28500110 + m * 0x20
def MEM_TABE_LO (m e : Nat) : Nat := 0x28501000 + m * 0x100 + e * 0x8
def MEM_TABE_HI (m e : Nat) : Nat := 0x28501004 + m * 0x100 + e * 0x8
def CF_ID : Nat := 0x27100000
def CF_STATUS : Nat := 0x27100004
def CF_ACTL_CMD : Nat := 0x27100008
def CF_ACTL_ADDR : Nat := 0x2710000C
def CF_ACTL_LEN : Nat := 0x27100010
def CF_LAST : Nat := 0x27100014
def CF_LAST_ADDR : Nat := 0x27100018
def CF_OPS : Nat := 0x2710001C
def CF_FAILS : Nat := 0x27100020
def CF_GATES : Nat := 0x27100024
def CF_WLOCK (n : Nat) : Nat := 0x27100040 + n * 0x4
def CF_HIDE : Nat := 0x27100050
def CF_ACTL_BUF (i : Nat) : Nat := 0x27100100 + i * 0x4
def CFX_ID : Nat := 0x28600000
def CFX_CTRL : Nat := 0x28600004
def CFX_STATUS : Nat := 0x28600008
def CFX_PF_HITS : Nat := 0x2860000C
def CFX_BC_HITS : Nat := 0x28600010
def CFX_MISSES : Nat := 0x28600014
def CFX_WAITS : Nat := 0x28600018
def CFX_INVAL : Nat := 0x2860001C
def CRU_ID : Nat := 0x27000000
def CRU_LC : Nat := 0x27000004
def CRU_LC_RAW : Nat := 0x27000008
def CRU_VAULT : Nat := 0x2700000C
def CRU_EVENT_STATUS : Nat := 0x27000010
def CRU_EVENT_ENABLE : Nat := 0x27000014
def CRU_BOOT : Nat := 0x27000018
def CRU_WDOG : Nat := 0x2700001C
def CRU_FUSE_CMD : Nat := 0x27000020
def CRU_FUSE_STAT : Nat := 0x27000024
def CRU_FUSE_DATA (w : Nat) : Nat := 0x27000028 + w * 0x4
def CRU_KEK : Nat := 0x27000048
def CRU_SVN : Nat := 0x2700004C
def CRU_KEYSLOT (s w : Nat) : Nat := 0x27000060 + s * 0x20 + w * 0x4
def CRU_APERTURE : Nat := 0x27000100
def CRU_CORE_CTRL : Nat := 0x27000104
def CRU_CORE_VEC_LO : Nat := 0x27000108
def CRU_CORE_VEC_HI : Nat := 0x2700010C
def CRU_CORE_A0 : Nat := 0x27000110
def CRU_L2_INV : Nat := 0x27000114
def CRU_RNG_STATUS : Nat := 0x27000120
def CRU_RNG_DATA : Nat := 0x27000124
def CRU_HASH_CTRL : Nat := 0x27000140
def CRU_HASH_SRC_LO : Nat := 0x27000144
def CRU_HASH_LEN : Nat := 0x27000148
def CRU_HASH_OUT (w : Nat) : Nat := 0x27000160 + w * 0x4
def CRU_BAND_CMD : Nat := 0x27000200
def CRU_BAND_STAT : Nat := 0x27000204
def CRU_BAND_WRAP (w : Nat) : Nat := 0x27000208 + w * 0x4
def CRU_MBX_RX (w : Nat) : Nat := 0x27000300 + w * 0x4
def CRU_MBX_RX_POP : Nat := 0x27000320
def CRU_MBX_STATUS : Nat := 0x27000324
def CRU_MBX_TX (w : Nat) : Nat := 0x27000340 + w * 0x4
def CRU_MBX_TX_GO : Nat := 0x27000360
def CRU_WIN (f w j : Nat) : Nat := 0x27010000 + f * 0x100 + w * 0x10 + j * 0x4
def CRU_SWIN (w j : Nat) : Nat := 0x27011000 + w * 0x10 + j * 0x4
def SVC_CMBX_TX (w : Nat) : Nat := 0x21700000 + w * 0x4
def SVC_CMBX_TX_GO : Nat := 0x21700020
def SVC_CMBX_STATUS : Nat := 0x21700024
def SVC_CMBX_RX (w : Nat) : Nat := 0x21700040 + w * 0x4
def SVC_CMBX_RX_POP : Nat := 0x21700060
def SVC_CMBX_INT : Nat := 0x21700064
def EVC_ID : Nat := 0x28700000
def EVC_CTRL : Nat := 0x28700004
def EVC_STATUS : Nat := 0x28700008
def EVC_SVC_EVENT_STATUS : Nat := 0x2870000C
def EVC_SVC_EVENT_ENABLE : Nat := 0x28700010
def EVC_FENCE : Nat := 0x28700014
def EVC_RFAULT : Nat := 0x28700018
def EVC_TIME_LO : Nat := 0x2870001C
def EVC_TIME_HI : Nat := 0x28700020
def EVC_TIME_SET_LO : Nat := 0x28700024
def EVC_TIME_SET_HI : Nat := 0x28700028
def EVC_NEXT_SEQ : Nat := 0x2870002C
def EVC_LOST : Nat := 0x28700030
def EVC_FULL_DROPS : Nat := 0x28700034
def EVC_FROZEN_DROPS : Nat := 0x28700038
def EVC_SUPPRESSED : Nat := 0x2870003C
def EVC_SOFT_PAY (w : Nat) : Nat := 0x28700040 + w * 0x4
def EVC_SOFT_POST : Nat := 0x2870004C
def EVC_ERR_RAISE : Nat := 0x28700050
def EVC_FDROP : Nat := 0x28700054
def EVC_FRESET : Nat := 0x28700058
def EVC_REGION : Nat := 0x2870005C
def EVC_DRAIN (w : Nat) : Nat := 0x28700060 + w * 0x4
def EVC_DRAIN_POP : Nat := 0x28700080
def EVC_WIN_CURSOR (v : Nat) : Nat := 0x28700200 + v * 0x200
def EVC_WIN_STATUS (v : Nat) : Nat := 0x28700204 + v * 0x200
def EVC_WIN_FIRST (v : Nat) : Nat := 0x28700208 + v * 0x200
def EVC_WIN_REC (v r w : Nat) : Nat := 0x28700300 + v * 0x200 + r * 0x20 + w * 0x4
def EVC_CLAIM (t : Nat) : Nat := 0x28700800 + t * 0x4
def EVC_ERR_STATE (f : Nat) : Nat := 0x28700900 + f * 0x10
def EVC_ERR_PRI (f : Nat) : Nat := 0x28700904 + f * 0x10
def EVC_ERR_SEC (f : Nat) : Nat := 0x28700908 + f * 0x10
def EVC_ERR_TARGET (f : Nat) : Nat := 0x2870090C + f * 0x10
def EVC_SRC (n : Nat) : Nat := 0x28701000 + n * 0x4
def PWR_ID : Nat := 0x28D00000
def PWR_STATUS : Nat := 0x28D00004
def PWR_CAUSE : Nat := 0x28D00008
def PWR_RESET : Nat := 0x28D0000C
def PWR_LATCH : Nat := 0x28D00010
def PWR_CTRL : Nat := 0x28D00014
def SIF_FAULT : Nat := 0x28D00020
def SIF_LEVEL : Nat := 0x28D00024
def SIF_GLITCH_0 : Nat := 0x28D00028
def SIF_GLITCH_1 : Nat := 0x28D0002C
def SIF_CFG_A (n : Nat) : Nat := 0x28D00100 + n * 0x8
def SIF_CFG_B (n : Nat) : Nat := 0x28D00104 + n * 0x8

/-- Access codes of R13 (Table "Register access codes"). -/
inductive Access where
  | ro | rw | wo | w1c | w1s | rc
  deriving DecidableEq, Repr

/-- Who a register answers to: any initiator, Crucible alone (R15), or the ROM routine alone (R482). -/
inductive Answers where
  | any | crucible | romRoutine
  deriving DecidableEq, Repr

/-- One row of the register map. `base` is an offset from the window; the three `(count, stride)` pairs give the
array the row stands for (count 1, stride 0 where there is no index). `mask` holds the bits of the defined writable
fields; `act` those among them that only a command of their own carries out (GO, ENABLE, HOLD and the like). -/
structure Row where
  name : String
  base : Nat
  n1 : Nat
  s1 : Nat
  n2 : Nat
  s2 : Nat
  n3 : Nat
  s3 : Nat
  access : Access
  who : Answers
  rst : Word
  mask : Word
  act : Word
  deriving DecidableEq, Repr

/-- Rows of the NET window (spec/02 R66), part 1. -/
def netRows1 : List Row := [
  ⟨"NET_ID", 0x0, 1, 0x0, 1, 0x0, 1, 0x0, .ro, .any, 0x9600102, 0x0, 0x0⟩,
  ⟨"NET_CTRL", 0x4, 1, 0x0, 1, 0x0, 1, 0x0, .rw, .any, 0x0, 0x10033, 0x10033⟩,
  ⟨"NET_STATUS", 0x8, 1, 0x0, 1, 0x0, 1, 0x0, .ro, .any, 0x0, 0x0, 0x0⟩,
  ⟨"NET_EVENT_STATUS", 0xC, 1, 0x0, 1, 0x0, 1, 0x0, .w1c, .any, 0x0, 0x3FFF, 0x0⟩,
  ⟨"NET_EVENT_ENABLE", 0x10, 1, 0x0, 1, 0x0, 1, 0x0, .rw, .any, 0x0, 0x3FFF, 0x0⟩,
  ⟨"NET_QPN_BASE", 0x20, 1, 0x0, 1, 0x0, 1, 0x0, .rw, .any, 0x1, 0x3FF, 0x0⟩,
  ⟨"NET_QPC_BASE_LO", 0x28, 1, 0x0, 1, 0x0, 1, 0x0, .rw, .any, 0x0, 0xFFC00000, 0x0⟩,
  ⟨"NET_QPC_BASE_HI", 0x2C, 1, 0x0, 1, 0x0, 1, 0x0, .rw, .any, 0x0, 0xFF, 0x0⟩,
  ⟨"NET_QP_ERR_FIFO", 0x30, 1, 0x0, 1, 0x0, 1, 0x0, .rc, .any, 0x0, 0x0, 0x0⟩,
  ⟨"NET_BAD_QPN", 0x34, 1, 0x0, 1, 0x0, 1, 0x0, .rc, .any, 0x0, 0x0, 0x0⟩,
  ⟨"NET_CACHE_DROP", 0x38, 1, 0x0, 1, 0x0, 1, 0x0, .rc, .any, 0x0, 0x0, 0x0⟩,
  ⟨"NET_CACHE_STATUS", 0x3C, 1, 0x0, 1, 0x0, 1, 0x0, .ro, .any, 0x0, 0x0, 0x0⟩,
  ⟨"NET_CC_CFG", 0x40, 1, 0x0, 1, 0x0, 1, 0x0, .rw, .any, 0x323201, 0xFFFF01, 0x0⟩,
  ⟨"NET_CC_RATE", 0x44, 1, 0x0, 1, 0x0, 1, 0x0, .rw, .any, 0xA37000A, 0xFFFF0FFF, 0x0⟩,
  ⟨"NET_RAW_BASE", 0x50, 1, 0x0, 1, 0x0, 1, 0x0, .rw, .any, 0x0, 0xFFFFFFFF, 0x0⟩,
  ⟨"NET_RAW_SIZE", 0x54, 1, 0x0, 1, 0x0, 1, 0x0, .rw, .any, 0x8, 0xFFFFFFFF, 0x0⟩,
  ⟨"NET_RAW_PROD", 0x58, 1, 0x0, 1, 0x0, 1, 0x0, .ro, .any, 0x0, 0x0, 0x0⟩,
  ⟨"NET_RAW_CONS", 0x5C, 1, 0x0, 1, 0x0, 1, 0x0, .rw, .any, 0x0, 0x1FFF, 0x0⟩,
  ⟨"NET_RAW_DROP", 0x60, 1, 0x0, 1, 0x0, 1, 0x0, .rc, .any, 0x0, 0x0, 0x0⟩,
  ⟨"NET_Px_CFG", 0x100, 2, 0x40, 1, 0x0, 1, 0x0, .rw, .any, 0x1, 0x3, 0x0⟩,
  ⟨"NET_Px_MAC_LO", 0x104, 2, 0x40, 1, 0x0, 1, 0x0, .rw, .any, 0x0, 0xFFFFFFFF, 0x0⟩,
  ⟨"NET_Px_MAC_HI", 0x108, 2, 0x40, 1, 0x0, 1, 0x0, .rw, .any, 0x0, 0xFFFF, 0x0⟩,
  ⟨"NET_Px_PFC", 0x10C, 2, 0x40, 1, 0x0, 1, 0x0, .rw, .any, 0x640308, 0xFFFF07FF, 0x0⟩,
  ⟨"NET_Px_BUF_THR", 0x110, 2, 0x40, 1, 0x0, 1, 0x0, .rw, .any, 0x8000C0, 0xFFFFFFFF, 0x0⟩,
  ⟨"NET_Px_FEC_CORR", 0x114, 2, 0x40, 1, 0x0, 1, 0x0, .rc, .any, 0x0, 0x0, 0x0⟩,
  ⟨"NET_Px_FEC_UNCORR", 0x118, 2, 0x40, 1, 0x0, 1, 0x0, .rc, .any, 0x0, 0x0, 0x0⟩,
  ⟨"NET_Px_FEC_THR", 0x11C, 2, 0x40, 1, 0x0, 1, 0x0, .rw, .any, 0x10, 0xFFFFFFFF, 0x0⟩,
  ⟨"NET_Px_RX_DROP", 0x120, 2, 0x40, 1, 0x0, 1, 0x0, .rc, .any, 0x0, 0x0, 0x0⟩,
  ⟨"NET_MBX_m_BASE", 0x1000, 256, 0x10, 1, 0x0, 1, 0x0, .rw, .any, 0x0, 0xFFFFFFFF, 0x0⟩,
  ⟨"NET_MBX_m_DESC", 0x1004, 256, 0x10, 1, 0x0, 1, 0x0, .rw, .any, 0x0, 0xFFFFFFFF, 0x0⟩]

/-- Rows of the NET window (spec/02 R66), part 2. -/
def netRows2 : List Row := [
  ⟨"NET_MBX_m_PROD", 0x1008, 256, 0x10, 1, 0x0, 1, 0x0, .ro, .any, 0x0, 0x0, 0x0⟩,
  ⟨"NET_MBX_m_CONS", 0x100C, 256, 0x10, 1, 0x0, 1, 0x0, .rw, .any, 0x0, 0xF1FFF, 0x0⟩,
  ⟨"NET_GID_p_g_w", 0x2000, 2, 0x100, 8, 0x10, 4, 0x4, .rw, .any, 0x0, 0xFFFFFFFF, 0x0⟩,
  ⟨"NET_GID_p_g_w", 0x2080, 2, 0x100, 8, 0x10, 1, 0x0, .rw, .any, 0x0, 0xC03F0FFF, 0x0⟩]

/-- Rows of the NET window (spec/02 R66). -/
def netRows : List Row := netRows1 ++ netRows2

/-- Rows of the SYS window (spec/05 R175, spec/09 R283, spec/15 R443, spec/16 R454, spec/17 R477, spec/18 R491, spec/20 R545, spec/21 R572), part 1. -/
def sysRows1 : List Row := [
  ⟨"SQ_BASE_LO_s", 0x800000, 16384, 0x20, 1, 0x0, 1, 0x0, .rw, .any, 0x0, 0xFFFFF000, 0x0⟩,
  ⟨"SQ_BASE_HI_s", 0x800004, 16384, 0x20, 1, 0x0, 1, 0x0, .rw, .any, 0x0, 0xFF, 0x0⟩,
  ⟨"SQ_CFG_s", 0x800008, 16384, 0x20, 1, 0x0, 1, 0x0, .rw, .any, 0x0, 0x8FFF37FF, 0x80000000⟩,
  ⟨"SQ_STATE_s", 0x80000C, 16384, 0x20, 1, 0x0, 1, 0x0, .ro, .any, 0x0, 0x0, 0x0⟩,
  ⟨"SQ_PROD_s", 0x800010, 16384, 0x20, 1, 0x0, 1, 0x0, .ro, .any, 0x0, 0x0, 0x0⟩,
  ⟨"SQ_FETCH_s", 0x800014, 16384, 0x20, 1, 0x0, 1, 0x0, .ro, .any, 0x0, 0x0, 0x0⟩,
  ⟨"SQ_DONE_s", 0x800018, 16384, 0x20, 1, 0x0, 1, 0x0, .ro, .any, 0x0, 0x0, 0x0⟩,
  ⟨"CQ_BASE_LO_c", 0x900000, 4096, 0x20, 1, 0x0, 1, 0x0, .rw, .any, 0x0, 0xFFFFF000, 0x0⟩,
  ⟨"CQ_BASE_HI_c", 0x900004, 4096, 0x20, 1, 0x0, 1, 0x0, .rw, .any, 0x0, 0xFF, 0x0⟩,
  ⟨"CQ_CFG_c", 0x900008, 4096, 0x20, 1, 0x0, 1, 0x0, .rw, .any, 0x0, 0x80000F0F, 0x80000000⟩,
  ⟨"CQ_STATE_c", 0x90000C, 4096, 0x20, 1, 0x0, 1, 0x0, .ro, .any, 0x0, 0x0, 0x0⟩,
  ⟨"CQ_PROD_c", 0x900010, 4096, 0x20, 1, 0x0, 1, 0x0, .ro, .any, 0x0, 0x0, 0x0⟩,
  ⟨"CQ_CONS_c", 0x900014, 4096, 0x20, 1, 0x0, 1, 0x0, .ro, .any, 0x0, 0x0, 0x0⟩,
  ⟨"SQ_DOORBELL_s", 0xA00000, 16384, 0x4, 1, 0x0, 1, 0x0, .wo, .any, 0x0, 0x0, 0x0⟩,
  ⟨"CQ_DOORBELL_c", 0xA10000, 4096, 0x4, 1, 0x0, 1, 0x0, .wo, .any, 0x0, 0x0, 0x0⟩,
  ⟨"RING_ID", 0xB00000, 1, 0x0, 1, 0x0, 1, 0x0, .ro, .any, 0x9600801, 0x0, 0x0⟩,
  ⟨"RING_EVENT_STATUS", 0xB00004, 1, 0x0, 1, 0x0, 1, 0x0, .w1c, .any, 0x0, 0x1F, 0x0⟩,
  ⟨"RING_EVENT_ENABLE", 0xB00008, 1, 0x0, 1, 0x0, 1, 0x0, .rw, .any, 0x0, 0x1F, 0x0⟩,
  ⟨"RING_ERR_FIFO", 0xB0000C, 1, 0x0, 1, 0x0, 1, 0x0, .rc, .any, 0x0, 0x0, 0x0⟩,
  ⟨"RING_CTRL", 0xB00010, 1, 0x0, 1, 0x0, 1, 0x0, .rw, .any, 0x8, 0xF, 0x0⟩,
  ⟨"RING_SPILL_f", 0xB00040, 8, 0x4, 1, 0x0, 1, 0x0, .ro, .any, 0x0, 0x0, 0x0⟩,
  ⟨"ZONE_ID", 0xC00000, 1, 0x0, 1, 0x0, 1, 0x0, .ro, .any, 0x9600901, 0x0, 0x0⟩,
  ⟨"ZONE_CTRL", 0xC00004, 1, 0x0, 1, 0x0, 1, 0x0, .rw, .any, 0x0, 0x1, 0x1⟩,
  ⟨"ZONE_STATUS", 0xC00008, 1, 0x0, 1, 0x0, 1, 0x0, .ro, .any, 0x0, 0x0, 0x0⟩,
  ⟨"ZONE_EVENT_STATUS", 0xC0000C, 1, 0x0, 1, 0x0, 1, 0x0, .w1c, .any, 0x0, 0x1F, 0x0⟩,
  ⟨"ZONE_EVENT_ENABLE", 0xC00010, 1, 0x0, 1, 0x0, 1, 0x0, .rw, .any, 0x0, 0x1F, 0x0⟩,
  ⟨"ZONE_TAB_BASE_LO", 0xC00014, 1, 0x0, 1, 0x0, 1, 0x0, .rw, .any, 0x0, 0xFF000000, 0x0⟩,
  ⟨"ZONE_TAB_BASE_HI", 0xC00018, 1, 0x0, 1, 0x0, 1, 0x0, .rw, .any, 0x0, 0xFF, 0x0⟩,
  ⟨"ZONE_COUNT", 0xC0001C, 1, 0x0, 1, 0x0, 1, 0x0, .rw, .any, 0x80000, 0xFFFFF, 0x0⟩,
  ⟨"ZONE_DEF_BASE_LO", 0xC00020, 1, 0x0, 1, 0x0, 1, 0x0, .rw, .any, 0x0, 0xFFFFF000, 0x0⟩]

/-- Rows of the SYS window (spec/05 R175, spec/09 R283, spec/15 R443, spec/16 R454, spec/17 R477, spec/18 R491, spec/20 R545, spec/21 R572), part 2. -/
def sysRows2 : List Row := [
  ⟨"ZONE_DEF_BASE_HI", 0xC00024, 1, 0x0, 1, 0x0, 1, 0x0, .rw, .any, 0x0, 0xFF, 0x0⟩,
  ⟨"ZONE_DEF_SIZE", 0xC00028, 1, 0x0, 1, 0x0, 1, 0x0, .rw, .any, 0x0, 0xFFFFFF, 0x0⟩,
  ⟨"ZONE_CMD", 0xC00030, 1, 0x0, 1, 0x0, 1, 0x0, .rw, .any, 0x0, 0x80F7FFFF, 0x80000000⟩,
  ⟨"ZONE_CMD_RESULT", 0xC00034, 1, 0x0, 1, 0x0, 1, 0x0, .ro, .any, 0x0, 0x0, 0x0⟩,
  ⟨"ZONE_WP_FAULTS", 0xC00038, 1, 0x0, 1, 0x0, 1, 0x0, .rc, .any, 0x0, 0x0, 0x0⟩,
  ⟨"ZONE_OFFER_REQ", 0xC00040, 1, 0x0, 1, 0x0, 1, 0x0, .rw, .any, 0x0, 0x1FFFF, 0x0⟩,
  ⟨"ZONE_OFFER_HEADS", 0xC00044, 1, 0x0, 1, 0x0, 1, 0x0, .rw, .any, 0xFFFFFF, 0xFFFFFF, 0x0⟩,
  ⟨"ZONE_OFFER", 0xC00048, 1, 0x0, 1, 0x0, 1, 0x0, .ro, .any, 0x0, 0x0, 0x0⟩,
  ⟨"ZONE_OFFER_SCORE", 0xC0004C, 1, 0x0, 1, 0x0, 1, 0x0, .ro, .any, 0x0, 0x0, 0x0⟩,
  ⟨"ZONE_PLACE_CFG", 0xC00050, 1, 0x0, 1, 0x0, 1, 0x0, .rw, .any, 0x100064, 0xFFFFFFFF, 0x0⟩,
  ⟨"ZONE_CTX_a_k", 0xC00100, 2, 0x40, 16, 0x4, 1, 0x0, .ro, .any, 0x0, 0x0, 0x0⟩,
  ⟨"ZONE_RWP_a_k", 0xC00200, 2, 0x40, 16, 0x4, 1, 0x0, .ro, .any, 0x0, 0x0, 0x0⟩,
  ⟨"TH_ID", 0x100000, 1, 0x0, 1, 0x0, 1, 0x0, .ro, .any, 0x9600F01, 0x0, 0x0⟩,
  ⟨"TH_CTRL", 0x100004, 1, 0x0, 1, 0x0, 1, 0x0, .rw, .any, 0x30502, 0xFFF03, 0x0⟩,
  ⟨"TH_STATUS", 0x100008, 1, 0x0, 1, 0x0, 1, 0x0, .ro, .any, 0x41000, 0x0, 0x0⟩,
  ⟨"TH_EVENT_STATUS", 0x10000C, 1, 0x0, 1, 0x0, 1, 0x0, .w1c, .any, 0x0, 0xFF, 0x0⟩,
  ⟨"TH_EVENT_ENABLE", 0x100010, 1, 0x0, 1, 0x0, 1, 0x0, .rw, .any, 0x0, 0xFF, 0x0⟩,
  ⟨"TH_EXCLUDED", 0x100014, 1, 0x0, 1, 0x0, 1, 0x0, .w1c, .any, 0x0, 0xFFFFF, 0xFFFFF⟩,
  ⟨"TH_AMBIENT", 0x100018, 1, 0x0, 1, 0x0, 1, 0x0, .rw, .any, 0x280, 0xFFFF, 0x0⟩,
  ⟨"TH_PEAK", 0x10001C, 1, 0x0, 1, 0x0, 1, 0x0, .ro, .any, 0x0, 0x0, 0x0⟩,
  ⟨"TH_QUENCH_INFO", 0x100020, 1, 0x0, 1, 0x0, 1, 0x0, .w1c, .any, 0x0, 0x80, 0x0⟩,
  ⟨"TH_SENSOR_s", 0x100100, 20, 0x4, 1, 0x0, 1, 0x0, .ro, .any, 0x0, 0x0, 0x0⟩,
  ⟨"TH_NODE_i", 0x100200, 24, 0x4, 1, 0x0, 1, 0x0, .ro, .any, 0x0, 0x0, 0x0⟩,
  ⟨"TH_LIMIT_i", 0x100300, 24, 0x4, 1, 0x0, 1, 0x0, .rw, .any, 0x6E00640, 0xFFFFFFFF, 0x0⟩,
  ⟨"TH_NODE_KC_i", 0x100400, 24, 0x4, 1, 0x0, 1, 0x0, .rw, .any, 0x15, 0xFFFFFF, 0x0⟩,
  ⟨"TH_EDGE_e", 0x100500, 48, 0x4, 1, 0x0, 1, 0x0, .rw, .any, 0x0, 0xFFFF1F1F, 0x0⟩,
  ⟨"BA_ID", 0x200000, 1, 0x0, 1, 0x0, 1, 0x0, .ro, .any, 0x9601001, 0x0, 0x0⟩,
  ⟨"BA_CTRL", 0x200004, 1, 0x0, 1, 0x0, 1, 0x0, .rw, .any, 0xB, 0xF, 0x0⟩,
  ⟨"BA_CAP", 0x200008, 1, 0x0, 1, 0x0, 1, 0x0, .rw, .any, 0x2EE0, 0xFFFF, 0x0⟩,
  ⟨"BA_DERATE", 0x20000C, 1, 0x0, 1, 0x0, 1, 0x0, .rw, .any, 0x32, 0xFFFF, 0x0⟩]

/-- Rows of the SYS window (spec/05 R175, spec/09 R283, spec/15 R443, spec/16 R454, spec/17 R477, spec/18 R491, spec/20 R545, spec/21 R572), part 3. -/
def sysRows3 : List Row := [
  ⟨"BA_FIXED", 0x200010, 1, 0x0, 1, 0x0, 1, 0x0, .rw, .any, 0x41770, 0xFFFFF, 0x0⟩,
  ⟨"BA_STATUS", 0x200014, 1, 0x0, 1, 0x0, 1, 0x0, .ro, .any, 0x2EE0, 0x0, 0x0⟩,
  ⟨"BA_POWER", 0x200018, 1, 0x0, 1, 0x0, 1, 0x0, .ro, .any, 0x0, 0x0, 0x0⟩,
  ⟨"BA_TRIM", 0x20001C, 1, 0x0, 1, 0x0, 1, 0x0, .ro, .any, 0x0, 0x0, 0x0⟩,
  ⟨"BA_P5", 0x200020, 1, 0x0, 1, 0x0, 1, 0x0, .rw, .any, 0x0, 0xFFFF, 0x0⟩,
  ⟨"BA_FUNC_f", 0x200048, 1, 0x0, 1, 0x0, 1, 0x0, .rw, .any, 0x7D00003, 0xFFFF00FF, 0x0⟩,
  ⟨"BA_FUNC_f", 0x20004C, 1, 0x0, 1, 0x0, 1, 0x0, .rw, .any, 0x7D00003, 0xFFFF00FF, 0x0⟩,
  ⟨"BA_FUNC_f", 0x200050, 1, 0x0, 1, 0x0, 1, 0x0, .rw, .any, 0x7D00002, 0xFFFF00FF, 0x0⟩,
  ⟨"BA_FUNC_f", 0x200054, 1, 0x0, 1, 0x0, 1, 0x0, .rw, .any, 0x7D00002, 0xFFFF00FF, 0x0⟩,
  ⟨"BA_BAL_f", 0x200060, 8, 0x4, 1, 0x0, 1, 0x0, .ro, .any, 0x0, 0x0, 0x0⟩,
  ⟨"BA_GRANT_f", 0x200080, 8, 0x4, 1, 0x0, 1, 0x0, .ro, .any, 0x0, 0x0, 0x0⟩,
  ⟨"BA_COST_MED", 0x2000A0, 1, 0x0, 1, 0x0, 1, 0x0, .rw, .any, 0xC80A06, 0xFFFFFFFF, 0x0⟩,
  ⟨"BA_COST_SEEK", 0x2000A4, 1, 0x0, 1, 0x0, 1, 0x0, .rw, .any, 0x12C, 0xFFFF, 0x0⟩,
  ⟨"BA_COST_STG", 0x2000A8, 1, 0x0, 1, 0x0, 1, 0x0, .rw, .any, 0xB41908, 0xFFFFFFFF, 0x0⟩,
  ⟨"BA_COST_XFM", 0x2000AC, 1, 0x0, 1, 0x0, 1, 0x0, .rw, .any, 0xD, 0xFFFF, 0x0⟩,
  ⟨"BA_HEAD_CFG", 0x2000B0, 1, 0x0, 1, 0x0, 1, 0x0, .rw, .any, 0x8, 0xF, 0x0⟩,
  ⟨"BA_SCHED_CFG", 0x2000B4, 1, 0x0, 1, 0x0, 1, 0x0, .rw, .any, 0x60064, 0xFFFFFF, 0x0⟩,
  ⟨"BA_HEADROOM_a", 0x2000B8, 2, 0x4, 1, 0x0, 1, 0x0, .ro, .any, 0x0, 0x0, 0x0⟩,
  ⟨"BA_SCHED_LAST_a", 0x2000C0, 2, 0x4, 1, 0x0, 1, 0x0, .ro, .any, 0x0, 0x0, 0x0⟩,
  ⟨"BA_HEAD_a_h", 0x200100, 2, 0x40, 12, 0x4, 1, 0x0, .rw, .any, 0x5000280, 0xFFFFFFFF, 0x0⟩,
  ⟨"BA_HEAT_a_h", 0x200180, 2, 0x40, 12, 0x4, 1, 0x0, .ro, .any, 0x0, 0x0, 0x0⟩,
  ⟨"BA_METER_m", 0x200200, 15, 0x4, 1, 0x0, 1, 0x0, .ro, .any, 0x0, 0x0, 0x0⟩,
  ⟨"BA_SEEK_k", 0x200300, 16, 0x4, 1, 0x0, 1, 0x0, .rw, .any, 0x0, 0xFFFFFFFF, 0x0⟩,
  ⟨"AV_ID", 0x300000, 1, 0x0, 1, 0x0, 1, 0x0, .ro, .any, 0x9601101, 0x0, 0x0⟩,
  ⟨"AV_CTRL", 0x300004, 1, 0x0, 1, 0x0, 1, 0x0, .rw, .any, 0x301801, 0xFFFF01, 0x0⟩,
  ⟨"AV_FREQ_REQ", 0x300008, 1, 0x0, 1, 0x0, 1, 0x0, .rw, .any, 0x7D0, 0xFFF, 0x0⟩,
  ⟨"AV_STATUS", 0x30000C, 1, 0x0, 1, 0x0, 1, 0x0, .ro, .any, 0x1900050, 0x0, 0x0⟩,
  ⟨"AV_SLACK", 0x300010, 1, 0x0, 1, 0x0, 1, 0x0, .ro, .any, 0x0, 0x0, 0x0⟩,
  ⟨"AV_DROOPS", 0x300014, 1, 0x0, 1, 0x0, 1, 0x0, .rc, .any, 0x0, 0x0, 0x0⟩,
  ⟨"AV_LIMITS", 0x300018, 1, 0x0, 1, 0x0, 1, 0x0, .rc, .any, 0x0, 0x0, 0x0⟩]

/-- Rows of the SYS window (spec/05 R175, spec/09 R283, spec/15 R443, spec/16 R454, spec/17 R477, spec/18 R491, spec/20 R545, spec/21 R572), part 4. -/
def sysRows4 : List Row := [
  ⟨"CAL_ID", 0x400000, 1, 0x0, 1, 0x0, 1, 0x0, .ro, .any, 0x9601201, 0x0, 0x0⟩,
  ⟨"CAL_CTRL", 0x400004, 1, 0x0, 1, 0x0, 1, 0x0, .rw, .any, 0x0, 0x1, 0x0⟩,
  ⟨"CAL_STATUS", 0x400008, 1, 0x0, 1, 0x0, 1, 0x0, .ro, .any, 0x0, 0x0, 0x0⟩,
  ⟨"CAL_EVENT_STATUS", 0x40000C, 1, 0x0, 1, 0x0, 1, 0x0, .w1c, .any, 0x0, 0x3F, 0x0⟩,
  ⟨"CAL_EVENT_ENABLE", 0x400010, 1, 0x0, 1, 0x0, 1, 0x0, .rw, .any, 0x0, 0x3F, 0x0⟩,
  ⟨"CAL_REQ", 0x400014, 1, 0x0, 1, 0x0, 1, 0x0, .w1s, .any, 0x0, 0xFF, 0xFF⟩,
  ⟨"CAL_SUB_CFG_s", 0x400100, 1, 0x0, 1, 0x0, 1, 0x0, .rw, .any, 0x384, 0xFFFFFFDF, 0x0⟩,
  ⟨"CAL_SUB_CFG_s", 0x400120, 1, 0x0, 1, 0x0, 1, 0x0, .rw, .any, 0x385, 0xFFFFFFDF, 0x0⟩,
  ⟨"CAL_SUB_CFG_s", 0x400140, 1, 0x0, 1, 0x0, 1, 0x0, .rw, .any, 0x7D00696, 0xFFFFFFDF, 0x0⟩,
  ⟨"CAL_SUB_CFG_s", 0x400160, 1, 0x0, 1, 0x0, 1, 0x0, .rw, .any, 0x7D00696, 0xFFFFFFDF, 0x0⟩,
  ⟨"CAL_SUB_CFG_s", 0x400180, 1, 0x0, 1, 0x0, 1, 0x0, .rw, .any, 0x1F40586, 0xFFFFFFDF, 0x0⟩,
  ⟨"CAL_SUB_CFG_s", 0x4001A0, 1, 0x0, 1, 0x0, 1, 0x0, .rw, .any, 0x488, 0xFFFFFFDF, 0x0⟩,
  ⟨"CAL_SUB_CFG_s", 0x4001C0, 1, 0x0, 1, 0x0, 1, 0x0, .rw, .any, 0x581, 0xFFFFFFDF, 0x0⟩,
  ⟨"CAL_SUB_CFG_s", 0x4001E0, 1, 0x0, 1, 0x0, 1, 0x0, .rw, .any, 0x581, 0xFFFFFFDF, 0x0⟩,
  ⟨"CAL_SUB_TIME_s", 0x400104, 8, 0x20, 1, 0x0, 1, 0x0, .rw, .any, 0x13880E10, 0xFFFFFFFF, 0x0⟩,
  ⟨"CAL_SUB_LAST_s", 0x400108, 8, 0x20, 1, 0x0, 1, 0x0, .ro, .any, 0x8000, 0x0, 0x0⟩,
  ⟨"CAL_SUB_COUNT_s", 0x40010C, 8, 0x20, 1, 0x0, 1, 0x0, .rc, .any, 0x0, 0x0, 0x0⟩,
  ⟨"CAL_SUB_AGE_s", 0x400110, 8, 0x20, 1, 0x0, 1, 0x0, .ro, .any, 0x0, 0x0, 0x0⟩,
  ⟨"CAL_FH_CFG_a", 0x400200, 2, 0x4, 1, 0x0, 1, 0x0, .rw, .any, 0x3080814, 0xFFFFFFF, 0x0⟩,
  ⟨"CAL_FH_HEAD_a_h", 0x400300, 2, 0x40, 12, 0x4, 1, 0x0, .rw, .any, 0x0, 0x9FFF, 0x0⟩,
  ⟨"MEM_ID", 0x500000, 1, 0x0, 1, 0x0, 1, 0x0, .ro, .any, 0x9601301, 0x0, 0x0⟩,
  ⟨"MEM_CFG", 0x500004, 1, 0x0, 1, 0x0, 1, 0x0, .rw, .any, 0x100, 0xFFFF, 0x0⟩,
  ⟨"MEM_STATUS", 0x500008, 1, 0x0, 1, 0x0, 1, 0x0, .ro, .any, 0x0, 0x0, 0x0⟩,
  ⟨"MEM_EVENT_STATUS", 0x50000C, 1, 0x0, 1, 0x0, 1, 0x0, .w1c, .any, 0x0, 0x7F, 0x0⟩,
  ⟨"MEM_EVENT_ENABLE", 0x500010, 1, 0x0, 1, 0x0, 1, 0x0, .rw, .any, 0x0, 0x7F, 0x0⟩,
  ⟨"MEM_DRAM_CFG", 0x500014, 1, 0x0, 1, 0x0, 1, 0x0, .rw, .any, 0x3, 0x17, 0x0⟩,
  ⟨"MEM_RETAIN", 0x500018, 1, 0x0, 1, 0x0, 1, 0x0, .rw, .crucible, 0x0, 0x1, 0x0⟩,
  ⟨"MEM_SCRUB_CTRL", 0x500020, 1, 0x0, 1, 0x0, 1, 0x0, .rw, .any, 0x1002, 0xFF07, 0x5⟩,
  ⟨"MEM_SCRUB_BASE_LO", 0x500024, 1, 0x0, 1, 0x0, 1, 0x0, .rw, .any, 0x0, 0xFFFFFFF8, 0x0⟩,
  ⟨"MEM_SCRUB_BASE_HI", 0x500028, 1, 0x0, 1, 0x0, 1, 0x0, .rw, .any, 0x0, 0xFF, 0x0⟩]

/-- Rows of the SYS window (spec/05 R175, spec/09 R283, spec/15 R443, spec/16 R454, spec/17 R477, spec/18 R491, spec/20 R545, spec/21 R572), part 5. -/
def sysRows5 : List Row := [
  ⟨"MEM_SCRUB_LIMIT_LO", 0x50002C, 1, 0x0, 1, 0x0, 1, 0x0, .rw, .any, 0x0, 0xFFFFFFF8, 0x0⟩,
  ⟨"MEM_SCRUB_LIMIT_HI", 0x500030, 1, 0x0, 1, 0x0, 1, 0x0, .rw, .any, 0x0, 0xFF, 0x0⟩,
  ⟨"MEM_SCRUB_STATUS", 0x500034, 1, 0x0, 1, 0x0, 1, 0x0, .ro, .any, 0x0, 0x0, 0x0⟩,
  ⟨"MEM_SCRUB_WORDS_LO", 0x500038, 1, 0x0, 1, 0x0, 1, 0x0, .ro, .any, 0x0, 0x0, 0x0⟩,
  ⟨"MEM_SCRUB_WORDS_HI", 0x50003C, 1, 0x0, 1, 0x0, 1, 0x0, .ro, .any, 0x0, 0x0, 0x0⟩,
  ⟨"MEM_SCRUB_CORR", 0x500040, 1, 0x0, 1, 0x0, 1, 0x0, .ro, .any, 0x0, 0x0, 0x0⟩,
  ⟨"MEM_SCRUB_UNCORR", 0x500044, 1, 0x0, 1, 0x0, 1, 0x0, .ro, .any, 0x0, 0x0, 0x0⟩,
  ⟨"MEM_SCRUB_FIRST_LO", 0x500048, 1, 0x0, 1, 0x0, 1, 0x0, .ro, .any, 0x0, 0x0, 0x0⟩,
  ⟨"MEM_SCRUB_FIRST_HI", 0x50004C, 1, 0x0, 1, 0x0, 1, 0x0, .ro, .any, 0x0, 0x0, 0x0⟩,
  ⟨"MEM_SCRUB_LAST_LO", 0x500050, 1, 0x0, 1, 0x0, 1, 0x0, .ro, .any, 0x0, 0x0, 0x0⟩,
  ⟨"MEM_SCRUB_LAST_HI", 0x500054, 1, 0x0, 1, 0x0, 1, 0x0, .ro, .any, 0x0, 0x0, 0x0⟩,
  ⟨"MEM_VOTE_DISAGREE", 0x500060, 1, 0x0, 1, 0x0, 1, 0x0, .rc, .any, 0x0, 0x0, 0x0⟩,
  ⟨"MEM_VOTE_LAST", 0x500064, 1, 0x0, 1, 0x0, 1, 0x0, .ro, .any, 0x0, 0x0, 0x0⟩,
  ⟨"MEM_m_CORR", 0x500100, 13, 0x20, 1, 0x0, 1, 0x0, .rc, .any, 0x0, 0x0, 0x0⟩,
  ⟨"MEM_m_UNCORR", 0x500104, 13, 0x20, 1, 0x0, 1, 0x0, .rc, .any, 0x0, 0x0, 0x0⟩,
  ⟨"MEM_m_TAB_STATUS", 0x500108, 13, 0x20, 1, 0x0, 1, 0x0, .ro, .any, 0x0, 0x0, 0x0⟩,
  ⟨"MEM_m_TAB_OVF", 0x50010C, 13, 0x20, 1, 0x0, 1, 0x0, .rc, .any, 0x0, 0x0, 0x0⟩,
  ⟨"MEM_m_TAB_CLR", 0x500110, 13, 0x20, 1, 0x0, 1, 0x0, .wo, .any, 0x0, 0x0, 0x0⟩,
  ⟨"MEM_m_TAB_e_LO", 0x501000, 13, 0x100, 32, 0x8, 1, 0x0, .ro, .any, 0x0, 0x0, 0x0⟩,
  ⟨"MEM_m_TAB_e_HI", 0x501004, 13, 0x100, 32, 0x8, 1, 0x0, .ro, .any, 0x0, 0x0, 0x0⟩,
  ⟨"CFX_ID", 0x600000, 1, 0x0, 1, 0x0, 1, 0x0, .ro, .any, 0x9601501, 0x0, 0x0⟩,
  ⟨"CFX_CTRL", 0x600004, 1, 0x0, 1, 0x0, 1, 0x0, .rw, .any, 0x3, 0x3, 0x0⟩,
  ⟨"CFX_STATUS", 0x600008, 1, 0x0, 1, 0x0, 1, 0x0, .ro, .any, 0x0, 0x0, 0x0⟩,
  ⟨"CFX_PF_HITS", 0x60000C, 1, 0x0, 1, 0x0, 1, 0x0, .rc, .any, 0x0, 0x0, 0x0⟩,
  ⟨"CFX_BC_HITS", 0x600010, 1, 0x0, 1, 0x0, 1, 0x0, .rc, .any, 0x0, 0x0, 0x0⟩,
  ⟨"CFX_MISSES", 0x600014, 1, 0x0, 1, 0x0, 1, 0x0, .rc, .any, 0x0, 0x0, 0x0⟩,
  ⟨"CFX_WAITS", 0x600018, 1, 0x0, 1, 0x0, 1, 0x0, .rc, .any, 0x0, 0x0, 0x0⟩,
  ⟨"CFX_INVAL", 0x60001C, 1, 0x0, 1, 0x0, 1, 0x0, .rc, .any, 0x0, 0x0, 0x0⟩,
  ⟨"EVC_ID", 0x700000, 1, 0x0, 1, 0x0, 1, 0x0, .ro, .any, 0x9601601, 0x0, 0x0⟩,
  ⟨"EVC_CTRL", 0x700004, 1, 0x0, 1, 0x0, 1, 0x0, .rw, .any, 0xFA0001, 0xFFFF0003, 0x2⟩]

/-- Rows of the SYS window (spec/05 R175, spec/09 R283, spec/15 R443, spec/16 R454, spec/17 R477, spec/18 R491, spec/20 R545, spec/21 R572), part 6. -/
def sysRows6 : List Row := [
  ⟨"EVC_STATUS", 0x700008, 1, 0x0, 1, 0x0, 1, 0x0, .ro, .any, 0x0, 0x0, 0x0⟩,
  ⟨"EVC_SVC_EVENT_STATUS", 0x70000C, 1, 0x0, 1, 0x0, 1, 0x0, .w1c, .any, 0x0, 0xFF03FF, 0x0⟩,
  ⟨"EVC_SVC_EVENT_ENABLE", 0x700010, 1, 0x0, 1, 0x0, 1, 0x0, .rw, .any, 0x0, 0xFF03FF, 0x0⟩,
  ⟨"EVC_FENCE", 0x700014, 1, 0x0, 1, 0x0, 1, 0x0, .ro, .any, 0x0, 0x0, 0x0⟩,
  ⟨"EVC_RFAULT", 0x700018, 1, 0x0, 1, 0x0, 1, 0x0, .w1s, .crucible, 0x0, 0x1, 0x1⟩,
  ⟨"EVC_TIME_LO", 0x70001C, 1, 0x0, 1, 0x0, 1, 0x0, .ro, .any, 0x0, 0x0, 0x0⟩,
  ⟨"EVC_TIME_HI", 0x700020, 1, 0x0, 1, 0x0, 1, 0x0, .ro, .any, 0x80000000, 0x0, 0x0⟩,
  ⟨"EVC_TIME_SET_LO", 0x700024, 1, 0x0, 1, 0x0, 1, 0x0, .rw, .any, 0x0, 0xFFFFFFFF, 0x0⟩,
  ⟨"EVC_TIME_SET_HI", 0x700028, 1, 0x0, 1, 0x0, 1, 0x0, .rw, .any, 0x0, 0xFFFFFFFF, 0x80000000⟩,
  ⟨"EVC_NEXT_SEQ", 0x70002C, 1, 0x0, 1, 0x0, 1, 0x0, .ro, .any, 0x0, 0x0, 0x0⟩,
  ⟨"EVC_LOST", 0x700030, 1, 0x0, 1, 0x0, 1, 0x0, .rc, .any, 0x0, 0x0, 0x0⟩,
  ⟨"EVC_FULL_DROPS", 0x700034, 1, 0x0, 1, 0x0, 1, 0x0, .rc, .any, 0x0, 0x0, 0x0⟩,
  ⟨"EVC_FROZEN_DROPS", 0x700038, 1, 0x0, 1, 0x0, 1, 0x0, .rc, .any, 0x0, 0x0, 0x0⟩,
  ⟨"EVC_SUPPRESSED", 0x70003C, 1, 0x0, 1, 0x0, 1, 0x0, .rc, .any, 0x0, 0x0, 0x0⟩,
  ⟨"EVC_SOFT_PAY_w", 0x700040, 3, 0x4, 1, 0x0, 1, 0x0, .rw, .any, 0x0, 0xFFFFFFFF, 0x0⟩,
  ⟨"EVC_SOFT_POST", 0x70004C, 1, 0x0, 1, 0x0, 1, 0x0, .wo, .any, 0x0, 0x0, 0x0⟩,
  ⟨"EVC_ERR_RAISE", 0x700050, 1, 0x0, 1, 0x0, 1, 0x0, .wo, .any, 0x0, 0x0, 0x0⟩,
  ⟨"EVC_FDROP", 0x700054, 1, 0x0, 1, 0x0, 1, 0x0, .wo, .crucible, 0x0, 0x0, 0x0⟩,
  ⟨"EVC_FRESET", 0x700058, 1, 0x0, 1, 0x0, 1, 0x0, .rw, .crucible, 0x0, 0x80000007, 0x80000000⟩,
  ⟨"EVC_REGION", 0x70005C, 1, 0x0, 1, 0x0, 1, 0x0, .rw, .crucible, 0x0, 0xFFFF, 0x0⟩,
  ⟨"EVC_DRAIN_w", 0x700060, 8, 0x4, 1, 0x0, 1, 0x0, .ro, .crucible, 0x0, 0x0, 0x0⟩,
  ⟨"EVC_DRAIN_POP", 0x700080, 1, 0x0, 1, 0x0, 1, 0x0, .wo, .crucible, 0x0, 0x0, 0x0⟩,
  ⟨"EVC_WIN_v_CURSOR", 0x700200, 2, 0x200, 1, 0x0, 1, 0x0, .rw, .any, 0x0, 0xFFFFFFFF, 0x0⟩,
  ⟨"EVC_WIN_v_STATUS", 0x700204, 2, 0x200, 1, 0x0, 1, 0x0, .ro, .any, 0x0, 0x0, 0x0⟩,
  ⟨"EVC_WIN_v_FIRST", 0x700208, 2, 0x200, 1, 0x0, 1, 0x0, .ro, .any, 0x0, 0x0, 0x0⟩,
  ⟨"EVC_WIN_v_r_w", 0x700300, 2, 0x200, 8, 0x20, 8, 0x4, .ro, .any, 0x0, 0x0, 0x0⟩,
  ⟨"EVC_CLAIM_t", 0x700800, 7, 0x4, 1, 0x0, 1, 0x0, .ro, .any, 0x0, 0x0, 0x0⟩,
  ⟨"EVC_ERR_f_STATE", 0x700900, 7, 0x10, 1, 0x0, 1, 0x0, .ro, .any, 0x0, 0x0, 0x0⟩,
  ⟨"EVC_ERR_f_PRI", 0x700904, 7, 0x10, 1, 0x0, 1, 0x0, .w1c, .any, 0x0, 0x80000000, 0x80000000⟩,
  ⟨"EVC_ERR_f_SEC", 0x700908, 7, 0x10, 1, 0x0, 1, 0x0, .ro, .any, 0x0, 0x0, 0x0⟩]

/-- Rows of the SYS window (spec/05 R175, spec/09 R283, spec/15 R443, spec/16 R454, spec/17 R477, spec/18 R491, spec/20 R545, spec/21 R572), part 7. -/
def sysRows7 : List Row := [
  ⟨"EVC_ERR_f_TARGET", 0x70090C, 7, 0x10, 1, 0x0, 1, 0x0, .rw, .any, 0x6, 0x7, 0x0⟩,
  ⟨"EVC_SRC_n", 0x701000, 256, 0x4, 1, 0x0, 1, 0x0, .rw, .any, 0xA081170, 0xFFFF7377, 0x0⟩,
  ⟨"PWR_ID", 0xD00000, 1, 0x0, 1, 0x0, 1, 0x0, .ro, .any, 0x9601701, 0x0, 0x0⟩,
  ⟨"PWR_STATUS", 0xD00004, 1, 0x0, 1, 0x0, 1, 0x0, .ro, .any, 0x3FF, 0x0, 0x0⟩,
  ⟨"PWR_CAUSE", 0xD00008, 1, 0x0, 1, 0x0, 1, 0x0, .ro, .any, 0xB0, 0x0, 0x0⟩,
  ⟨"PWR_RESET", 0xD0000C, 1, 0x0, 1, 0x0, 1, 0x0, .wo, .crucible, 0x0, 0x0, 0x0⟩,
  ⟨"PWR_LATCH", 0xD00010, 1, 0x0, 1, 0x0, 1, 0x0, .w1c, .any, 0x0, 0x3, 0x0⟩,
  ⟨"PWR_CTRL", 0xD00014, 1, 0x0, 1, 0x0, 1, 0x0, .rw, .any, 0x3, 0x3, 0x0⟩,
  ⟨"SIF_FAULT", 0xD00020, 1, 0x0, 1, 0x0, 1, 0x0, .w1c, .any, 0x0, 0xFFFF, 0xFFFF⟩,
  ⟨"SIF_LEVEL", 0xD00024, 1, 0x0, 1, 0x0, 1, 0x0, .ro, .any, 0xD800, 0x0, 0x0⟩,
  ⟨"SIF_GLITCH_0", 0xD00028, 1, 0x0, 1, 0x0, 1, 0x0, .rc, .any, 0x0, 0x0, 0x0⟩,
  ⟨"SIF_GLITCH_1", 0xD0002C, 1, 0x0, 1, 0x0, 1, 0x0, .rc, .any, 0x0, 0x0, 0x0⟩,
  ⟨"SIF_CFG_n_A", 0xD00100, 1, 0x0, 1, 0x0, 1, 0x0, .rw, .any, 0x2800C8, 0xFFFFFF, 0x0⟩,
  ⟨"SIF_CFG_n_A", 0xD00108, 1, 0x0, 1, 0x0, 1, 0x0, .rw, .any, 0x2800C8, 0xFFFFFF, 0x0⟩,
  ⟨"SIF_CFG_n_A", 0xD00110, 1, 0x0, 1, 0x0, 1, 0x0, .rw, .any, 0x2800C8, 0xFFFFFF, 0x0⟩,
  ⟨"SIF_CFG_n_A", 0xD00118, 1, 0x0, 1, 0x0, 1, 0x0, .rw, .any, 0x44E20, 0xFFFFFF, 0x0⟩,
  ⟨"SIF_CFG_n_A", 0xD00120, 1, 0x0, 1, 0x0, 1, 0x0, .rw, .any, 0x803E8, 0xFFFFFF, 0x0⟩,
  ⟨"SIF_CFG_n_A", 0xD00128, 1, 0x0, 1, 0x0, 1, 0x0, .rw, .any, 0x82710, 0xFFFFFF, 0x0⟩,
  ⟨"SIF_CFG_n_A", 0xD00130, 1, 0x0, 1, 0x0, 1, 0x0, .rw, .any, 0x100002, 0xFFFFFF, 0x0⟩,
  ⟨"SIF_CFG_n_A", 0xD00138, 1, 0x0, 1, 0x0, 1, 0x0, .rw, .any, 0x100002, 0xFFFFFF, 0x0⟩,
  ⟨"SIF_CFG_n_B", 0xD00104, 1, 0x0, 1, 0x0, 1, 0x0, .rw, .any, 0x32000A, 0xFFFFFFFF, 0x0⟩,
  ⟨"SIF_CFG_n_B", 0xD0010C, 1, 0x0, 1, 0x0, 1, 0x0, .rw, .any, 0x32000A, 0xFFFFFFFF, 0x0⟩,
  ⟨"SIF_CFG_n_B", 0xD00114, 1, 0x0, 1, 0x0, 1, 0x0, .rw, .any, 0x32000A, 0xFFFFFFFF, 0x0⟩,
  ⟨"SIF_CFG_n_B", 0xD0011C, 1, 0x0, 1, 0x0, 1, 0x0, .rw, .any, 0x3E8, 0xFFFFFFFF, 0x0⟩,
  ⟨"SIF_CFG_n_B", 0xD00124, 1, 0x0, 1, 0x0, 1, 0x0, .rw, .any, 0x3E8, 0xFFFFFFFF, 0x0⟩,
  ⟨"SIF_CFG_n_B", 0xD0012C, 1, 0x0, 1, 0x0, 1, 0x0, .rw, .any, 0x271003E8, 0xFFFFFFFF, 0x0⟩,
  ⟨"SIF_CFG_n_B", 0xD00134, 1, 0x0, 1, 0x0, 1, 0x0, .rw, .any, 0x64000A, 0xFFFFFFFF, 0x0⟩,
  ⟨"SIF_CFG_n_B", 0xD0013C, 1, 0x0, 1, 0x0, 1, 0x0, .rw, .any, 0x64000A, 0xFFFFFFFF, 0x0⟩]

/-- Rows of the SYS window (spec/05 R175, spec/09 R283, spec/15 R443, spec/16 R454, spec/17 R477, spec/18 R491, spec/20 R545, spec/21 R572). -/
def sysRows : List Row := sysRows1 ++ sysRows2 ++ sysRows3 ++ sysRows4 ++ sysRows5 ++ sysRows6 ++ sysRows7

/-- Rows of the eft registers, offsets from the eft base (spec/06 R197). -/
def eftRows : List Row := [
  ⟨"EFT_ID", 0x0, 1, 0x0, 1, 0x0, 1, 0x0, .ro, .any, 0x9600E01, 0x0, 0x0⟩,
  ⟨"EFT_CTRL", 0x4, 1, 0x0, 1, 0x0, 1, 0x0, .rw, .any, 0x89, 0xFB, 0x1⟩,
  ⟨"EFT_STATE", 0x8, 1, 0x0, 1, 0x0, 1, 0x0, .ro, .any, 0x0, 0x0, 0x0⟩,
  ⟨"EFT_CAUSE", 0xC, 1, 0x0, 1, 0x0, 1, 0x0, .rc, .any, 0x0, 0x0, 0x0⟩,
  ⟨"EFT_RESTARTS", 0x10, 1, 0x0, 1, 0x0, 1, 0x0, .rc, .any, 0x0, 0x0, 0x0⟩,
  ⟨"EFT_FAULTS", 0x14, 1, 0x0, 1, 0x0, 1, 0x0, .rc, .any, 0x0, 0x0, 0x0⟩,
  ⟨"EFT_WDOG", 0x18, 1, 0x0, 1, 0x0, 1, 0x0, .rw, .any, 0x4E20, 0xFFFFFFFF, 0x0⟩,
  ⟨"EFT_CS_ECC", 0x1C, 1, 0x0, 1, 0x0, 1, 0x0, .rc, .any, 0x0, 0x0, 0x0⟩,
  ⟨"EFT_LOAD_CTRL", 0x20, 1, 0x0, 1, 0x0, 1, 0x0, .w1s, .crucible, 0x0, 0x3, 0x3⟩,
  ⟨"EFT_CS_DATA", 0x24, 1, 0x0, 1, 0x0, 1, 0x0, .wo, .crucible, 0x0, 0x0, 0x0⟩,
  ⟨"EFT_LOAD_CRC", 0x28, 1, 0x0, 1, 0x0, 1, 0x0, .rw, .crucible, 0x0, 0xFFFFFFFF, 0x0⟩,
  ⟨"EFT_BREAK", 0x2C, 1, 0x0, 1, 0x0, 1, 0x0, .rw, .any, 0x0, 0x80001FFF, 0x0⟩,
  ⟨"EFT_DBG_SEL", 0x30, 1, 0x0, 1, 0x0, 1, 0x0, .rw, .any, 0x0, 0xF, 0x0⟩,
  ⟨"EFT_DBG_DATA", 0x34, 1, 0x0, 1, 0x0, 1, 0x0, .ro, .any, 0x0, 0x0, 0x0⟩,
  ⟨"EFT_JOB", 0x38, 1, 0x0, 1, 0x0, 1, 0x0, .ro, .any, 0x0, 0x0, 0x0⟩,
  ⟨"EFT_FLAGS", 0x3C, 1, 0x0, 1, 0x0, 1, 0x0, .ro, .any, 0x0, 0x0, 0x0⟩,
  ⟨"EFT_ATTN", 0x40, 1, 0x0, 1, 0x0, 1, 0x0, .w1c, .any, 0x0, 0x3F, 0x0⟩]

/-- Rows of the STG window (spec/07 R237), part 1. -/
def stgRows1 : List Row := [
  ⟨"STG_ID", 0x0, 1, 0x0, 1, 0x0, 1, 0x0, .ro, .any, 0x9600401, 0x0, 0x0⟩,
  ⟨"STG_CTRL", 0x4, 1, 0x0, 1, 0x0, 1, 0x0, .rw, .any, 0x3, 0x7, 0x0⟩,
  ⟨"STG_STATUS", 0x8, 1, 0x0, 1, 0x0, 1, 0x0, .ro, .any, 0x0, 0x0, 0x0⟩,
  ⟨"STG_EVENT_STATUS", 0xC, 1, 0x0, 1, 0x0, 1, 0x0, .w1c, .any, 0x0, 0x3FFF, 0x0⟩,
  ⟨"STG_EVENT_ENABLE", 0x10, 1, 0x0, 1, 0x0, 1, 0x0, .rw, .any, 0x0, 0x3FFF, 0x0⟩,
  ⟨"STG_RAND_KEY", 0x14, 1, 0x0, 1, 0x0, 1, 0x0, .rw, .any, 0x0, 0xFFFFFFFF, 0x0⟩,
  ⟨"STG_BLKTAB_BASE_LO", 0x18, 1, 0x0, 1, 0x0, 1, 0x0, .rw, .any, 0x0, 0xFF000000, 0x0⟩,
  ⟨"STG_BLKTAB_BASE_HI", 0x1C, 1, 0x0, 1, 0x0, 1, 0x0, .rw, .any, 0x0, 0xFF, 0x0⟩,
  ⟨"STG_RETRY_BASE_LO", 0x20, 1, 0x0, 1, 0x0, 1, 0x0, .rw, .any, 0x0, 0xFFFFF000, 0x0⟩,
  ⟨"STG_RETRY_BASE_HI", 0x24, 1, 0x0, 1, 0x0, 1, 0x0, .rw, .any, 0x0, 0xFF, 0x0⟩,
  ⟨"STG_RETRY_CFG", 0x28, 1, 0x0, 1, 0x0, 1, 0x0, .rw, .any, 0x1, 0x3F7F, 0x0⟩,
  ⟨"STG_LDPC_CFG", 0x2C, 1, 0x0, 1, 0x0, 1, 0x0, .rw, .any, 0x20042814, 0xFF0F3F3F, 0x0⟩,
  ⟨"STG_LDPC_LLR", 0x30, 1, 0x0, 1, 0x0, 1, 0x0, .rw, .any, 0x276, 0xFFF, 0x0⟩,
  ⟨"STG_TRK_CFG", 0x34, 1, 0x0, 1, 0x0, 1, 0x0, .rw, .any, 0x1000C828, 0xFFFFFF7F, 0x0⟩,
  ⟨"STG_GRAY_01", 0x38, 1, 0x0, 1, 0x0, 1, 0x0, .rw, .any, 0x1, 0x7FFF7FFF, 0x0⟩,
  ⟨"STG_GRAY_23", 0x3C, 1, 0x0, 1, 0x0, 1, 0x0, .rw, .any, 0x0, 0x7FFF7FFF, 0x0⟩,
  ⟨"STG_SUSP_CFG", 0x40, 1, 0x0, 1, 0x0, 1, 0x0, .rw, .any, 0xC80104, 0xFFF0FFF, 0x0⟩,
  ⟨"STG_SUSP_LIMIT", 0x44, 1, 0x0, 1, 0x0, 1, 0x0, .rw, .any, 0x1F403E8, 0xFFFFFFFF, 0x0⟩,
  ⟨"STG_WEAR_CFG", 0x48, 1, 0x0, 1, 0x0, 1, 0x0, .rw, .any, 0xBC0064, 0xFFFFFFFF, 0x0⟩,
  ⟨"STG_BLK_CMD", 0x4C, 1, 0x0, 1, 0x0, 1, 0x0, .rw, .any, 0x0, 0x877FFFFF, 0x80000000⟩,
  ⟨"STG_ADVISE_FIFO", 0x50, 1, 0x0, 1, 0x0, 1, 0x0, .rc, .any, 0x0, 0x0, 0x0⟩,
  ⟨"STG_ADVISE_OVF", 0x54, 1, 0x0, 1, 0x0, 1, 0x0, .rc, .any, 0x0, 0x0, 0x0⟩,
  ⟨"CHc_MODE", 0x1000, 8, 0x40, 1, 0x0, 1, 0x0, .rw, .any, 0x0, 0x1F1, 0x101⟩,
  ⟨"CHc_MAP", 0x1004, 8, 0x40, 1, 0x0, 1, 0x0, .rw, .any, 0x1, 0x3FF, 0x0⟩,
  ⟨"CHc_GEOM", 0x1008, 8, 0x40, 1, 0x0, 1, 0x0, .rw, .any, 0x92000A08, 0xF3331F1F, 0x0⟩,
  ⟨"CHc_TMO_RD", 0x100C, 8, 0x40, 1, 0x0, 1, 0x0, .rw, .any, 0x3E8, 0xFFFF, 0x0⟩,
  ⟨"CHc_TMO_PG", 0x1010, 8, 0x40, 1, 0x0, 1, 0x0, .rw, .any, 0x2710, 0xFFFF, 0x0⟩,
  ⟨"CHc_TMO_ER", 0x1014, 8, 0x40, 1, 0x0, 1, 0x0, .rw, .any, 0xC350, 0xFFFF, 0x0⟩,
  ⟨"CHc_STATUS", 0x1018, 8, 0x40, 1, 0x0, 1, 0x0, .ro, .any, 0x0, 0x0, 0x0⟩,
  ⟨"CHc_CW_OK", 0x101C, 8, 0x40, 1, 0x0, 1, 0x0, .rc, .any, 0x0, 0x0, 0x0⟩]

/-- Rows of the STG window (spec/07 R237), part 2. -/
def stgRows2 : List Row := [
  ⟨"CHc_CW_FAIL", 0x1020, 8, 0x40, 1, 0x0, 1, 0x0, .rc, .any, 0x0, 0x0, 0x0⟩,
  ⟨"CHc_RETRIES", 0x1024, 8, 0x40, 1, 0x0, 1, 0x0, .rc, .any, 0x0, 0x0, 0x0⟩,
  ⟨"CHc_SOFT", 0x1028, 8, 0x40, 1, 0x0, 1, 0x0, .rc, .any, 0x0, 0x0, 0x0⟩,
  ⟨"CHc_SUSPENDS", 0x102C, 8, 0x40, 1, 0x0, 1, 0x0, .rc, .any, 0x0, 0x0, 0x0⟩,
  ⟨"CHc_CORR_BITS", 0x1030, 8, 0x40, 1, 0x0, 1, 0x0, .rc, .any, 0x0, 0x0, 0x0⟩]

/-- Rows of the STG window (spec/07 R237). -/
def stgRows : List Row := stgRows1 ++ stgRows2

/-- Rows of the XFM window (spec/08 R260). -/
def xfmRows : List Row := [
  ⟨"XFM_ID", 0x0, 1, 0x0, 1, 0x0, 1, 0x0, .ro, .any, 0x9600501, 0x0, 0x0⟩,
  ⟨"XFM_CTRL", 0x4, 1, 0x0, 1, 0x0, 1, 0x0, .rw, .any, 0x1, 0x1, 0x0⟩,
  ⟨"XFM_STATUS", 0x8, 1, 0x0, 1, 0x0, 1, 0x0, .ro, .any, 0xF, 0x0, 0x0⟩,
  ⟨"XFM_EVENT_STATUS", 0xC, 1, 0x0, 1, 0x0, 1, 0x0, .w1c, .any, 0x0, 0x1FF, 0x0⟩,
  ⟨"XFM_EVENT_ENABLE", 0x10, 1, 0x0, 1, 0x0, 1, 0x0, .rw, .any, 0x0, 0x1FF, 0x0⟩,
  ⟨"XFM_FB_THR", 0x14, 1, 0x0, 1, 0x0, 1, 0x0, .rw, .any, 0x200040, 0xFFFFFFFF, 0x0⟩,
  ⟨"XFM_CMP_JOBS", 0x20, 1, 0x0, 1, 0x0, 1, 0x0, .rc, .any, 0x0, 0x0, 0x0⟩,
  ⟨"XFM_CMP_STORED", 0x24, 1, 0x0, 1, 0x0, 1, 0x0, .rc, .any, 0x0, 0x0, 0x0⟩,
  ⟨"XFM_VERIFY_MISMATCH", 0x28, 1, 0x0, 1, 0x0, 1, 0x0, .rc, .any, 0x0, 0x0, 0x0⟩,
  ⟨"XFM_FALLBACK_JOBS", 0x2C, 1, 0x0, 1, 0x0, 1, 0x0, .rc, .any, 0x0, 0x0, 0x0⟩,
  ⟨"XFM_INFLATE_ERRORS", 0x30, 1, 0x0, 1, 0x0, 1, 0x0, .rc, .any, 0x0, 0x0, 0x0⟩,
  ⟨"XFM_EC_INCONSISTENT", 0x34, 1, 0x0, 1, 0x0, 1, 0x0, .rc, .any, 0x0, 0x0, 0x0⟩,
  ⟨"XFM_CIPH_UNITS", 0x38, 1, 0x0, 1, 0x0, 1, 0x0, .rc, .any, 0x0, 0x0, 0x0⟩,
  ⟨"XFM_KEY_STATUS_LO", 0x40, 1, 0x0, 1, 0x0, 1, 0x0, .ro, .any, 0x0, 0x0, 0x0⟩,
  ⟨"XFM_KEY_STATUS_HI", 0x44, 1, 0x0, 1, 0x0, 1, 0x0, .ro, .any, 0x0, 0x0, 0x0⟩]

/-- Rows of the MEDx windows (spec/10 R309, spec/11 R336, spec/12 R359, spec/13 R393), part 1. -/
def medRows1 : List Row := [
  ⟨"MEDx_WR_ID", 0x100000, 1, 0x0, 1, 0x0, 1, 0x0, .ro, .any, 0x9600A01, 0x0, 0x0⟩,
  ⟨"MEDx_WR_CTRL", 0x100004, 1, 0x0, 1, 0x0, 1, 0x0, .rw, .any, 0xC, 0x1F, 0x0⟩,
  ⟨"MEDx_WR_STATUS", 0x100008, 1, 0x0, 1, 0x0, 1, 0x0, .ro, .any, 0x0, 0x0, 0x0⟩,
  ⟨"MEDx_WR_EVENT_STATUS", 0x10000C, 1, 0x0, 1, 0x0, 1, 0x0, .w1c, .any, 0x0, 0xFF, 0x0⟩,
  ⟨"MEDx_WR_EVENT_ENABLE", 0x100010, 1, 0x0, 1, 0x0, 1, 0x0, .rw, .any, 0x0, 0xFF, 0x0⟩,
  ⟨"MEDx_WR_CFG", 0x100014, 1, 0x0, 1, 0x0, 1, 0x0, .rw, .any, 0x640E0402, 0xFF1F0F0F, 0x0⟩,
  ⟨"MEDx_ASSIST_LOOP", 0x100018, 1, 0x0, 1, 0x0, 1, 0x0, .rw, .any, 0x40010010, 0xFF0FFFFF, 0x0⟩,
  ⟨"MEDx_TD_CFG", 0x10001C, 1, 0x0, 1, 0x0, 1, 0x0, .rw, .any, 0x318, 0xFFF, 0x0⟩,
  ⟨"MEDx_TD_CTRL", 0x100020, 1, 0x0, 1, 0x0, 1, 0x0, .rw, .any, 0x0, 0x8F0FFFFF, 0x80000000⟩,
  ⟨"MEDx_TD_RESULT", 0x100024, 1, 0x0, 1, 0x0, 1, 0x0, .ro, .any, 0x0, 0x0, 0x0⟩,
  ⟨"MEDx_PAL_CMD", 0x100028, 1, 0x0, 1, 0x0, 1, 0x0, .rw, .any, 0x0, 0xFFFFFF01, 0x1⟩,
  ⟨"MEDx_PAL_RESP", 0x10002C, 1, 0x0, 1, 0x0, 1, 0x0, .ro, .any, 0x0, 0x0, 0x0⟩,
  ⟨"MEDx_PAL_ERRORS", 0x100030, 1, 0x0, 1, 0x0, 1, 0x0, .rc, .any, 0x0, 0x0, 0x0⟩,
  ⟨"MEDx_WR_SECTORS", 0x100034, 1, 0x0, 1, 0x0, 1, 0x0, .rc, .any, 0x0, 0x0, 0x0⟩,
  ⟨"MEDx_WR_STOPS", 0x100038, 1, 0x0, 1, 0x0, 1, 0x0, .rc, .any, 0x0, 0x0, 0x0⟩,
  ⟨"MEDx_ASSIST_STEPS", 0x10003C, 1, 0x0, 1, 0x0, 1, 0x0, .rc, .any, 0x0, 0x0, 0x0⟩,
  ⟨"MEDx_ASSIST_NOW_h", 0x100080, 12, 0x4, 1, 0x0, 1, 0x0, .ro, .any, 0x0, 0x0, 0x0⟩,
  ⟨"MEDx_XFER_i", 0x101000, 33, 0x4, 1, 0x0, 1, 0x0, .rw, .any, 0x0, 0xFFFF, 0x0⟩,
  ⟨"MEDx_HB_h_b_w", 0x102000, 12, 0x100, 16, 0x10, 1, 0x0, .rw, .any, 0x0, 0xF0F1F7F, 0x0⟩,
  ⟨"MEDx_HB_h_b_w", 0x102004, 12, 0x100, 16, 0x10, 1, 0x0, .rw, .any, 0x0, 0x3FF03FF, 0x0⟩,
  ⟨"MEDx_HB_h_b_w", 0x102008, 12, 0x100, 16, 0x10, 1, 0x0, .rw, .any, 0x0, 0xFFFFFFFF, 0x0⟩,
  ⟨"MEDx_HB_h_b_w", 0x10200C, 12, 0x100, 16, 0x10, 1, 0x0, .rw, .any, 0x0, 0x3FFFFFF, 0x0⟩,
  ⟨"MEDx_RC_ID", 0x200000, 1, 0x0, 1, 0x0, 1, 0x0, .ro, .any, 0x9600B01, 0x0, 0x0⟩,
  ⟨"MEDx_RC_CTRL", 0x200004, 1, 0x0, 1, 0x0, 1, 0x0, .rw, .any, 0x3F, 0x3F, 0x0⟩,
  ⟨"MEDx_RC_STATUS", 0x200008, 1, 0x0, 1, 0x0, 1, 0x0, .ro, .any, 0x0, 0x0, 0x0⟩,
  ⟨"MEDx_RC_EVENT_STATUS", 0x20000C, 1, 0x0, 1, 0x0, 1, 0x0, .w1c, .any, 0x0, 0xFF, 0x0⟩,
  ⟨"MEDx_RC_EVENT_ENABLE", 0x200010, 1, 0x0, 1, 0x0, 1, 0x0, .rw, .any, 0x0, 0xFF, 0x0⟩,
  ⟨"MEDx_RC_CFG", 0x200014, 1, 0x0, 1, 0x0, 1, 0x0, .rw, .any, 0x54246, 0xFF77F, 0x0⟩,
  ⟨"MEDx_RC_TIMING", 0x200018, 1, 0x0, 1, 0x0, 1, 0x0, .rw, .any, 0x6C683, 0xFFFFFF, 0x0⟩,
  ⟨"MEDx_RC_TIMING2", 0x20001C, 1, 0x0, 1, 0x0, 1, 0x0, .rw, .any, 0x18020C, 0xFFFFFF, 0x0⟩]

/-- Rows of the MEDx windows (spec/10 R309, spec/11 R336, spec/12 R359, spec/13 R393), part 2. -/
def medRows2 : List Row := [
  ⟨"MEDx_RC_AGC", 0x200020, 1, 0x0, 1, 0x0, 1, 0x0, .rw, .any, 0x1E0204, 0x3F0F0F, 0x0⟩,
  ⟨"MEDx_RC_DEF1", 0x200024, 1, 0x0, 1, 0x0, 1, 0x0, .rw, .any, 0x10840C, 0xFFFF7F, 0x0⟩,
  ⟨"MEDx_RC_DEF2", 0x200028, 1, 0x0, 1, 0x0, 1, 0x0, .rw, .any, 0x2002010, 0xFFFFFFF, 0x0⟩,
  ⟨"MEDx_RC_ADAPT", 0x20002C, 1, 0x0, 1, 0x0, 1, 0x0, .rw, .any, 0x8001000, 0xFFFFFFFF, 0x0⟩,
  ⟨"MEDx_ADC_LIM", 0x200030, 1, 0x0, 1, 0x0, 1, 0x0, .rw, .any, 0xA2808, 0xFFFFFF, 0x0⟩,
  ⟨"MEDx_RC_SECTORS", 0x200034, 1, 0x0, 1, 0x0, 1, 0x0, .rc, .any, 0x0, 0x0, 0x0⟩,
  ⟨"MEDx_RC_FAILS", 0x200038, 1, 0x0, 1, 0x0, 1, 0x0, .rc, .any, 0x0, 0x0, 0x0⟩,
  ⟨"MEDx_RC_ITER", 0x20003C, 1, 0x0, 1, 0x0, 1, 0x0, .rc, .any, 0x0, 0x0, 0x0⟩,
  ⟨"MEDx_RC_ERASED", 0x200040, 1, 0x0, 1, 0x0, 1, 0x0, .rc, .any, 0x0, 0x0, 0x0⟩,
  ⟨"MEDx_RC_SLIPS", 0x200044, 1, 0x0, 1, 0x0, 1, 0x0, .rc, .any, 0x0, 0x0, 0x0⟩,
  ⟨"MEDx_RC_NOW", 0x200048, 1, 0x0, 1, 0x0, 1, 0x0, .ro, .any, 0x0, 0x0, 0x0⟩,
  ⟨"MEDx_ADC_r_TRIM_s", 0x200100, 2, 0x100, 34, 0x4, 1, 0x0, .rw, .any, 0x0, 0x801F1F3F, 0x0⟩,
  ⟨"MEDx_ADC_r_MEAS_s", 0x200400, 2, 0x100, 34, 0x4, 1, 0x0, .ro, .any, 0x0, 0x0, 0x0⟩,
  ⟨"MEDx_ADC_r_PHASE_q", 0x200600, 2, 0x20, 1, 0x0, 1, 0x0, .rw, .any, 0x3020100, 0x3F3F3F3F, 0x0⟩,
  ⟨"MEDx_ADC_r_PHASE_q", 0x200604, 2, 0x20, 1, 0x0, 1, 0x0, .rw, .any, 0x7060504, 0x3F3F3F3F, 0x0⟩,
  ⟨"MEDx_ADC_r_PHASE_q", 0x200608, 2, 0x20, 1, 0x0, 1, 0x0, .rw, .any, 0xB0A0908, 0x3F3F3F3F, 0x0⟩,
  ⟨"MEDx_ADC_r_PHASE_q", 0x20060C, 2, 0x20, 1, 0x0, 1, 0x0, .rw, .any, 0xF0E0D0C, 0x3F3F3F3F, 0x0⟩,
  ⟨"MEDx_ADC_r_PHASE_q", 0x200610, 2, 0x20, 1, 0x0, 1, 0x0, .rw, .any, 0x13121110, 0x3F3F3F3F, 0x0⟩,
  ⟨"MEDx_ADC_r_PHASE_q", 0x200614, 2, 0x20, 1, 0x0, 1, 0x0, .rw, .any, 0x17161514, 0x3F3F3F3F, 0x0⟩,
  ⟨"MEDx_ADC_r_PHASE_q", 0x200618, 2, 0x20, 1, 0x0, 1, 0x0, .rw, .any, 0x1B1A1918, 0x3F3F3F3F, 0x0⟩,
  ⟨"MEDx_ADC_r_PHASE_q", 0x20061C, 2, 0x20, 1, 0x0, 1, 0x0, .rw, .any, 0x1F1E1D1C, 0x3F3F3F3F, 0x0⟩,
  ⟨"MEDx_ADC_r_STATUS", 0x200640, 2, 0x4, 1, 0x0, 1, 0x0, .ro, .any, 0x2, 0x0, 0x0⟩,
  ⟨"MEDx_TGT_t_w", 0x200800, 16, 0x10, 1, 0x0, 1, 0x0, .rw, .any, 0x0, 0xFFFFFFFF, 0x0⟩,
  ⟨"MEDx_TGT_t_w", 0x200804, 16, 0x10, 1, 0x0, 1, 0x0, .rw, .any, 0x0, 0xFF, 0x0⟩,
  ⟨"MEDx_TGT_t_w", 0x200808, 16, 0x10, 1, 0x0, 1, 0x0, .rw, .any, 0x0, 0xFFFFFFFF, 0x0⟩,
  ⟨"MEDx_TGT_t_w", 0x20080C, 16, 0x10, 1, 0x0, 1, 0x0, .rw, .any, 0x0, 0xFF, 0x0⟩,
  ⟨"MEDx_RHB_h_b_w", 0x202000, 12, 0x100, 16, 0x10, 1, 0x0, .rw, .any, 0x0, 0xFF3F1FFF, 0x0⟩,
  ⟨"MEDx_RHB_h_b_w", 0x202004, 12, 0x100, 16, 0x10, 1, 0x0, .rw, .any, 0x0, 0xF1F3FFF, 0x0⟩,
  ⟨"MEDx_RHB_h_b_w", 0x202008, 12, 0x100, 16, 0x10, 1, 0x0, .rw, .any, 0x0, 0xFFFF01FF, 0x0⟩,
  ⟨"MEDx_RHB_h_b_w", 0x20200C, 12, 0x100, 16, 0x10, 1, 0x0, .rw, .any, 0x0, 0xFFFF, 0x0⟩]

/-- Rows of the MEDx windows (spec/10 R309, spec/11 R336, spec/12 R359, spec/13 R393), part 3. -/
def medRows3 : List Row := [
  ⟨"MEDx_EQ_h_b_w", 0x208000, 12, 0x800, 16, 0x80, 32, 0x4, .rw, .any, 0x0, 0x3FF03FF, 0x0⟩,
  ⟨"MEDx_NP_h_w", 0x20E000, 12, 0x40, 12, 0x4, 1, 0x0, .rw, .any, 0x0, 0xFFFFFFFF, 0x0⟩,
  ⟨"MEDx_SR_ID", 0x300000, 1, 0x0, 1, 0x0, 1, 0x0, .ro, .any, 0x9600C01, 0x0, 0x0⟩,
  ⟨"MEDx_SR_CTRL", 0x300004, 1, 0x0, 1, 0x0, 1, 0x0, .rw, .any, 0x3, 0x3, 0x0⟩,
  ⟨"MEDx_SR_SYNC", 0x300008, 1, 0x0, 1, 0x0, 1, 0x0, .rw, .any, 0x90503, 0xF0F07, 0x0⟩,
  ⟨"MEDx_SR_LADDER", 0x30000C, 1, 0x0, 1, 0x0, 1, 0x0, .rw, .any, 0x5223E8, 0xFFFFFFFF, 0x0⟩,
  ⟨"MEDx_SR_EVENT_STATUS", 0x300010, 1, 0x0, 1, 0x0, 1, 0x0, .w1c, .any, 0x0, 0x3F, 0x0⟩,
  ⟨"MEDx_SR_EVENT_ENABLE", 0x300014, 1, 0x0, 1, 0x0, 1, 0x0, .rw, .any, 0x0, 0x3F, 0x0⟩,
  ⟨"MEDx_SR_PIN", 0x300018, 1, 0x0, 1, 0x0, 1, 0x0, .rw, .any, 0x0, 0x3, 0x0⟩,
  ⟨"MEDx_SR_STATUS", 0x30001C, 1, 0x0, 1, 0x0, 1, 0x0, .ro, .any, 0x0, 0x0, 0x0⟩,
  ⟨"MEDx_SR_DISTRUST_LO", 0x300020, 1, 0x0, 1, 0x0, 1, 0x0, .rw, .any, 0x0, 0xFFFFFFFF, 0x0⟩,
  ⟨"MEDx_SR_DISTRUST_HI", 0x300024, 1, 0x0, 1, 0x0, 1, 0x0, .rw, .any, 0x0, 0x8000FFFF, 0x0⟩,
  ⟨"MEDx_SR_LAST_FAIL", 0x300028, 1, 0x0, 1, 0x0, 1, 0x0, .ro, .any, 0x0, 0x0, 0x0⟩,
  ⟨"MEDx_SR_SYNC_MISS", 0x300040, 1, 0x0, 1, 0x0, 1, 0x0, .rc, .any, 0x0, 0x0, 0x0⟩,
  ⟨"MEDx_SR_FALSE_SYNC", 0x300044, 1, 0x0, 1, 0x0, 1, 0x0, .rc, .any, 0x0, 0x0, 0x0⟩,
  ⟨"MEDx_SR_OFFLINE_OK", 0x300048, 1, 0x0, 1, 0x0, 1, 0x0, .rc, .any, 0x0, 0x0, 0x0⟩,
  ⟨"MEDx_SR_OC_OK", 0x30004C, 1, 0x0, 1, 0x0, 1, 0x0, .rc, .any, 0x0, 0x0, 0x0⟩,
  ⟨"MEDx_SR_UNRECOVERED", 0x300050, 1, 0x0, 1, 0x0, 1, 0x0, .rc, .any, 0x0, 0x0, 0x0⟩,
  ⟨"MEDx_SR_BUDGET", 0x300054, 1, 0x0, 1, 0x0, 1, 0x0, .rc, .any, 0x0, 0x0, 0x0⟩,
  ⟨"MEDx_SR_SLOT_s_PBA_LO", 0x300100, 2, 0x20, 1, 0x0, 1, 0x0, .ro, .any, 0x0, 0x0, 0x0⟩,
  ⟨"MEDx_SR_SLOT_s_PBA_HI", 0x300104, 2, 0x20, 1, 0x0, 1, 0x0, .ro, .any, 0x0, 0x0, 0x0⟩,
  ⟨"MEDx_SR_SLOT_s_INFO", 0x300108, 2, 0x20, 1, 0x0, 1, 0x0, .ro, .any, 0x0, 0x0, 0x0⟩,
  ⟨"MEDx_SR_SLOT_s_SYNC", 0x30010C, 2, 0x20, 1, 0x0, 1, 0x0, .ro, .any, 0x0, 0x0, 0x0⟩,
  ⟨"MEDx_SR_SLOT_s_SW", 0x300110, 2, 0x20, 1, 0x0, 1, 0x0, .ro, .any, 0x0, 0x0, 0x0⟩,
  ⟨"MEDx_SR_RANGE_s_i", 0x300200, 2, 0x20, 8, 0x4, 1, 0x0, .ro, .any, 0x0, 0x0, 0x0⟩,
  ⟨"MEDx_SV_ID", 0x500000, 1, 0x0, 1, 0x0, 1, 0x0, .ro, .any, 0x9600D01, 0x0, 0x0⟩,
  ⟨"MEDx_SV_CTRL", 0x500004, 1, 0x0, 1, 0x0, 1, 0x0, .rw, .any, 0x1, 0x7, 0x0⟩,
  ⟨"MEDx_SV_STATUS", 0x500008, 1, 0x0, 1, 0x0, 1, 0x0, .ro, .any, 0x0, 0x0, 0x0⟩,
  ⟨"MEDx_SV_EVENT_STATUS", 0x50000C, 1, 0x0, 1, 0x0, 1, 0x0, .w1c, .any, 0x0, 0x3F, 0x0⟩,
  ⟨"MEDx_SV_EVENT_ENABLE", 0x500010, 1, 0x0, 1, 0x0, 1, 0x0, .rw, .any, 0x0, 0x3F, 0x0⟩]

/-- Rows of the MEDx windows (spec/10 R309, spec/11 R336, spec/12 R359, spec/13 R393), part 4. -/
def medRows4 : List Row := [
  ⟨"MEDx_SV_DEADLINE", 0x500014, 1, 0x0, 1, 0x0, 1, 0x0, .rw, .any, 0xA00, 0x3FFF, 0x0⟩,
  ⟨"MEDx_SV_WUS", 0x500018, 1, 0x0, 1, 0x0, 1, 0x0, .rw, .any, 0x2019A, 0xF0FFF, 0x0⟩,
  ⟨"MEDx_SV_FE", 0x50001C, 1, 0x0, 1, 0x0, 1, 0x0, .rw, .any, 0x804CD, 0xFF0FFF, 0x0⟩,
  ⟨"MEDx_SV_MISS", 0x500020, 1, 0x0, 1, 0x0, 1, 0x0, .rw, .any, 0x24004, 0xFFF0F, 0x0⟩,
  ⟨"MEDx_SV_SETTLE", 0x500024, 1, 0x0, 1, 0x0, 1, 0x0, .rw, .any, 0x100300CD, 0xFF0F0FFF, 0x0⟩,
  ⟨"MEDx_SV_VMAX", 0x500028, 1, 0x0, 1, 0x0, 1, 0x0, .rw, .any, 0x200000, 0xFFFFFF, 0x0⟩,
  ⟨"MEDx_SV_AMAX", 0x50002C, 1, 0x0, 1, 0x0, 1, 0x0, .rw, .any, 0x8000, 0xFFFFFF, 0x0⟩,
  ⟨"MEDx_SV_JMAX", 0x500030, 1, 0x0, 1, 0x0, 1, 0x0, .rw, .any, 0x1000, 0xFFFFFF, 0x0⟩,
  ⟨"MEDx_SV_MIN_TRACK", 0x500034, 1, 0x0, 1, 0x0, 1, 0x0, .rw, .any, 0x0, 0xFFFFFF, 0x0⟩,
  ⟨"MEDx_SV_MAX_TRACK", 0x500038, 1, 0x0, 1, 0x0, 1, 0x0, .rw, .any, 0xFFFFFF, 0xFFFFFF, 0x0⟩,
  ⟨"MEDx_SV_CLAMP", 0x50003C, 1, 0x0, 1, 0x0, 1, 0x0, .rw, .any, 0x7FFF7FFF, 0xFFFFFFFF, 0x0⟩,
  ⟨"MEDx_SV_SLEW", 0x500040, 1, 0x0, 1, 0x0, 1, 0x0, .rw, .any, 0x1000, 0xFFFF, 0x0⟩,
  ⟨"MEDx_SV_LOAD", 0x500044, 1, 0x0, 1, 0x0, 1, 0x0, .rw, .any, 0x32000400, 0xFF00FFFF, 0x0⟩,
  ⟨"MEDx_SV_UNLOAD", 0x500048, 1, 0x0, 1, 0x0, 1, 0x0, .rw, .any, 0x3200FC00, 0xFF00FFFF, 0x0⟩,
  ⟨"MEDx_SV_CMD", 0x50004C, 1, 0x0, 1, 0x0, 1, 0x0, .rw, .any, 0x0, 0xE0FFFFFF, 0x80000000⟩,
  ⟨"MEDx_SV_TANDEM", 0x500050, 1, 0x0, 1, 0x0, 1, 0x0, .rw, .any, 0x0, 0x80FFFFFF, 0x0⟩,
  ⟨"MEDx_SV_TARGET_LO", 0x500054, 1, 0x0, 1, 0x0, 1, 0x0, .ro, .any, 0x0, 0x0, 0x0⟩,
  ⟨"MEDx_SV_TARGET_HI", 0x500058, 1, 0x0, 1, 0x0, 1, 0x0, .ro, .any, 0x0, 0x0, 0x0⟩,
  ⟨"MEDx_SV_REF_LO", 0x50005C, 1, 0x0, 1, 0x0, 1, 0x0, .ro, .any, 0x0, 0x0, 0x0⟩,
  ⟨"MEDx_SV_REF_HI", 0x500060, 1, 0x0, 1, 0x0, 1, 0x0, .ro, .any, 0x0, 0x0, 0x0⟩,
  ⟨"MEDx_SV_POS_LO", 0x500064, 1, 0x0, 1, 0x0, 1, 0x0, .ro, .any, 0x0, 0x0, 0x0⟩,
  ⟨"MEDx_SV_POS_HI", 0x500068, 1, 0x0, 1, 0x0, 1, 0x0, .ro, .any, 0x0, 0x0, 0x0⟩,
  ⟨"MEDx_SV_VEL", 0x50006C, 1, 0x0, 1, 0x0, 1, 0x0, .ro, .any, 0x0, 0x0, 0x0⟩,
  ⟨"MEDx_SV_ACC", 0x500070, 1, 0x0, 1, 0x0, 1, 0x0, .ro, .any, 0x0, 0x0, 0x0⟩,
  ⟨"MEDx_SV_PES", 0x500074, 1, 0x0, 1, 0x0, 1, 0x0, .ro, .any, 0x0, 0x0, 0x0⟩,
  ⟨"MEDx_SV_OUT", 0x500078, 1, 0x0, 1, 0x0, 1, 0x0, .ro, .any, 0x0, 0x0, 0x0⟩,
  ⟨"MEDx_SV_ROFFSET", 0x50007C, 1, 0x0, 1, 0x0, 1, 0x0, .ro, .any, 0x0, 0x0, 0x0⟩,
  ⟨"MEDx_SV_CYCLES", 0x500080, 1, 0x0, 1, 0x0, 1, 0x0, .ro, .any, 0x0, 0x0, 0x0⟩,
  ⟨"MEDx_SV_MAXCYC", 0x500084, 1, 0x0, 1, 0x0, 1, 0x0, .rc, .any, 0x0, 0x0, 0x0⟩,
  ⟨"MEDx_SV_WUS_RISES", 0x500088, 1, 0x0, 1, 0x0, 1, 0x0, .rc, .any, 0x0, 0x0, 0x0⟩]

/-- Rows of the MEDx windows (spec/10 R309, spec/11 R336, spec/12 R359, spec/13 R393), part 5. -/
def medRows5 : List Row := [
  ⟨"MEDx_SV_DL_MISS", 0x50008C, 1, 0x0, 1, 0x0, 1, 0x0, .rc, .any, 0x0, 0x0, 0x0⟩,
  ⟨"MEDx_SV_WEDGE_MISS", 0x500090, 1, 0x0, 1, 0x0, 1, 0x0, .rc, .any, 0x0, 0x0, 0x0⟩,
  ⟨"MEDx_SV_RETARGETS", 0x500094, 1, 0x0, 1, 0x0, 1, 0x0, .rc, .any, 0x0, 0x0, 0x0⟩,
  ⟨"MEDx_SV_REFUSED", 0x500098, 1, 0x0, 1, 0x0, 1, 0x0, .rc, .any, 0x0, 0x0, 0x0⟩,
  ⟨"MEDx_SV_CLAMPS", 0x50009C, 1, 0x0, 1, 0x0, 1, 0x0, .rc, .any, 0x0, 0x0, 0x0⟩,
  ⟨"MEDx_SV_FAULTS", 0x5000A0, 1, 0x0, 1, 0x0, 1, 0x0, .rc, .any, 0x0, 0x0, 0x0⟩,
  ⟨"MEDx_SV_TRACE_CTRL", 0x5000A4, 1, 0x0, 1, 0x0, 1, 0x0, .rw, .any, 0x0, 0xFFFF7, 0x7⟩,
  ⟨"MEDx_SV_TRACE_POST", 0x5000A8, 1, 0x0, 1, 0x0, 1, 0x0, .rw, .any, 0x1000, 0x1FFF, 0x0⟩,
  ⟨"MEDx_SV_TRACE_THR", 0x5000AC, 1, 0x0, 1, 0x0, 1, 0x0, .rw, .any, 0x800, 0xFFFFFFFF, 0x0⟩,
  ⟨"MEDx_SV_TRACE_STATUS", 0x5000B0, 1, 0x0, 1, 0x0, 1, 0x0, .ro, .any, 0x0, 0x0, 0x0⟩,
  ⟨"MEDx_SV_HEAD_h", 0x500100, 12, 0x4, 1, 0x0, 1, 0x0, .rw, .any, 0x0, 0xFFFFFFFF, 0x0⟩,
  ⟨"MEDx_SV_COEF_b_w", 0x510000, 2, 0x200, 97, 0x4, 1, 0x0, .rw, .any, 0x0, 0xFFFFFF, 0x0⟩,
  ⟨"MEDx_SV_COEF_b_w", 0x510184, 2, 0x200, 31, 0x4, 1, 0x0, .rw, .any, 0x0, 0x0, 0x0⟩,
  ⟨"MEDx_SV_LIN_h_i", 0x520000, 12, 0x100, 1, 0x0, 1, 0x0, .rw, .any, 0xF800, 0xFFFF, 0x0⟩,
  ⟨"MEDx_SV_LIN_h_i", 0x520004, 12, 0x100, 1, 0x0, 1, 0x0, .rw, .any, 0xF880, 0xFFFF, 0x0⟩,
  ⟨"MEDx_SV_LIN_h_i", 0x520008, 12, 0x100, 1, 0x0, 1, 0x0, .rw, .any, 0xF900, 0xFFFF, 0x0⟩,
  ⟨"MEDx_SV_LIN_h_i", 0x52000C, 12, 0x100, 1, 0x0, 1, 0x0, .rw, .any, 0xF980, 0xFFFF, 0x0⟩,
  ⟨"MEDx_SV_LIN_h_i", 0x520010, 12, 0x100, 1, 0x0, 1, 0x0, .rw, .any, 0xFA00, 0xFFFF, 0x0⟩,
  ⟨"MEDx_SV_LIN_h_i", 0x520014, 12, 0x100, 1, 0x0, 1, 0x0, .rw, .any, 0xFA80, 0xFFFF, 0x0⟩,
  ⟨"MEDx_SV_LIN_h_i", 0x520018, 12, 0x100, 1, 0x0, 1, 0x0, .rw, .any, 0xFB00, 0xFFFF, 0x0⟩,
  ⟨"MEDx_SV_LIN_h_i", 0x52001C, 12, 0x100, 1, 0x0, 1, 0x0, .rw, .any, 0xFB80, 0xFFFF, 0x0⟩,
  ⟨"MEDx_SV_LIN_h_i", 0x520020, 12, 0x100, 1, 0x0, 1, 0x0, .rw, .any, 0xFC00, 0xFFFF, 0x0⟩,
  ⟨"MEDx_SV_LIN_h_i", 0x520024, 12, 0x100, 1, 0x0, 1, 0x0, .rw, .any, 0xFC80, 0xFFFF, 0x0⟩,
  ⟨"MEDx_SV_LIN_h_i", 0x520028, 12, 0x100, 1, 0x0, 1, 0x0, .rw, .any, 0xFD00, 0xFFFF, 0x0⟩,
  ⟨"MEDx_SV_LIN_h_i", 0x52002C, 12, 0x100, 1, 0x0, 1, 0x0, .rw, .any, 0xFD80, 0xFFFF, 0x0⟩,
  ⟨"MEDx_SV_LIN_h_i", 0x520030, 12, 0x100, 1, 0x0, 1, 0x0, .rw, .any, 0xFE00, 0xFFFF, 0x0⟩,
  ⟨"MEDx_SV_LIN_h_i", 0x520034, 12, 0x100, 1, 0x0, 1, 0x0, .rw, .any, 0xFE80, 0xFFFF, 0x0⟩,
  ⟨"MEDx_SV_LIN_h_i", 0x520038, 12, 0x100, 1, 0x0, 1, 0x0, .rw, .any, 0xFF00, 0xFFFF, 0x0⟩,
  ⟨"MEDx_SV_LIN_h_i", 0x52003C, 12, 0x100, 1, 0x0, 1, 0x0, .rw, .any, 0xFF80, 0xFFFF, 0x0⟩,
  ⟨"MEDx_SV_LIN_h_i", 0x520040, 12, 0x100, 1, 0x0, 1, 0x0, .rw, .any, 0x0, 0xFFFF, 0x0⟩,
  ⟨"MEDx_SV_LIN_h_i", 0x520044, 12, 0x100, 1, 0x0, 1, 0x0, .rw, .any, 0x80, 0xFFFF, 0x0⟩]

/-- Rows of the MEDx windows (spec/10 R309, spec/11 R336, spec/12 R359, spec/13 R393), part 6. -/
def medRows6 : List Row := [
  ⟨"MEDx_SV_LIN_h_i", 0x520048, 12, 0x100, 1, 0x0, 1, 0x0, .rw, .any, 0x100, 0xFFFF, 0x0⟩,
  ⟨"MEDx_SV_LIN_h_i", 0x52004C, 12, 0x100, 1, 0x0, 1, 0x0, .rw, .any, 0x180, 0xFFFF, 0x0⟩,
  ⟨"MEDx_SV_LIN_h_i", 0x520050, 12, 0x100, 1, 0x0, 1, 0x0, .rw, .any, 0x200, 0xFFFF, 0x0⟩,
  ⟨"MEDx_SV_LIN_h_i", 0x520054, 12, 0x100, 1, 0x0, 1, 0x0, .rw, .any, 0x280, 0xFFFF, 0x0⟩,
  ⟨"MEDx_SV_LIN_h_i", 0x520058, 12, 0x100, 1, 0x0, 1, 0x0, .rw, .any, 0x300, 0xFFFF, 0x0⟩,
  ⟨"MEDx_SV_LIN_h_i", 0x52005C, 12, 0x100, 1, 0x0, 1, 0x0, .rw, .any, 0x380, 0xFFFF, 0x0⟩,
  ⟨"MEDx_SV_LIN_h_i", 0x520060, 12, 0x100, 1, 0x0, 1, 0x0, .rw, .any, 0x400, 0xFFFF, 0x0⟩,
  ⟨"MEDx_SV_LIN_h_i", 0x520064, 12, 0x100, 1, 0x0, 1, 0x0, .rw, .any, 0x480, 0xFFFF, 0x0⟩,
  ⟨"MEDx_SV_LIN_h_i", 0x520068, 12, 0x100, 1, 0x0, 1, 0x0, .rw, .any, 0x500, 0xFFFF, 0x0⟩,
  ⟨"MEDx_SV_LIN_h_i", 0x52006C, 12, 0x100, 1, 0x0, 1, 0x0, .rw, .any, 0x580, 0xFFFF, 0x0⟩,
  ⟨"MEDx_SV_LIN_h_i", 0x520070, 12, 0x100, 1, 0x0, 1, 0x0, .rw, .any, 0x600, 0xFFFF, 0x0⟩,
  ⟨"MEDx_SV_LIN_h_i", 0x520074, 12, 0x100, 1, 0x0, 1, 0x0, .rw, .any, 0x680, 0xFFFF, 0x0⟩,
  ⟨"MEDx_SV_LIN_h_i", 0x520078, 12, 0x100, 1, 0x0, 1, 0x0, .rw, .any, 0x700, 0xFFFF, 0x0⟩,
  ⟨"MEDx_SV_LIN_h_i", 0x52007C, 12, 0x100, 1, 0x0, 1, 0x0, .rw, .any, 0x780, 0xFFFF, 0x0⟩,
  ⟨"MEDx_SV_LIN_h_i", 0x520080, 12, 0x100, 1, 0x0, 1, 0x0, .rw, .any, 0x800, 0xFFFF, 0x0⟩,
  ⟨"MEDx_SV_TRACE_r_w", 0x580000, 8192, 0x10, 4, 0x4, 1, 0x0, .ro, .any, 0x0, 0x0, 0x0⟩]

/-- Rows of the MEDx windows (spec/10 R309, spec/11 R336, spec/12 R359, spec/13 R393). -/
def medRows : List Row := medRows1 ++ medRows2 ++ medRows3 ++ medRows4 ++ medRows5 ++ medRows6

/-- Rows of the MOT window (spec/14 R420), part 1. -/
def motRows1 : List Row := [
  ⟨"MOT_ID", 0x0, 1, 0x0, 1, 0x0, 1, 0x0, .ro, .any, 0x9600601, 0x0, 0x0⟩,
  ⟨"MOT_CTRL", 0x4, 1, 0x0, 1, 0x0, 1, 0x0, .rw, .any, 0x6, 0x7, 0x0⟩,
  ⟨"MOT_STATUS", 0x8, 1, 0x0, 1, 0x0, 1, 0x0, .ro, .any, 0x0, 0x0, 0x0⟩,
  ⟨"MOT_EVENT_STATUS", 0xC, 1, 0x0, 1, 0x0, 1, 0x0, .w1c, .any, 0x0, 0xFFFF, 0x0⟩,
  ⟨"MOT_EVENT_ENABLE", 0x10, 1, 0x0, 1, 0x0, 1, 0x0, .rw, .any, 0x0, 0xFFFF, 0x0⟩,
  ⟨"MOT_SPD_CMD", 0x14, 1, 0x0, 1, 0x0, 1, 0x0, .rw, .any, 0x0, 0x1FFF, 0x0⟩,
  ⟨"MOT_SPD_REF", 0x18, 1, 0x0, 1, 0x0, 1, 0x0, .ro, .any, 0x0, 0x0, 0x0⟩,
  ⟨"MOT_SPD_ACT", 0x1C, 1, 0x0, 1, 0x0, 1, 0x0, .ro, .any, 0x0, 0x0, 0x0⟩,
  ⟨"MOT_RAMP", 0x20, 1, 0x0, 1, 0x0, 1, 0x0, .rw, .any, 0x3E803E8, 0xFFFFFFFF, 0x0⟩,
  ⟨"MOT_SPD_OK", 0x24, 1, 0x0, 1, 0x0, 1, 0x0, .rw, .any, 0x80020, 0xFFFFFF, 0x0⟩,
  ⟨"MOT_SPD_LOOP", 0x28, 1, 0x0, 1, 0x0, 1, 0x0, .rw, .any, 0x4000200, 0xFFFFFFFF, 0x0⟩,
  ⟨"MOT_ILIM", 0x2C, 1, 0x0, 1, 0x0, 1, 0x0, .rw, .any, 0x4B009C4, 0xFFFFFFFF, 0x0⟩,
  ⟨"MOT_PWM", 0x30, 1, 0x0, 1, 0x0, 1, 0x0, .rw, .any, 0x82801F4, 0xFFFF0FFF, 0x0⟩,
  ⟨"MOT_HALL", 0x34, 1, 0x0, 1, 0x0, 1, 0x0, .rw, .any, 0x2CC99, 0xFF03FFFF, 0x0⟩,
  ⟨"MOT_OBS", 0x38, 1, 0x0, 1, 0x0, 1, 0x0, .rw, .any, 0x150B0578, 0xFFFFFFFF, 0x0⟩,
  ⟨"MOT_OBS2", 0x3C, 1, 0x0, 1, 0x0, 1, 0x0, .rw, .any, 0x7D0003C, 0xFFFF00FF, 0x0⟩,
  ⟨"MOT_START", 0x40, 1, 0x0, 1, 0x0, 1, 0x0, .rw, .any, 0x321414, 0xFFFFFF, 0x0⟩,
  ⟨"MOT_OPENLOOP", 0x44, 1, 0x0, 1, 0x0, 1, 0x0, .rw, .any, 0x12CC8, 0xFFFFFF, 0x0⟩,
  ⟨"MOT_SHUNT", 0x48, 1, 0x0, 1, 0x0, 1, 0x0, .rw, .any, 0x5780528, 0xFFF0FFF, 0x0⟩,
  ⟨"MOT_PL_CFG", 0x4C, 1, 0x0, 1, 0x0, 1, 0x0, .rw, .any, 0x141B83FC, 0xFFFFFFFF, 0x0⟩,
  ⟨"MOT_HOLD", 0x50, 1, 0x0, 1, 0x0, 1, 0x0, .rw, .any, 0x2580384, 0xFFF0FFF, 0x0⟩,
  ⟨"MOT_RETRACT_A", 0x54, 1, 0x0, 1, 0x0, 1, 0x0, .rw, .any, 0xA1E0064, 0xFFFF0FFF, 0x0⟩,
  ⟨"MOT_RETRACT_B", 0x58, 1, 0x0, 1, 0x0, 1, 0x0, .rw, .any, 0xA1E0064, 0xFFFF0FFF, 0x0⟩,
  ⟨"MOT_VCM_FS", 0x5C, 1, 0x0, 1, 0x0, 1, 0x0, .rw, .any, 0xBB805DC, 0xFFF0FFF, 0x0⟩,
  ⟨"MOT_LANE", 0x60, 1, 0x0, 1, 0x0, 1, 0x0, .rw, .any, 0x32, 0xFF, 0x0⟩,
  ⟨"MOT_LANE_ERR", 0x64, 1, 0x0, 1, 0x0, 1, 0x0, .rc, .any, 0x0, 0x0, 0x0⟩,
  ⟨"MOT_PHASE_I", 0x68, 1, 0x0, 1, 0x0, 1, 0x0, .ro, .any, 0x0, 0x0, 0x0⟩,
  ⟨"MOT_VM", 0x6C, 1, 0x0, 1, 0x0, 1, 0x0, .ro, .any, 0x0, 0x0, 0x0⟩,
  ⟨"MOT_VIN5", 0x70, 1, 0x0, 1, 0x0, 1, 0x0, .ro, .any, 0x0, 0x0, 0x0⟩,
  ⟨"MOT_SPIN_I", 0x74, 1, 0x0, 1, 0x0, 1, 0x0, .ro, .any, 0x0, 0x0, 0x0⟩]

/-- Rows of the MOT window (spec/14 R420), part 2. -/
def motRows2 : List Row := [
  ⟨"MOT_LOST_CNT", 0x78, 1, 0x0, 1, 0x0, 1, 0x0, .rc, .any, 0x0, 0x0, 0x0⟩,
  ⟨"MOT_HALL_ERR", 0x7C, 1, 0x0, 1, 0x0, 1, 0x0, .rc, .any, 0x0, 0x0, 0x0⟩,
  ⟨"MOT_DIP_CNT", 0x80, 1, 0x0, 1, 0x0, 1, 0x0, .rc, .any, 0x0, 0x0, 0x0⟩,
  ⟨"MOT_PL_CTRL", 0x84, 1, 0x0, 1, 0x0, 1, 0x0, .wo, .any, 0x0, 0x0, 0x0⟩,
  ⟨"MOT_IIN", 0x88, 1, 0x0, 1, 0x0, 1, 0x0, .ro, .any, 0x0, 0x0, 0x0⟩]

/-- Rows of the MOT window (spec/14 R420). -/
def motRows : List Row := motRows1 ++ motRows2

/-- Rows of the CRU window (spec/18 R490, spec/19 R522), part 1. -/
def cruRows1 : List Row := [
  ⟨"CF_ID", 0x100000, 1, 0x0, 1, 0x0, 1, 0x0, .ro, .crucible, 0x9601401, 0x0, 0x0⟩,
  ⟨"CF_STATUS", 0x100004, 1, 0x0, 1, 0x0, 1, 0x0, .ro, .crucible, 0x0, 0x0, 0x0⟩,
  ⟨"CF_ACTL_CMD", 0x100008, 1, 0x0, 1, 0x0, 1, 0x0, .rw, .romRoutine, 0x0, 0x80000013, 0x80000000⟩,
  ⟨"CF_ACTL_ADDR", 0x10000C, 1, 0x0, 1, 0x0, 1, 0x0, .rw, .romRoutine, 0x0, 0x3FFFFFF, 0x0⟩,
  ⟨"CF_ACTL_LEN", 0x100010, 1, 0x0, 1, 0x0, 1, 0x0, .rw, .romRoutine, 0x0, 0x1FF, 0x0⟩,
  ⟨"CF_LAST", 0x100014, 1, 0x0, 1, 0x0, 1, 0x0, .ro, .crucible, 0x0, 0x0, 0x0⟩,
  ⟨"CF_LAST_ADDR", 0x100018, 1, 0x0, 1, 0x0, 1, 0x0, .ro, .crucible, 0x0, 0x0, 0x0⟩,
  ⟨"CF_OPS", 0x10001C, 1, 0x0, 1, 0x0, 1, 0x0, .rc, .crucible, 0x0, 0x0, 0x0⟩,
  ⟨"CF_FAILS", 0x100020, 1, 0x0, 1, 0x0, 1, 0x0, .rc, .crucible, 0x0, 0x0, 0x0⟩,
  ⟨"CF_GATES", 0x100024, 1, 0x0, 1, 0x0, 1, 0x0, .rc, .crucible, 0x0, 0x0, 0x0⟩,
  ⟨"CF_WLOCK_n", 0x100040, 4, 0x4, 1, 0x0, 1, 0x0, .rw, .crucible, 0x0, 0xFFFF3FFF, 0x0⟩,
  ⟨"CF_HIDE", 0x100050, 1, 0x0, 1, 0x0, 1, 0x0, .rw, .crucible, 0x0, 0xFFFF3FFF, 0x0⟩,
  ⟨"CF_ACTL_BUF_i", 0x100100, 64, 0x4, 1, 0x0, 1, 0x0, .wo, .romRoutine, 0x0, 0x0, 0x0⟩,
  ⟨"CRU_ID", 0x0, 1, 0x0, 1, 0x0, 1, 0x0, .ro, .crucible, 0x9600701, 0x0, 0x0⟩,
  ⟨"CRU_LC", 0x4, 1, 0x0, 1, 0x0, 1, 0x0, .ro, .crucible, 0x0, 0x0, 0x0⟩,
  ⟨"CRU_LC_RAW", 0x8, 1, 0x0, 1, 0x0, 1, 0x0, .ro, .crucible, 0x0, 0x0, 0x0⟩,
  ⟨"CRU_VAULT", 0xC, 1, 0x0, 1, 0x0, 1, 0x0, .ro, .crucible, 0x0, 0x0, 0x0⟩,
  ⟨"CRU_EVENT_STATUS", 0x10, 1, 0x0, 1, 0x0, 1, 0x0, .w1c, .crucible, 0x0, 0x1FFF, 0x0⟩,
  ⟨"CRU_EVENT_ENABLE", 0x14, 1, 0x0, 1, 0x0, 1, 0x0, .rw, .crucible, 0x0, 0x1FFF, 0x0⟩,
  ⟨"CRU_BOOT", 0x18, 1, 0x0, 1, 0x0, 1, 0x0, .ro, .crucible, 0x0, 0x0, 0x0⟩,
  ⟨"CRU_WDOG", 0x1C, 1, 0x0, 1, 0x0, 1, 0x0, .wo, .crucible, 0x0, 0x0, 0x0⟩,
  ⟨"CRU_FUSE_CMD", 0x20, 1, 0x0, 1, 0x0, 1, 0x0, .rw, .crucible, 0x0, 0x8000FF0F, 0x80000000⟩,
  ⟨"CRU_FUSE_STAT", 0x24, 1, 0x0, 1, 0x0, 1, 0x0, .ro, .crucible, 0x0, 0x0, 0x0⟩,
  ⟨"CRU_FUSE_DATA_w", 0x28, 8, 0x4, 1, 0x0, 1, 0x0, .wo, .crucible, 0x0, 0x0, 0x0⟩,
  ⟨"CRU_KEK", 0x48, 1, 0x0, 1, 0x0, 1, 0x0, .ro, .crucible, 0x0, 0x0, 0x0⟩,
  ⟨"CRU_SVN", 0x4C, 1, 0x0, 1, 0x0, 1, 0x0, .ro, .crucible, 0x0, 0x0, 0x0⟩,
  ⟨"CRU_KEYSLOT_s_w", 0x60, 4, 0x20, 8, 0x4, 1, 0x0, .ro, .crucible, 0x0, 0x0, 0x0⟩,
  ⟨"CRU_APERTURE", 0x100, 1, 0x0, 1, 0x0, 1, 0x0, .rw, .crucible, 0x0, 0xFFF, 0x0⟩,
  ⟨"CRU_CORE_CTRL", 0x104, 1, 0x0, 1, 0x0, 1, 0x0, .rw, .crucible, 0x0, 0x3F3F, 0x3F00⟩,
  ⟨"CRU_CORE_VEC_LO", 0x108, 1, 0x0, 1, 0x0, 1, 0x0, .rw, .crucible, 0x0, 0xFFFFFFFF, 0x0⟩]

/-- Rows of the CRU window (spec/18 R490, spec/19 R522), part 2. -/
def cruRows2 : List Row := [
  ⟨"CRU_CORE_VEC_HI", 0x10C, 1, 0x0, 1, 0x0, 1, 0x0, .rw, .crucible, 0x0, 0xFF, 0x0⟩,
  ⟨"CRU_CORE_A0", 0x110, 1, 0x0, 1, 0x0, 1, 0x0, .rw, .crucible, 0x0, 0xFFFFFFFF, 0x0⟩,
  ⟨"CRU_L2_INV", 0x114, 1, 0x0, 1, 0x0, 1, 0x0, .rw, .crucible, 0x0, 0xBFFF3FFF, 0x80000000⟩,
  ⟨"CRU_RNG_STATUS", 0x120, 1, 0x0, 1, 0x0, 1, 0x0, .ro, .crucible, 0x0, 0x0, 0x0⟩,
  ⟨"CRU_RNG_DATA", 0x124, 1, 0x0, 1, 0x0, 1, 0x0, .rc, .crucible, 0x0, 0x0, 0x0⟩,
  ⟨"CRU_HASH_CTRL", 0x140, 1, 0x0, 1, 0x0, 1, 0x0, .rw, .crucible, 0x0, 0xFF01, 0x1⟩,
  ⟨"CRU_HASH_SRC_LO", 0x144, 1, 0x0, 1, 0x0, 1, 0x0, .rw, .crucible, 0x0, 0xFFFFFFFF, 0x0⟩,
  ⟨"CRU_HASH_LEN", 0x148, 1, 0x0, 1, 0x0, 1, 0x0, .rw, .crucible, 0x0, 0xFFFFFFFF, 0x0⟩,
  ⟨"CRU_HASH_OUT_w", 0x160, 16, 0x4, 1, 0x0, 1, 0x0, .ro, .crucible, 0x0, 0x0, 0x0⟩,
  ⟨"CRU_BAND_CMD", 0x200, 1, 0x0, 1, 0x0, 1, 0x0, .rw, .crucible, 0x0, 0x8000073F, 0x80000000⟩,
  ⟨"CRU_BAND_STAT", 0x204, 1, 0x0, 1, 0x0, 1, 0x0, .ro, .crucible, 0x0, 0x0, 0x0⟩,
  ⟨"CRU_BAND_WRAP_w", 0x208, 18, 0x4, 1, 0x0, 1, 0x0, .rw, .crucible, 0x0, 0xFFFFFFFF, 0x0⟩,
  ⟨"CRU_MBX_RX_w", 0x300, 8, 0x4, 1, 0x0, 1, 0x0, .ro, .crucible, 0x0, 0x0, 0x0⟩,
  ⟨"CRU_MBX_RX_POP", 0x320, 1, 0x0, 1, 0x0, 1, 0x0, .wo, .crucible, 0x0, 0x0, 0x0⟩,
  ⟨"CRU_MBX_STATUS", 0x324, 1, 0x0, 1, 0x0, 1, 0x0, .ro, .crucible, 0x0, 0x0, 0x0⟩,
  ⟨"CRU_MBX_TX_w", 0x340, 8, 0x4, 1, 0x0, 1, 0x0, .rw, .crucible, 0x0, 0xFFFFFFFF, 0x0⟩,
  ⟨"CRU_MBX_TX_GO", 0x360, 1, 0x0, 1, 0x0, 1, 0x0, .wo, .crucible, 0x0, 0x0, 0x0⟩,
  ⟨"CRU_WIN_f_w", 0x10000, 9, 0x100, 16, 0x10, 1, 0x0, .rw, .crucible, 0x0, 0xFFFFFFF, 0x0⟩,
  ⟨"CRU_WIN_f_w", 0x10004, 9, 0x100, 16, 0x10, 1, 0x0, .rw, .crucible, 0x0, 0xFFFFFFF, 0x0⟩,
  ⟨"CRU_WIN_f_w", 0x1000C, 9, 0x100, 16, 0x10, 1, 0x0, .rw, .crucible, 0x0, 0x1, 0x0⟩,
  ⟨"CRU_SWIN_w", 0x11000, 64, 0x10, 1, 0x0, 1, 0x0, .rw, .crucible, 0x0, 0xFFFFFFF, 0x0⟩,
  ⟨"CRU_SWIN_w", 0x11004, 64, 0x10, 1, 0x0, 1, 0x0, .rw, .crucible, 0x0, 0xFFFFFFF, 0x0⟩,
  ⟨"CRU_SWIN_w", 0x1100C, 64, 0x10, 1, 0x0, 1, 0x0, .rw, .crucible, 0x0, 0x1, 0x0⟩]

/-- Rows of the CRU window (spec/18 R490, spec/19 R522). -/
def cruRows : List Row := cruRows1 ++ cruRows2

/-- Rows of the SVC window (spec/19 R523). -/
def svcRows : List Row := [
  ⟨"SVC_CMBX_TX_w", 0x700000, 8, 0x4, 1, 0x0, 1, 0x0, .rw, .any, 0x0, 0xFFFFFFFF, 0x0⟩,
  ⟨"SVC_CMBX_TX_GO", 0x700020, 1, 0x0, 1, 0x0, 1, 0x0, .wo, .any, 0x0, 0x0, 0x0⟩,
  ⟨"SVC_CMBX_STATUS", 0x700024, 1, 0x0, 1, 0x0, 1, 0x0, .ro, .any, 0x0, 0x0, 0x0⟩,
  ⟨"SVC_CMBX_RX_w", 0x700040, 8, 0x4, 1, 0x0, 1, 0x0, .ro, .any, 0x0, 0x0, 0x0⟩,
  ⟨"SVC_CMBX_RX_POP", 0x700060, 1, 0x0, 1, 0x0, 1, 0x0, .wo, .any, 0x0, 0x0, 0x0⟩,
  ⟨"SVC_CMBX_INT", 0x700064, 1, 0x0, 1, 0x0, 1, 0x0, .rw, .any, 0x0, 0x107, 0x0⟩]

/-- Whether a row covers the offset `o`. -/
def Row.covers (r : Row) (o : Nat) : Bool :=
  if o < r.base then false else
    let d := o - r.base
    let i := d / r.s1
    let d1 := d % r.s1
    let j := d1 / r.s2
    let d2 := d1 % r.s2
    let k := d2 / r.s3
    i < r.n1 && j < r.n2 && k < r.n3 && d2 % r.s3 = 0

/-- The row of an address, if a register is defined there. -/
def rowAt (a : Nat) : Option Row :=
  let o := a % 0x1000000
  let find (rs : List Row) : Option Row := rs.find? fun r => r.covers o
  let eft (n : Nat) : Option Row :=
    if 0x400000 ≤ o && o < 0x400000 + n * 0x1000 then eftRows.find? fun r => r.covers ((o - 0x400000) % 0x1000) else none
  match a / 0x1000000 with
  | 0x20 => find netRows
  | 0x21 => find svcRows
  | 0x22 => (eft 2).or (find medRows)
  | 0x23 => (eft 2).or (find medRows)
  | 0x24 => (eft 8).or (find stgRows)
  | 0x25 => find xfmRows
  | 0x26 => find motRows
  | 0x27 => find cruRows
  | 0x28 => find sysRows
  | _ => none

/-- Reset value of the register at an address: the Reset column of its table (R12), 0 where none is defined. The
identity register of an STG eft reads another value than that of a MEDx eft (R197). -/
def resetOf (a : Nat) : Word :=
  if a / 0x1000000 = 0x24 && a % 0x1000000 / 0x8000 = 0x80 && a % 0x1000 = 0 then 0x09600E11
  else match rowAt a with
    | some r => r.rst
    | none => 0

end Sys2Proof.Reg
end

