-- ==== Sys2Proof/Machine/StateBudget.lean ====
section
/-!
DEFINITION. Machine/StateBudget.lean: state of the thermal model, quench monitor, budget arbiter and AVFS loop beyond
their registers (spec/15).
-/

namespace Sys2Proof.Machine

/-- One budget window as the averages keep it (R421, R428, R435): meters 0 to 14, P_IN and the grants of functions 2 to
5. -/
structure BaWindow where
  meters : List Nat
  pIn : Nat
  grants : List Nat
  deriving DecidableEq, Repr

/-- State of the blocks of spec/15. -/
structure Bud where
  /-- The last ten windows, newest first. -/
  windows : List BaWindow
  /-- Nodes whose THERM_WARN and THERM_LIMIT have been raised and not re-armed (R429). -/
  warned : List Nat
  limited : List Nat
  /-- Heads (actuator, head) whose last unit entry waited (R434). -/
  heldHeads : List (Nat × Nat)
  /-- Whether the last sample of each sensor was over the quench threshold (R425). -/
  hot : List Bool
  /-- The device is quenched: clocks stopped (R426), with the tripping sensor and the peak. -/
  quenched : Option (Nat × Nat)
  /-- AVFS counters hi and lim (R439). -/
  avHi : Nat
  avLim : Nat
  deriving DecidableEq, Repr

/-- The blocks of spec/15 after reset. -/
def Bud.reset : Bud :=
  { windows := [], warned := [], limited := [], heldHeads := [],
    hot := List.replicate 20 false, quenched := none, avHi := 0, avLim := 0 }

end Sys2Proof.Machine
end

