-- ==== Sys2Proof/Machine/StateCal.lean ====
section
/-!
DEFINITION. Machine/StateCal.lean: state of the calibration controller beyond its registers (spec/16).
-/

namespace Sys2Proof.Machine

/-- A fly-height run (R449, R450). -/
structure FhRun where
  /-- Heads still to sweep, ascending. -/
  todo : List Nat
  /-- Head whose sweep runs. -/
  cur : Option Nat
  /-- After a sweep: the head, its new code, and the HEAT_W and HEAT_R its sixteen band entries move to. -/
  moving : Option (Nat × Nat × List (Nat × Nat))
  /-- A head of this run has failed. -/
  failed : Bool
  deriving DecidableEq, Repr

/-- State of the calibration controller. PENDING, ACTIVE and FAILED stand in CAL_STATUS, T_LAST and RESULT in
CAL_SUB_LAST_s. -/
structure Cal where
  /-- Subsystems whose boundary the controller forces (R448). -/
  forced : List Nat
  /-- Milliseconds of the present second of each subsystem's age. -/
  ageMs : List Nat
  /-- Measurement periods of each slice in the run in progress: key (actuator × 2 + reader) × 34 + slice. -/
  periods : List (Nat × Nat)
  /-- Slices whose measurement has not fed a correction (R447). -/
  fresh : List Nat
  fhA : Option FhRun
  fhB : Option FhRun
  /-- Elements replaced by spares, for each subsystem and lane (R451). -/
  retired : List (Nat × Nat)
  deriving DecidableEq, Repr

/-- The controller after reset. -/
def Cal.reset : Cal :=
  { forced := [], ageMs := List.replicate 8 0, periods := [], fresh := [], fhA := none, fhB := none,
    retired := [] }

end Sys2Proof.Machine
end

