-- ==== Sys2Proof/Machine/StateCf.lean ====
section
/-!
DEFINITION. Machine/StateCf.lean: state of the code flash, its array controller and the XIP controller that is no register
(spec/18).
-/

namespace Sys2Proof.Machine

/-- The array operation in progress (R486). -/
structure CfOp where
  /-- 1 program, 2 erase sector, 3 erase block. -/
  kind : Nat
  /-- First offset of the target and its bytes. -/
  off : Nat
  len : Nat
  /-- Pulses begun. -/
  attempt : Nat
  /-- FLAGS.STALL (R485). -/
  stall : Bool
  /-- The pulse has ended and the verify runs. -/
  verifying : Bool
  deriving DecidableEq, Repr

/-- What the ROM routine last returned in a0 to a2 (R483). -/
structure CfRet where
  a0 : Nat
  a1 : Nat
  a2 : Nat
  deriving DecidableEq, Repr

/-- State of the code flash beyond its registers. -/
structure Cf where
  /-- The array by offset; an unlisted byte is erased, 0xFF. -/
  arr : Sparse Byte
  /-- The operation in progress. -/
  op : Option CfOp
  ret : CfRet
  /-- Prefetched line numbers of banks 0 and 1 (R479). -/
  pf0 : List Nat
  pf1 : List Nat
  /-- The branch cache, most recently used line first (R479). -/
  bc : List Nat
  /-- The last line read of each bank (R479). -/
  last0 : Option Nat
  last1 : Option Nat
  /-- Reads waiting for a read gap, oldest first: line, and whether the Crucible core made it (R487). -/
  waiting : List (Nat × Bool)
  /-- Flash lines that the level-2 cache holds (R480, R481). -/
  l2 : List Nat
  /-- The last line delivered. -/
  line : List Byte
  deriving DecidableEq, Repr

/-- The code flash as it leaves the factory, after a reset. -/
def Cf.reset : Cf :=
  { arr := [], op := none, ret := ⟨0, 0, 0⟩, pf0 := [], pf1 := [], bc := [], last0 := none, last1 := none, waiting := [],
    l2 := [], line := [] }

end Sys2Proof.Machine
end

