-- ==== Sys2Proof/Machine/StateSys.lean ====
section
/-!
DEFINITION. Machine/StateSys.lean: state of SYS and of the power die that is no register: the event controller and
recorder (spec/20), the memory-protection unit (spec/17), and the supplies, resets and slow-input filter (spec/21).
-/

namespace Sys2Proof.Machine

open Sys2Proof

/-- A recorder record (R534). Its CRC is a function of the other fields, computed when the record is laid out. -/
structure Rec where
  /-- TIME, 63 bits: UTC ms, or ms since power-on while `unsync` (R534, R535). -/
  time : Nat
  /-- UNSYNC (R534). -/
  unsync : Bool
  /-- SEQ, 32 bits (R536). -/
  seq : Nat
  /-- CODE, 16 bits: source and condition (R534). -/
  code : Nat
  /-- FUNC, 4 bits (R601). -/
  func : Nat
  /-- SEV, 3 bits (R534). -/
  sev : Nat
  /-- SUPP, 8 bits (R534, R537). -/
  supp : Nat
  /-- PAYLOAD, 12 bytes (R534). -/
  payload : List Byte
  deriving DecidableEq, Repr

/-- State of the event controller and recorder beyond their registers (spec/20). -/
structure Evc where
  /-- The AON buffer: records accepted and not yet popped, oldest first, at most 256 (R536, R538). -/
  buf : List Rec
  /-- The record clock in ms (R535), 63 bits. -/
  timeMs : Nat
  /-- UNSYNC: no SET_TIME since power-on (R535). -/
  unsync : Bool
  /-- SEQ the next accepted record takes (R536). -/
  nextSeq : Nat
  /-- Tokens taken from the bucket of each source and not yet regained (R537). -/
  tokensUsed : Sparse Nat
  /-- SUPP counts of up to 64 codes, most recently suppressed first (R537). -/
  supp : List (Nat × Nat)
  /-- FULL: the recorder region is full (R539). -/
  full : Bool
  /-- The service image's hold of the recorder, EVC_CTRL.FREEZE (R540). -/
  frozenSvc : Bool
  /-- The sideband's hold of the recorder (R540). -/
  frozenSb : Bool
  deriving DecidableEq, Repr

/-- The three copies of a triplicated word (R473). -/
structure Trip where
  c0 : Word
  c1 : Word
  c2 : Word
  deriving DecidableEq, Repr

/-- The scrubber (R470 to R472). -/
structure Scrub where
  /-- BUSY (R470). -/
  busy : Bool
  /-- Address of the next word to read. -/
  next : Nat
  /-- STOP was written: the scrub ends after the word in progress (R472). -/
  stop : Bool
  deriving DecidableEq, Repr

/-- State of the memory-protection unit and the DRAM interface beyond their registers (spec/17). -/
structure MemUnit where
  /-- Symbol errors of stored words: key m × 2^40 + word address, value the 80-bit error pattern (R460, R462). -/
  errs : Sparse (BitVec 80)
  /-- CE_THRESH disarmed, per memory (R463). -/
  ceDisarmed : List Nat
  /-- The five triplicated words: life-cycle, key vault, fence mask, recorder fault, boot counter (R473). -/
  trip0 : Trip
  trip1 : Trip
  trip2 : Trip
  trip3 : Trip
  trip4 : Trip
  /-- The scrubber (R470). -/
  scrub : Scrub
  /-- DRAM trained and usable: MEM_STATUS.DRAM_READY (R457). -/
  dramReady : Bool
  /-- MEM_STATUS.RATE, the rate in use (R457). -/
  rate : Nat
  /-- MEM_STATUS.CAP: 0 none, 1 8 GiB, 2 16 GiB (R477). -/
  cap : Nat
  /-- WIPE_BUSY: a wipe runs (R474). -/
  wipeBusy : Bool
  /-- MEM_RETAIN.RETAINED (R475). -/
  retained : Bool
  /-- Refresh range last read from MR4 of each of the five devices (R458). -/
  mr4 : List Nat
  /-- All-bank refreshes issued, a count for the refresh command (R458). -/
  refreshes : Nat
  /-- Devices are in self-refresh (R559). -/
  selfRefresh : Bool
  /-- A cold reset's training has not ended yet (R457). -/
  training : Bool
  deriving DecidableEq, Repr

/-- Where a power-up stands (R549 to R552). -/
inductive PowerUp where
  /-- Inputs not both good. -/
  | off
  /-- The 2 ms hold of R549 runs. -/
  | holding
  /-- ISO_GATE on, VM ramping (R549). -/
  | ramping
  /-- Waiting 1 s after a failed ramp (R550). -/
  | retryWait
  /-- Three ramps failed: off until VIN12 falls and rises (R550). -/
  | gaveUp
  /-- Rails starting; the argument is the order of the last one started (R551). -/
  | rails (k : Nat)
  /-- Every rail started, reset hold of 10 ms (R551). -/
  | resetHold
  /-- Power up complete. -/
  | up
  /-- Rails turned off after a rail fault, waiting 100 ms (R552). -/
  | railFault (order : Nat)
  deriving DecidableEq, Repr

/-- Reset kinds of R557, in rising strength. -/
inductive ResetKind where
  | warm | device | cold
  deriving DecidableEq, Repr

/-- One input of the slow-input filter (R565 to R568). -/
structure Sif where
  /-- The pin's level. -/
  raw : Bool
  /-- The filtered output (R565). -/
  out : Bool
  /-- Accepted transitions in the present window (R566). -/
  count : Nat
  /-- SIF_CFG in force, taken at window boundaries (Table "SIF_CFG reset values"): words A and B. -/
  cfgA : Word
  cfgB : Word
  /-- Re-armed and waiting for the present level to hold for MINW (R568). -/
  rearming : Bool
  deriving DecidableEq, Repr

/-- State of the supplies, resets and pins beyond their registers (spec/21). -/
structure Pwr where
  /-- VIN12 and VIN5 above their thresholds (R549). -/
  vin12Good : Bool
  vin5Good : Bool
  /-- Where the power-up stands (R549 to R552). -/
  powerUp : PowerUp
  /-- Good rails, bit k for the rail of order k (R548). -/
  pg : Nat
  /-- ISO_GATE on (R547). -/
  isoOn : Bool
  /-- VM has reached 10.8 V (R551). -/
  vmGood : Bool
  /-- Failed ramps of the last power-up (R550). -/
  tries : Nat
  /-- Hold-up runs (R413, R415). -/
  holdup : Bool
  /-- When the service image's write of MOT_PL_CTRL.DONE is due in hold-up (R416). -/
  doneBy : Nat
  /-- RESET_N low (R557). -/
  resetPinLow : Bool
  /-- The reset in progress: its kind and cause (R557, R560); none when the logic die runs. -/
  inReset : Option (ResetKind × Nat)
  /-- VAON fell below its retention level since the last reset (R558). -/
  aonLost : Bool
  /-- Rail order recorded for PWR_CAUSE.RAIL (R552). -/
  railCause : Nat
  /-- The filtered inputs 0 to 7 (Table "Filtered inputs"). -/
  sif0 : Sif
  sif1 : Sif
  sif2 : Sif
  sif3 : Sif
  sif4 : Sif
  sif5 : Sif
  sif6 : Sif
  sif7 : Sif
  /-- The AON domain runs from its internal oscillator after a crystal failure (R598). -/
  aonInternalOsc : Bool
  /-- An AON register write is in its handshake (R31). -/
  aonBusy : Bool
  /-- The sprue link: aligned, retraining or failed (R17). -/
  sprueUp : Bool
  sprueFailed : Bool
  /-- The straps as sampled: SB_MODE1 and SB_MODE0, and TEST_EN (R578). -/
  sbMode : BitVec 2
  testEn : Bool
  /-- The debug port's instruction in force (R579). -/
  tap : TapIr
  deriving DecidableEq, Repr

/-- The event controller after a power-on cold reset (R535, R536, R545). -/
def Evc.reset : Evc :=
  { buf := [], timeMs := 0, unsync := true, nextSeq := 0, tokensUsed := [], supp := [], full := false,
    frozenSvc := false, frozenSb := false }

/-- A triplicated word with the value 0. -/
def Trip.zero : Trip := ⟨0, 0, 0⟩

/-- The memory unit after a power-on cold reset. The life-cycle word is that of state BLANK and the boot counter is 0
(DESIGN CHOICE, log entry 10). -/
def MemUnit.reset : MemUnit :=
  { errs := [], ceDisarmed := [], trip0 := .zero, trip1 := .zero, trip2 := .zero, trip3 := .zero, trip4 := .zero,
    scrub := ⟨false, 0, false⟩, dramReady := false, rate := 0, cap := 0, wipeBusy := false, retained := false,
    mr4 := [0, 0, 0, 0, 0], refreshes := 0, selfRefresh := false, training := true }

/-- A filtered input whose pin and output are at the level `l`. -/
def Sif.at (l : Bool) (a b : Word) : Sif := ⟨l, l, 0, a, b, false⟩

/-- The power die at the release of the power-on cold reset: PWR_STATUS 0x3FF, outputs of the filter at their inactive
levels (R572: SIF_LEVEL 0xD800). -/
def Pwr.reset : Pwr :=
  { vin12Good := true, vin5Good := true, powerUp := .up, pg := 0xFF, isoOn := true, vmGood := true, tries := 0,
    holdup := false, doneBy := 0, resetPinLow := false, inReset := none, aonLost := false, railCause := 0,
    sif0 := ⟨false, false, 0, 0x002800C8, 0x0032000A, false⟩, sif1 := ⟨false, false, 0, 0x002800C8, 0x0032000A, false⟩,
    sif2 := ⟨false, false, 0, 0x002800C8, 0x0032000A, false⟩, sif3 := ⟨false, true, 0, 0x00044E20, 0x000003E8, false⟩,
    sif4 := ⟨false, true, 0, 0x000803E8, 0x000003E8, false⟩, sif5 := ⟨false, false, 0, 0x00082710, 0x271003E8, false⟩,
    sif6 := ⟨false, true, 0, 0x00100002, 0x0064000A, false⟩, sif7 := ⟨false, true, 0, 0x00100002, 0x0064000A, false⟩,
    aonInternalOsc := false, aonBusy := false, sprueUp := true, sprueFailed := false,
    sbMode := 0, testEn := false, tap := .idcode }

end Sys2Proof.Machine
end

