-- ==== Sys2Proof/Machine/StateCru.lean ====
section
/-!
DEFINITION. Machine/StateCru.lean: state of Crucible that is no register: fuses, mailbox FIFOs, the boot, running images,
staging and activation, and the engines' operations in progress (spec/19).
-/

namespace Sys2Proof.Machine

/-- The fuses and the vault (R494, R499); no reset changes them (R558). -/
structure Fuses where
  /-- The three copies of the life-cycle word and of the vault control word. -/
  lc : Trip
  vault : Trip
  /-- KEK_EPOCH and the SVN counters. -/
  kek : Nat
  svnCru : Nat
  svnSvc : Nat
  svnProf : Nat
  /-- Digests of key slots 0 to 3. -/
  slot0 : List Byte
  slot1 : List Byte
  slot2 : List Byte
  slot3 : List Byte
  /-- Identity seed. -/
  seed : List Byte
  deriving DecidableEq, Repr

/-- A running image: kind, offset of its manifest, SVN and VERSION (R504, R508). -/
structure RunImg where
  kind : Nat
  off : Nat
  svn : Nat
  version : Nat
  deriving DecidableEq, Repr

/-- The staging in progress (R512): target, place, bytes staged and blocks erased in it. -/
structure Staging where
  target : Nat
  place : Nat
  bytes : Nat
  erased : List Nat
  deriving DecidableEq, Repr

/-- Where a boot stands (R511). -/
inductive BootSt where
  /-- A reset was released and step 1 has not run. -/
  | due
  /-- Step 3: waiting for the end of DRAM training. -/
  | training
  /-- Step 7 done: waiting for the wipes. -/
  | wiping
  /-- Service cores released. -/
  | released
  /-- BLANK after step 2, waiting on the debug port. -/
  | blank
  /-- SCRAP after step 5, or no bootable service slot: the sideband alone answers. -/
  | sideband
  /-- A test failed or no Crucible slot boots: every function is held in reset. -/
  | held
  deriving DecidableEq, Repr

/-- An MCTP packet on the sideband: first and last of its message, sequence number, and at most 64 bytes (R71). -/
structure MctpPkt where
  som : Bool
  eom : Bool
  seq : Nat
  data : List Byte
  deriving DecidableEq, Repr

/-- State of Crucible beyond its registers. -/
structure Cru where
  fuses : Fuses
  /-- Requests to Crucible and replies to the service image, 32 bytes each, oldest first, at most 16 (R31, R519). -/
  rx : List (List Byte)
  tx : List (List Byte)
  /-- The fuse command in progress: OP and ARG (R499). -/
  burn : Option (Nat × Nat)
  /-- The hash in progress (R522). -/
  hashing : Bool
  /-- The band operation in progress: OP and band (R501). -/
  band : Option (Nat × Nat)
  boot : BootSt
  /-- The boot watchdog runs (R508). -/
  wdog : Bool
  /-- The service image is on trial and has not sent READY (R508). -/
  trial : Bool
  /-- Slots of the running Crucible and service images. -/
  cruSlot : Option Nat
  svcSlot : Option Nat
  /-- Running images. -/
  run : List RunImg
  /-- Measurements of Crucible, service image, MEDx eft, STG eft and profile, in that order (R517). -/
  meas : List (List Byte)
  staging : Option Staging
  /-- Live activation in progress: new slot and old slot (R513). -/
  activation : Option (Nat × Nat)
  /-- The boot ROM has opened manufacturing test access on the debug port (R578). -/
  testAccess : Bool
  /-- DEBUG_OPEN was accepted since the last cold reset (R496). -/
  debugOpen : Bool
  /-- Generate requests since the last reseed (R500). -/
  generated : Nat
  /-- Restart address and a0 of each service core (R522). -/
  cores : List (Nat × Nat)
  /-- The format epoch in effect (R141). -/
  epoch : Nat
  /-- Last response on the sideband, as MCTP packets (R71, R518). -/
  sideband : List MctpPkt
  /-- Dynamic address on I3C, once one is assigned (R70). -/
  i3cAddr : Option (BitVec 7)
  deriving DecidableEq, Repr

/-- Fuses of a module never programmed: state BLANK, no key. -/
def Fuses.blank : Fuses :=
  { lc := .zero, vault := .zero, kek := 0, svnCru := 0, svnSvc := 0, svnProf := 0, slot0 := List.replicate 32 0,
    slot1 := List.replicate 32 0, slot2 := List.replicate 32 0, slot3 := List.replicate 32 0, seed := List.replicate 32 0 }

/-- Crucible at the release of a reset, before boot step 1. -/
def Cru.reset : Cru :=
  { fuses := .blank, rx := [], tx := [], burn := none, hashing := false, band := none, boot := .due, wdog := false,
    trial := false, cruSlot := none, svcSlot := none, run := [], meas := List.replicate 5 (List.replicate 64 0),
    staging := none, activation := none, testAccess := false, debugOpen := false, generated := 0, cores := List.replicate 6 (0, 0), epoch := 1,
    sideband := [], i3cAddr := none }

end Sys2Proof.Machine
end

