-- ==== Sys2Proof/Machine/StateFlash.lean ====
section
/-!
DEFINITION. Machine/StateFlash.lean: state of the staging tier that is no register (spec/07): channels, LUNs, the NAND
array on the board, the advice FIFO.
-/

namespace Sys2Proof.Machine

/-- The array operation a LUN runs or holds suspended (R213, R216). -/
inductive ArrayOp where
  | none | read | program | erase | other
  deriving DecidableEq, Repr

/-- Suspension of a program or erase (R216, R217). -/
inductive Susp where
  /-- Not suspended. -/
  | no
  /-- The suspend command is issued and the die has not yet reported ready. -/
  | entering
  /-- Suspended. -/
  | yes
  deriving DecidableEq, Repr

/-- One LUN (die) of a channel. -/
structure Lun where
  /-- The array is busy: the LUN does not report ready. -/
  busy : Bool
  /-- The operation in the array, and the first entry of the job that confirmed it. -/
  op : ArrayOp
  entry : List Byte
  /-- The suspended operation, its entry, and where its suspension stands (R216, R217). -/
  heldOp : ArrayOp
  heldEntry : List Byte
  susp : Susp
  /-- Times the present operation has been suspended, and whether SUSP_LIMIT was raised for it (R216). -/
  suspends : Nat
  limitRaised : Bool
  /-- SREQ is pending (R213, R216). -/
  sreq : Bool
  /-- Last command cycle, and the plane, codeword and row address of the last address cycles (R204, R212). -/
  cmd : Nat
  plane : Nat
  cw : Nat
  row : Nat
  /-- The data register of each plane: bytes loaded for a program, or read from the array. -/
  data : List (Nat × List Byte)
  /-- The bytes loaded for the suspended program: a read meanwhile leaves them (R217). -/
  heldData : List (Nat × List Byte)
  /-- Read offsets in force (R212 APPLY). -/
  offsets : List Byte
  /-- Bit 0 of the status byte: the last program or erase failed. -/
  fail : Bool
  /-- Features set in the die: address and its four parameter bytes as a number (R206); an unlisted one holds the
  die's own value. -/
  feats : List (Nat × Nat)
  deriving DecidableEq, Repr

/-- A DECODE in progress (R212): its buffer set and mode, and the job that started it. -/
structure Decoding where
  set : Nat
  mode : Nat
  sq : Nat
  first : Nat
  entry : List Byte
  deriving DecidableEq, Repr

/-- A buffer set that has been decoded, and the job it belongs to (R211, R212). -/
structure DecSet where
  set : Nat
  sq : Nat
  first : Nat
  /-- Bitmap of the codewords still failing, and their first-iteration syndrome weights. -/
  failing : Nat
  syndromes : List Nat
  /-- Data of the codewords decoded, by number, held for an XFER to BUF. -/
  words : List (Nat × List Byte)
  /-- Bitmaps of the codewords read so far, and of those whose first read looked erased. -/
  seen : Nat
  erased : Nat
  /-- A soft decode of the job has been advised of (R227). -/
  soft : Bool
  deriving DecidableEq, Repr

/-- One flash channel. -/
structure Chan where
  /-- CHc_STATUS.READY (R202). -/
  ready : Bool
  /-- CHc_STATUS.RATE, the rate in effect (R200, R202). -/
  rate : Nat
  /-- CHc_STATUS.SWITCH_PENDING: a switch waits for the channel to be idle, or runs (R201). -/
  switchPending : Bool
  /-- Training of a switch runs. -/
  training : Bool
  /-- The dies, by die index (R203). -/
  luns : Vector Lun 8
  /-- The DECODE in progress (R212). -/
  decoding : Option Decoding
  /-- LLR magnitudes of the decode in force (R219): L_HARD; or L_STRONG with the 0 or L_WEAK of unequal reads. -/
  llr : List Nat
  /-- The buffer sets decoded, newest first, one of each number (R212). -/
  sets : List DecSet
  /-- DECODED holds: the last DECODE has ended (R212). -/
  decoded : Bool
  deriving DecidableEq, Repr

/-- State of STG beyond its registers. -/
structure Stg where
  chans : Vector Chan 8
  /-- Programmed pages of the NAND array: key from channel, die, block and page; an unlisted page is erased. -/
  nand : Sparse (List Byte)
  /-- STG_ADVISE_FIFO, oldest first, at most 64 entries (R227). -/
  advise : List Nat
  /-- A block command waits for an idle boundary: the STG_BLK_CMD word (R228). -/
  blkCmd : Option Word
  /-- STG_STATUS.PWR_LOSS (R234). -/
  pwrLoss : Bool
  deriving DecidableEq, Repr

/-- A LUN after power-up. -/
def Lun.reset : Lun :=
  { busy := false, op := .none, entry := [], heldOp := .none, heldEntry := [], susp := .no, suspends := 0,
    limitRaised := false, sreq := false, cmd := 0, plane := 0, cw := 0, row := 0, data := [], heldData := [],
    offsets := [],
    fail := false, feats := [] }

/-- A channel after reset: not enabled, in SDR mode 0 (R200). -/
def Chan.reset : Chan :=
  { ready := false, rate := 0, switchPending := false, training := false, luns := Vector.replicate 8 .reset,
    decoding := none, llr := [], sets := [], decoded := false }

/-- STG after reset, with an erased NAND array (DESIGN CHOICE, log entry 11). -/
def Stg.reset : Stg :=
  { chans := Vector.replicate 8 .reset, nand := [], advise := [], blkCmd := none, pwrLoss := false }

end Sys2Proof.Machine
end

