-- ==== Sys2Proof/Machine/StateMot.lean ====
section
/-!
DEFINITION. Machine/StateMot.lean: state of MOT, the power die's motor block, beyond its registers (spec/14).
-/

namespace Sys2Proof.Machine

/-- Spindle states (R394). -/
inductive Spin where
  | stopped | detect | revBrake | openLoop | hall6 | sine | relock | brake | coast | holdup | fault
  deriving DecidableEq, Repr

/-- Where a retract stands (R410). -/
inductive RetPhase where
  | none
  /-- −RET_I for RET_MS. -/
  | drive
  /-- −LATCH_I × 4 mA for 20 ms. -/
  | latch
  deriving DecidableEq, Repr

/-- The power die's side of one actuator (R408, R410). -/
structure Actuator where
  retract : RetPhase
  /-- RET_DONE and LATCH of MOT_STATUS. -/
  retDone : Bool
  latched : Bool
  /-- The lane watchdog is armed; the last frame was discarded (R408). -/
  armed : Bool
  lastBad : Bool
  /-- Commands applied. -/
  vcm : Int
  ma : Int
  deriving DecidableEq, Repr

/-- State of MOT. -/
structure Mot where
  st : Spin
  /-- MOT_STATUS bits. -/
  dir : Bool
  spinOk : Bool
  hallSubst : Bool
  chopFault : Bool
  regenRefused : Bool
  pwrLoss : Bool
  /-- DET: 0 none, 1 STILL, 2 FORWARD, 3 REVERSE (R395). -/
  det : Nat
  /-- Speed reference in 1/16 rpm and the remainders its steps carry (R399). -/
  speedRef : Nat
  remUp : Nat
  remDn : Nat
  /-- Achieved speed, 1/16 rpm, signed. -/
  act : Int
  /-- PI loop: integral, and torque current command in mA (R400). -/
  integ : Int
  iqRef : Int
  iq : Int
  /-- Revolutions in a row with the speed within OK_WIN (R400). -/
  okRevs : Nat
  /-- Hall edges in a row within LOCK_TOL, and beyond LOSS_TOL (R397, R398). -/
  lockEdges : Nat
  lossEdges : Nat
  /-- Last Hall code, invalid codes in a row, and non-adjacent transitions of this revolution (R401). -/
  hall : Nat
  badCodes : Nat
  jumps : Nat
  edges : Nat
  /-- The open-loop start is aligning the rotor (R401). -/
  aligning : Bool
  /-- All low sides are on after a chopper fault (R406), and the chopper is on (R405). -/
  lowSides : Bool
  chopOn : Bool
  actA : Actuator
  actB : Actuator
  /-- The power loss ended hold-up: a boot waits for good input (R415). -/
  bootDue : Bool
  /-- A dip is being timed (R412). -/
  dip : Bool
  /-- A start runs: the spindle has left DETECT or REV_BRAKE and not reached 600 rpm (R396). -/
  starting : Bool
  /-- Ticks of the speed loop in a row with the back-EMF within 25 % of KE × speed (R401). -/
  emfRun : Nat
  /-- The supplies have been measured since reset: MOT_VM and MOT_VIN5 no longer show their reset value (R420). -/
  sensed : Bool
  deriving DecidableEq, Repr

/-- An actuator after reset. -/
def Actuator.reset : Actuator :=
  { retract := .none, retDone := false, latched := false, armed := false, lastBad := false, vcm := 0, ma := 0 }

/-- MOT after cold reset: stopped (R394). -/
def Mot.reset : Mot :=
  { st := .stopped, dir := false, spinOk := false, hallSubst := false, chopFault := false, regenRefused := false,
    pwrLoss := false, det := 0, speedRef := 0, remUp := 0, remDn := 0, act := 0, integ := 0, iqRef := 0, iq := 0,
    okRevs := 0, lockEdges := 0, lossEdges := 0, hall := 0, badCodes := 0, jumps := 0, edges := 0, aligning := false,
    lowSides := false, chopOn := false, actA := .reset, actB := .reset, bootDue := false, dip := false, starting := false, emfRun := 0, sensed := false }

end Sys2Proof.Machine
end

