-- ==== Sys2Proof/Machine/StateNet.lean ====
section
/-!
DEFINITION. Machine/StateNet.lean: state of NET beyond its registers (spec/02): queue pairs and their context cache,
advertised buffers, port and flow-control state, and what NET has sent last.
-/

namespace Sys2Proof.Machine

/-- Queue-pair states, 0 to 4 as TARGET (R52, R158). -/
inductive QpSt where
  | reset | init | rtr | rts | error
  deriving DecidableEq, Repr

/-- A queue-pair context (R51 to R54, R45, R59). -/
structure Qp where
  /-- A CREATE has made the queue pair and no DESTROY has removed it. -/
  made : Bool
  st : QpSt
  port : Nat
  gid : Nat
  destQpn : Nat
  remoteGid : List Byte
  remoteMac : List Byte
  timeout : Nat
  retry : Nat
  rnrRetry : Nat
  rnrTimer : Nat
  maxRd : Nat
  sqPsn : Nat
  rqPsn : Nat
  /-- Bound mailbox ring (R59). -/
  mailbox : Option Nat
  /-- Transmit rate limit in 100 Mb/s units; time of the last decrease, and of the increase timer's last restart, in µs
  (R45). -/
  rate : Nat
  lastDec : Option Nat
  incFrom : Option Nat
  /-- Time of the last congestion notification sent, µs (R44). -/
  lastCnp : Option Nat
  /-- Retries left, RNR retries left, and the RNR timer runs (R54, R55). -/
  triesLeft : Nat
  rnrLeft : Nat
  rnrWait : Bool
  /-- Bytes placed so far of the oldest outstanding RDMA READ (R57). -/
  readDone : Nat
  deriving DecidableEq, Repr

/-- An advertised buffer (R58). -/
structure Adv where
  qp : Nat
  base : Nat
  len : Nat
  key : Nat
  deriving DecidableEq, Repr

/-- A work request in flight (R54, R57): its job's ring and FIRST index, queue pair, PSN of its last packet, and whether it
is an RDMA READ. -/
structure NetWr where
  sq : Nat
  first : Nat
  qp : Nat
  psn : Nat
  read : Bool
  deriving DecidableEq, Repr

/-- What NET puts on a port. -/
inductive NetOut where
  | ack (qp psn : Nat)
  | rnrNak (qp : Nat)
  | nakSeq (qp : Nat)
  | nakInvalid (qp : Nat)
  | nakAccess (qp : Nat)
  | cnp (qp : Nat)
  | send (qp : Nat) (bytes : List Byte)
  | rdmaWrite (qp addr rkey : Nat) (bytes : List Byte)
  | rdmaRead (qp addr rkey len : Nat)
  | readResponse (qp : Nat) (bytes : List Byte)
  /-- The unacknowledged packets of a queue pair again, from the first one on. -/
  | retransmit (qp : Nat)
  | raw (port : Nat) (bytes : List Byte)
  /-- A capsule to a repair source, by peer number and GID, on the queue pair that reaches it (R102). -/
  | toPeer (qp peer : Nat) (gid : List Byte) (bytes : List Byte)
  /-- Bytes written into the host's buffer of a Stepata command (R88). -/
  | toHost (qp addr rkey : Nat) (bytes : List Byte)
  | xoff (port mask : Nat)
  | xon (port mask : Nat)
  deriving DecidableEq, Repr

/-- A packet as it leaves: port, priority, the ECT(0) mark, VLAN tag, DSCP, and what it carries (R41, R44, R46). -/
structure NetPkt where
  port : Nat
  prio : Nat
  ect : Bool
  vlan : Option Nat
  dscp : Nat
  what : NetOut
  deriving DecidableEq, Repr

/-- One port. -/
structure Port where
  up : Bool
  /-- Link training runs, and auto-negotiation goes with it (R37). -/
  training : Bool
  neg : Bool
  /-- Bytes in the packet buffer, as last seen, and XOFF is in force (R42). -/
  occ : Nat
  xoff : Bool
  /-- FEC_BURST is armed; when uncorrectable codewords came in the last second, and how many (R40). -/
  burstArmed : Bool
  fec : List (Nat × Nat)
  /-- Priorities that a received PFC frame pauses (R43). -/
  paused : Nat
  /-- Queue pairs whose packets wait in the miss queue (R53). -/
  missQ : List Nat
  /-- Packets ready to leave that wait for a paused priority or the link, oldest first (R43, R56). -/
  waiting : List NetPkt
  deriving DecidableEq, Repr

/-- State of NET. -/
structure Net where
  qps : Sparse Qp
  adv : Sparse Adv
  /-- Work requests transmitted and not complete, oldest first. -/
  wrs : List NetWr
  /-- Cached contexts, most recently used first; those pinned; those being fetched (R53). -/
  cache : List Nat
  pinned : List Nat
  fetching : List Nat
  /-- NET_QP_ERR_FIFO: index and reason, oldest first, at most 64; entries lost (R55). -/
  errFifo : List (Nat × Nat)
  errOvf : Nat
  port0 : Port
  port1 : Port
  /-- Mailbox rings whose CONS was written beyond PROD (R69). -/
  badCons : List Nat
  /-- Producer index of each work-request ring when HOLD was set, and whether one has started since (R62). -/
  holdProd : List (Nat × Nat)
  startedInHold : Bool
  /-- What the last command made NET send, in order. -/
  sent : List NetPkt
  deriving DecidableEq, Repr

/-- A queue pair that does not exist. -/
def Qp.none : Qp :=
  { made := false, st := .reset, port := 0, gid := 0, destQpn := 0, remoteGid := List.replicate 16 0,
    remoteMac := List.replicate 6 0, timeout := 0, retry := 0, rnrRetry := 0, rnrTimer := 0, maxRd := 0, sqPsn := 0,
    rqPsn := 0, mailbox := Option.none, rate := 1000, lastDec := Option.none, incFrom := Option.none,
    lastCnp := Option.none, triesLeft := 0, rnrLeft := 0, rnrWait := false, readDone := 0 }

/-- No buffer. -/
def Adv.none : Adv := { qp := 0, base := 0, len := 0, key := 0 }

/-- A port after reset. -/
def Port.reset : Port :=
  { up := false, training := false, neg := false, occ := 0, xoff := false, burstArmed := true, fec := [], paused := 0,
    missQ := [], waiting := [] }

/-- NET after reset. -/
def Net.reset : Net :=
  { qps := [], adv := [], wrs := [], cache := [], pinned := [], fetching := [], errFifo := [], errOvf := 0, port0 := .reset,
    port1 := .reset, badCons := [], holdProd := [], startedInHold := false, sent := [] }

end Sys2Proof.Machine
end

