-- ==== Sys2Proof/Machine/StateObj.lean ====
section
/-!
DEFINITION. Machine/StateObj.lean: state that the Standard Service image keeps for Stepata (spec/03, spec/04): objects,
connections, outstanding commands, features, power state and the staging tier's pages.
-/

namespace Sys2Proof.Machine

open Sys2Proof

/-- Where a block of an object's stored stream lies (R276, R278): its extent address, none while its only copy is in the
write buffer; the generation and the format epoch it was written in (R140). -/
structure BlkPlace where
  addr : Option Nat
  gen : Nat
  epoch : Nat
  deriving DecidableEq, Repr

/-- An object (R78 to R80), with its locator index, the compressed stream it is stored as (none: stored as it is, STORED
of R276) and the places of its blocks. -/
structure Obj where
  key : List Byte
  data : List Byte
  gen : Nat
  band : Nat
  loc : Nat
  comp : Option (List Byte)
  blocks : List BlkPlace
  deriving DecidableEq, Repr

/-- The stored stream (R276). -/
def Obj.stream (o : Obj) : List Byte := o.comp.getD o.data

/-- Blocks of the stored stream. -/
def Obj.count (o : Obj) : Nat := (o.stream.length + 4095) / 4096

/-- How a command is answered: STATUS, DETAIL, RESULT0 and RESULT1, PARTIAL, DUP, the bytes for the host's buffer and those
that follow the reply header. -/
structure Ans where
  st : Nat := 0
  detail : Nat := 0
  r0 : Nat := 0
  r1 : Nat := 0
  part : Bool := false
  dup : Bool := false
  host : List Byte := []
  inl : List Byte := []
  deriving DecidableEq, Repr

/-- A committed change (R112): its place in commit order, the key, and the object's new content (none for DELETE). -/
structure Change where
  seq : Nat
  key : List Byte
  new : Option Obj
  deriving DecidableEq, Repr

/-- What a change made durable: the sequence number of the change that names the key's present durable content. -/
structure Durable where
  key : List Byte
  seq : Nat
  new : Option Obj
  deriving DecidableEq, Repr

/-- An error log entry (R125): its 32 bytes, its number, and whether it froze the queue pair. -/
structure LogEnt where
  seq : Nat
  froze : Bool
  bytes : List Byte
  deriving DecidableEq, Repr

/-- A connection (R87, R123 to R125). -/
structure Conn where
  qp : Nat
  /-- Negotiated major; 0 on an unconnected queue pair that is frozen or has a log. -/
  major : Nat
  /-- ROLE and PEER of the connecting side. -/
  role : Nat
  peer : Nat
  /-- ERR_SEQ of the error that froze the queue pair. -/
  frozen : Option Nat
  log : List LogEnt
  /-- Newest error sequence number of the queue pair. -/
  newest : Nat
  /-- An image that does not serve its major runs: it is unconnected once its started commands are answered (R138). -/
  leaving : Bool
  deriving DecidableEq, Repr

/-- An outstanding command (R81). -/
structure Cmd where
  /-- Placement order, device-wide. -/
  seq : Nat
  qp : Nat
  cap : List Byte
  obs : CmdObs
  /-- It has passed the checks of R83. -/
  checked : Bool
  /-- Placed before the freeze point of its queue pair and not checked by then (R123). -/
  early : Bool
  started : Bool
  /-- Started before the freeze point of its queue pair (R126). -/
  before : Bool
  /-- Placed while a live activation held the start of commands (R134). -/
  during : Bool
  /-- The answer of a read of the media that runs: the bytes of the generation it observes are kept (R114, R116). -/
  due : Option Ans
  /-- Actuators whose media that read needs. -/
  acts : List Nat
  /-- The address a scrub goes on from (R103); the advertised buffers of a repair (R102). -/
  next : Nat
  advs : List Nat
  /-- Sectors that a scrub has read, corrected, repaired and not recovered so far (R103, R127). -/
  counts : Nat × Nat × Nat × Nat
  /-- The change's number and the new generation, once it has committed (R112). -/
  committed : Option (Nat × Nat)
  /-- The queue pair has left RTS: no reply (R133). -/
  mute : Bool
  /-- Suspended by a live activation (R134). -/
  suspended : Bool
  /-- Changes acknowledged before it was placed (R122); of a missed ABORT, the placement number of its target. -/
  mark : Nat
  deriving DecidableEq, Repr

/-- A block on the staging tier: the locator index and block number it belongs to, and its staging sequence number (R253,
R276). -/
structure StagedBlk where
  loc : Nat
  idx : Nat
  seq : Nat
  deriving DecidableEq, Repr

/-- A staged page (R230 to R232): the key of its page in the NAND array, the number of the acknowledgement it belongs to
and how many of that write's bytes it stands for (R122), whether it is in the hot-object region, and its blocks in order. -/
structure Staged where
  page : Nat
  ack : Nat
  bytes : Nat
  hot : Bool
  blks : List StagedBlk
  deriving DecidableEq, Repr

/-- The entry into a power state, or the return from one, in progress (R136): the state, the placement number of its command
(none: a return), the started commands that run to their end before it proceeds (R133), and whether its work has begun. -/
structure Entering where
  state : Nat
  cmd : Option Nat
  waits : List Nat
  working : Bool
  deriving DecidableEq, Repr

/-- What the image keeps of the slow-input filter's faults (R568): the CHATTER and STUCK bits it has posted, since when each input
is faulty, in microseconds, and how often it has re-armed it since the boot. -/
structure SifWatch where
  posted : List Bool
  since : List Nat
  rearms : List Nat
  deriving DecidableEq, Repr

/-- The watch as the image starts. -/
def SifWatch.reset : SifWatch :=
  { posted := List.replicate 16 false, since := List.replicate 8 0, rearms := List.replicate 8 0 }

/-- State of the Standard Service image. -/
structure Svc where
  /-- The image's watch over the filtered inputs (R568). -/
  watch : SifWatch
  objs : List Obj
  /-- EXT_LIST and KEY_REF of the object locator table's entries, by index (R278): addresses the image chooses. -/
  locs : Sparse (Nat × Nat)
  /-- Where the table lies in DRAM, once the image has laid it out. -/
  locBase : Option Nat
  /-- Durable contents, and committed changes that are not acknowledged, in commit order (R113, R115). -/
  durable : List Durable
  unacked : List Change
  /-- Next generation (R80), next change number, next placement number, acknowledgements so far. -/
  nextGen : Nat
  nextSeq : Nat
  placed : Nat
  acks : Nat
  conns : List Conn
  cmds : List Cmd
  /-- Next error sequence number (R124). -/
  errSeq : Nat
  /-- Features 1 to 8 in effect and saved (R96). -/
  feats : List Nat
  saved : List Nat
  /-- Power state, and the entry in progress: target and its command's placement number (R97, R136). -/
  ps : Nat
  entering : Option Entering
  /-- Cursors issued since the last device reset: value and the key they stand after (R94). -/
  cursors : List (Nat × List Byte)
  /-- The pages of the staging tier, oldest first; the next staging sequence number; the block being filled, by the key of
  its next page; the locators of hot objects, most recently read first (R230, R253). -/
  staged : List Staged
  stageSeq : Nat
  fill : Option Nat
  hot : List Nat
  destaging : Bool
  /-- STATE, WP and UCOUNT of zones as last journalled, bytes 0 to 7 of their entries; they are due to be restored (R265). -/
  zjournal : Sparse (List Byte)
  zdue : Bool
  /-- A firmware activation holds the start of commands (R134). -/
  paused : Bool
  /-- Replies posted by the last command: queue pair and bytes. -/
  replies : List (Nat × List Byte)
  deriving DecidableEq, Repr

/-- Defaults of features 1 to 8 (Table "Stepata features"). -/
def featureDefaults : List Nat := [2000, 12000, 1, 0, 2, 80, 16383, 7200]

/-- The service image as it starts on a module without objects. -/
def Svc.reset : Svc :=
  { watch := SifWatch.reset, objs := [], locs := [], locBase := none, durable := [], unacked := [], nextGen := 1, nextSeq := 1, placed := 0, acks := 0, conns := [], cmds := [],
    errSeq := 1, feats := featureDefaults, saved := featureDefaults, ps := 0, entering := none, cursors := [], staged := [],
    stageSeq := 0, fill := none, hot := [], destaging := false, zjournal := [], zdue := false, paused := false, replies := [] }

end Sys2Proof.Machine
end

