-- ==== Sys2Proof/Machine/StateRings.lean ====
section
/-!
DEFINITION. Machine/StateRings.lean: state of the ring manager (spec/05) and of the twelve eft sequencers (spec/06,
spec/07 for the parked contexts of the STG efts) that is no register.
-/

namespace Sys2Proof.Machine

/-- A fetched submission entry that waits to be used (R152, R153). -/
structure Fetched where
  /-- Submission ring. -/
  sq : Nat
  /-- Index of the entry, wrap bit included. -/
  idx : Nat
  /-- The 64 bytes read. -/
  bytes : List Byte
  deriving DecidableEq, Repr

/-- Where the completion of a job has its place (R167). -/
inductive Place where
  /-- A slot of the completion ring. -/
  | slot
  /-- A slot of the function's spill buffer. -/
  | spill
  deriving DecidableEq, Repr

/-- Outcome of a finished job: STATUS and RESULT0 to RESULT3 (R160, R161). -/
structure Outcome where
  status : Nat
  r0 : Nat
  r1 : Nat
  r2 : Nat
  r3 : Nat
  deriving DecidableEq, Repr

/-- A job the ring manager has started and whose completion is not posted yet (R156, R162). -/
structure Job where
  /-- Submission ring. -/
  sq : Nat
  /-- Index of the FIRST entry. -/
  first : Nat
  /-- Entries of the job. -/
  entries : List (List Byte)
  /-- Completion ring named by the ring when the job started. -/
  cq : Nat
  /-- Reserved completion place. -/
  place : Place
  /-- An engine has taken the job up (an eft, a lane, NET). -/
  taken : Bool
  /-- Set when the job has finished. -/
  done : Option Outcome
  /-- A MALFORMED job, which leaves SQ_DONE (R164). -/
  malformed : Bool
  deriving DecidableEq, Repr

/-- A spilled completion (R168, R169): the bytes of its entry with PHASE 0, and what SQ_DONE becomes when it is posted.
`live` falls when a function reset unbinds its submission ring, and the completion then moves no SQ_DONE (R172). -/
structure Spilled where
  func : Nat
  cq : Nat
  sq : Nat
  bytes : List Byte
  newDone : Nat
  live : Bool
  deriving DecidableEq, Repr

/-- State of the ring manager beyond its registers. -/
structure Rings where
  /-- Entries fetched and not yet used (R152). -/
  fetched : List Fetched
  /-- Refetches of a stale entry at use, per submission ring (R153). -/
  phaseTries : Sparse Nat
  /-- Entries still stale after the last refetch, whose ring goes to ERROR once its earlier jobs are completed (R153,
  R164). -/
  stale : List Fetched
  /-- Started jobs in start order (R156). -/
  jobs : List Job
  /-- RING_ERR_FIFO: ring and reason, oldest first, at most 32 (R175). -/
  errFifo : List (Nat × Nat)
  /-- An entry was lost to a full FIFO (R175). -/
  errOvf : Bool
  /-- Spilled completions in spill order (R168). -/
  spill : List Spilled
  /-- Ring that last started a job, per function × 64 + class × 4 + PRIO (R152). -/
  lastStart : Sparse Nat
  /-- Function and completion ring whose completion writes wait for the function's windows to be written (R169). -/
  blocked : List (Nat × Nat)
  deriving DecidableEq, Repr

/-- Eft states of EFT_STATE.STATE (R197). -/
inductive EftSt where
  | stopped | idle | running | held | debugHalt | loading
  deriving DecidableEq, Repr

/-- A running XFER (R179, R182): buffer address, bytes, channel, direction (true: datapath to buffer). -/
structure Xfer where
  addr : Nat
  len : Nat
  ch : Nat
  dir : Bool
  deriving DecidableEq, Repr

/-- The job an eft runs, with its unit bookkeeping (R183, R184). -/
structure EftJob where
  /-- Submission ring and FIRST index: the job in `Rings.jobs`. -/
  sq : Nat
  first : Nat
  /-- The first entry's 64 bytes. -/
  entry : List Byte
  /-- Unit count of the job, 0 for one that runs one unit all the same (R184), and the present unit. -/
  units : Nat
  unit : Nat
  deriving DecidableEq, Repr

/-- How a YIELD parked a job (R212, R213). -/
inductive YieldKind where
  /-- YIELD 0: woken by LUN ready, timeout or a suspend request. -/
  | ready
  /-- YIELD 1: woken by a resume condition after a suspend. -/
  | suspended
  deriving DecidableEq, Repr

/-- The part of an eft that a unit of a job owns: scratch registers, flags, stack, results and COMMIT state
(R178, R184, R185). It is what a STG eft parks in a context slot (R213). -/
structure EftUnit where
  /-- The job. -/
  job : EftJob
  /-- S0 to S15. -/
  scratch : Vector Word 16
  /-- Flags Z, C, N. -/
  z : Bool
  c : Bool
  n : Bool
  /-- TO: the last WAIT ended by timeout (R180). -/
  timedOut : Bool
  /-- Return stack, innermost first, at most 8. -/
  stack : List Nat
  /-- Address of the next microword. -/
  pc : Nat
  /-- COMMIT has executed (R187). -/
  committed : Bool
  /-- Restarts of the present unit (R190). -/
  restarts : Nat
  /-- RESULT0 to RESULT2, this run's writes included, and their values at unit start (R184, R185). -/
  res0 : Nat
  res1 : Nat
  res2 : Nat
  saved0 : Nat
  saved1 : Nat
  saved2 : Nat
  /-- An abandon request held by a committed unit (R188). -/
  heldRequest : Bool
  deriving DecidableEq, Repr

/-- A parked job of an STG eft (R213, R214). -/
structure Parked where
  unit : EftUnit
  /-- The LUN it addresses: die index of the channel. -/
  die : Nat
  kind : YieldKind
  /-- Woken, and whether TO holds at the resume. -/
  woken : Bool
  wokeTo : Bool
  deriving DecidableEq, Repr

/-- A unit abandoned by a preemption, and the preempting job: its ring and FIRST index (R185). -/
structure Preempted where
  unit : EftUnit
  bySq : Nat
  byFirst : Nat
  deriving DecidableEq, Repr

/-- What occupies an eft that does not run microwords at the moment. -/
inductive EftWait where
  /-- Executing microwords. -/
  | none
  /-- WAIT on an event with a timeout in µs, 0 for none (R179, R182). -/
  | event (ev timeout : Nat)
  /-- OUT to TOKEN while the other eft owns the datapath (R176). -/
  | token
  /-- The unit has not entered: it waits for its charge, or for head heat or the other actuator's run (R431, R434). -/
  | enter (charge : Nat)
  deriving DecidableEq, Repr

/-- One eft sequencer. -/
structure Eft where
  st : EftSt
  /-- VALID: control store loaded and checked (R194). -/
  valid : Bool
  /-- The control store, 8,192 words of 24 bits; an unlisted word is 0, NOP (R194). -/
  cs : Sparse (BitVec 24)
  /-- ADDR of the load in progress (R194). -/
  loadAddr : Nat
  /-- LOAD_ERR of EFT_LOAD_CTRL (R194). -/
  loadErr : Bool
  /-- The unit in the eft, if any. -/
  unit : Option EftUnit
  /-- The running XFER (R179). -/
  xfer : Option Xfer
  /-- What the eft waits for. -/
  wait : EftWait
  /-- Context slots of an STG eft, at most 16, in the order they woke, then in parking order (R213, R214). -/
  parked : List Parked
  /-- Units abandoned by a preemption, waiting for the preempting job to end (R185). -/
  preempted : List Preempted
  /-- The eft owns the datapath token of its MEDx (R176). -/
  owns : Bool
  /-- CAUSE and PC of the last abandon since reset (R191). -/
  lastCause : Nat
  lastPc : Nat
  /-- The next microword executes even at the EFT_BREAK address: set on leaving DEBUG_HALT (R197). -/
  passBreak : Bool
  deriving DecidableEq, Repr

/-- The ring manager after reset (R172). -/
def Rings.reset : Rings :=
  { fetched := [], phaseTries := [], stale := [], jobs := [], errFifo := [], errOvf := false, spill := [], lastStart := [],
    blocked := [] }

/-- An eft after a cold reset: stopped, no valid control store (R196, R197). -/
def Eft.reset : Eft :=
  { st := .stopped, valid := false, cs := [], loadAddr := 0, loadErr := false, unit := none, xfer := none,
    wait := .none, parked := [], preempted := [], owns := false, lastCause := 0, lastPc := 0, passBreak := false }

end Sys2Proof.Machine
end

