-- ==== Sys2Proof/Machine/StateXfm.lean ====
section
/-!
DEFINITION. Machine/StateXfm.lean: state of the data transforms that is no register (spec/08).
-/

namespace Sys2Proof.Machine

/-- A lane that runs a job (R238): class 0 to 5, lane number, ring and FIRST index. -/
structure Lane where
  cls : Nat
  lane : Nat
  sq : Nat
  first : Nat
  deriving DecidableEq, Repr

/-- State of XFM beyond its registers. -/
structure Xfm where
  /-- The fallback state of R244. -/
  fallback : Bool
  /-- Cipher lanes that passed the known-answer test, bits 0 to 3 (R256). -/
  ciph : Nat
  /-- Keys of the loaded bands: band and 64 key bytes (R252, R254). -/
  keys : List (Nat × List Byte)
  /-- Jobs that run as MODE 2 by R244: ring and FIRST index. -/
  fbJobs : List (Nat × Nat)
  /-- Lanes that run a job. -/
  lanes : List Lane
  /-- Units that each cipher job in progress has written: ring, FIRST index, units (R254). -/
  units : List (Nat × Nat × Nat)
  deriving DecidableEq, Repr

/-- XFM after a cold reset with a passing known-answer test (R256, R260). -/
def Xfm.reset : Xfm := { fallback := false, ciph := 15, keys := [], fbJobs := [], lanes := [], units := [] }

end Sys2Proof.Machine
end

