-- ==== Sys2Proof/Machine/State.lean ====
section
/-!
DEFINITION. Machine/State.lean: the whole state of the device as plain data, the state after reset, and the reasons a
step can stop.
-/

namespace Sys2Proof.Machine

/-- Faults of a step. -/
inductive Fault where
  /-- Never raised by a meaning: kept for a state that no queue of the model holds. Safe. -/
  | unreachable
  deriving DecidableEq, Repr

/-- Refusals of a step. -/
inductive Refusal where
  /-- Raised by exec alone, for a command without a meaning yet. Safe: the model says nothing of it. -/
  | notModelled (mnemonic : String)
  deriving DecidableEq, Repr

/-- Answer of the last register or memory access: the read data and the bus error (R10, R15, R26). -/
structure Resp where
  data : BitVec 64
  busError : Bool
  deriving DecidableEq, Repr

/-- The state of the device. -/
structure State where
  /-- Commands waiting, first in first out. -/
  pending : List Instr
  /-- The register file: address in the service cores' map and value; an unlisted register holds its reset value
  (R12). -/
  regs : Sparse Word
  /-- DRAM and service SRAM by physical address; an unlisted byte reads 0 (R474). -/
  mem : Sparse Byte
  /-- Answer of the last access of REGISTER_WRITE. -/
  resp : Resp
  /-- Microseconds since reset, counted while no command waits; TIME_US of R181. -/
  timeUs : Nat
  /-- Free values drawn so far: the argument of the next one. -/
  drawn : Nat
  evc : Evc
  mu : MemUnit
  pwr : Pwr
  rings : Rings
  efts : Vector Eft 12
  stg : Stg
  zone : Zone
  /-- MEDA and MEDB. -/
  medA : Med
  medB : Med
  mot : Mot
  bud : Bud
  cal : Cal
  xfm : Xfm
  cf : Cf
  cru : Cru
  net : Net
  svc : Svc
  deriving DecidableEq, Repr

/-- The machine at the release of the power-on cold reset (R12, R557, R558): every register at its reset value,
memory wiped, nothing in flight, no command waiting. -/
def State.reset : State :=
  { pending := [], regs := [], mem := [], resp := ⟨0, false⟩, timeUs := 0, drawn := 0, evc := .reset, mu := .reset,
    pwr := .reset, rings := .reset, efts := Vector.replicate 12 .reset, stg := .reset, zone := .reset,
    medA := .reset, medB := .reset, mot := .reset, bud := .reset, cal := .reset, xfm := .reset, cf := .reset, cru := .reset, net := .reset, svc := .reset }

end Sys2Proof.Machine
end

