-- ==== Sys2Proof/Machine/Ops.lean ====
section
/-!
DEFINITION. Machine/Ops.lean: the named operations over registers, memory, DRAM windows and triplicated words.
-/

namespace Sys2Proof.Machine

namespace State

/-- Value of the register at an address: as last set, else its reset value (R12). -/
def reg (s : State) (a : Nat) : Word := Sparse.get Reg.resetOf s.regs a

/-- Set a register, whoever may write it. -/
def setReg (s : State) (a : Nat) (v : Word) : State := { s with regs := Sparse.set Reg.resetOf s.regs a v }

/-- Field `hi:lo` of a register. -/
def rf (s : State) (a hi lo : Nat) : Nat := fld (s.reg a) hi lo

/-- Bit `i` of a register. -/
def rb (s : State) (a i : Nat) : Bool := bit (s.reg a) i

/-- Signed field `hi:lo` of a register. -/
def rs (s : State) (a hi lo : Nat) : Int := sfld (s.reg a) hi lo

/-- Set field `hi:lo` of a register. -/
def setRf (s : State) (a hi lo v : Nat) : State := s.setReg a (putFld (s.reg a) hi lo v)

/-- Set bit `i` of a register. -/
def setRb (s : State) (a i : Nat) (b : Bool) : State := s.setReg a (putBit (s.reg a) i b)

/-- Add to a saturating 32-bit counter. -/
def bump (s : State) (a : Nat) (k : Nat := 1) : State :=
  s.setReg a (BitVec.ofNat 32 (satAdd 32 (s.reg a).toNat k))

/-- Add to a saturating counter field. -/
def bumpRf (s : State) (a hi lo : Nat) (k : Nat := 1) : State :=
  s.setRf a hi lo (satAdd (hi + 1 - lo) (s.rf a hi lo) k)

/-- Return to their reset values the registers at the addresses a predicate names. -/
def resetRegs (s : State) (p : Nat → Bool) : State := { s with regs := Sparse.clear s.regs p }

/-- A 40-bit address held in a LO and a HI register. -/
def regAddr (s : State) (lo hi : Nat) : Nat := (s.reg lo).toNat + s.rf hi 7 0 * 2 ^ 32

end State

/-- The logic die runs: no reset is in progress (R557) and its clocks are not stopped by a quench (R426). -/
def State.live (s : State) : Bool := s.pwr.inReset.isNone && s.bud.quenched.isNone

/-- A command of the logic die: without effect while the logic die is held in reset or quenched. -/
def State.whenLive (s : State) (f : State → State) : Host.Outcome State Fault Refusal := .next (if s.live then f s else s)

/-- A write of a register in the always-on domain (R31): refused with a bus error while one is in its handshake. -/
def State.aonWrite (s : State) (f : State → State) : State :=
  if s.pwr.aonBusy then { s with resp := ⟨0, true⟩ } else f { s with pwr := { s.pwr with aonBusy := true } }

/-- What an unlisted byte of DRAM or service SRAM reads as: 0, the value of a wipe (R474). -/
def memDefault (_ : Nat) : Byte := 0

namespace State

/-- One byte of memory. -/
def byte (s : State) (a : Nat) : Byte := Sparse.get memDefault s.mem a

/-- `n` bytes of memory. -/
def bytes (s : State) (a n : Nat) : List Byte := Sparse.getList memDefault s.mem a n

/-- Store bytes. -/
def setBytes (s : State) (a : Nat) (bs : List Byte) : State := { s with mem := Sparse.setList memDefault s.mem a bs }

/-- A little-endian word of `n` bytes in memory (R9). -/
def word (s : State) (a n : Nat) : Nat := leNat (s.bytes a n)

/-- Bytes of DRAM installed (R455, MEM_STATUS.CAP). -/
def dramBytes (s : State) : Nat :=
  match s.mu.cap with
  | 1 => 8 * 2 ^ 30
  | 2 => 16 * 2 ^ 30
  | _ => 0

end State

/-- First address of DRAM (R25). -/
def dramBase : Nat := 0x800000000

/-- First address of the service SRAM (R25), 16 MiB. -/
def sramBase : Nat := 0x10000000

/-- The whole access lies in service SRAM. -/
def inSram (a n : Nat) : Bool := sramBase ≤ a && a + n ≤ sramBase + 0x1000000

/-- The whole access lies in installed DRAM. -/
def State.inDram (s : State) (a n : Nat) : Bool := dramBase ≤ a && a + n ≤ dramBase + s.dramBytes

/-- Bitwise majority of the three copies (R473). -/
def Trip.vote (t : Trip) : Word := (t.c0 &&& t.c1) ||| (t.c0 &&& t.c2) ||| (t.c1 &&& t.c2)

/-- Three equal copies (R473). -/
def Trip.of (w : Word) : Trip := ⟨w, w, w⟩

/-- A number as a triplicated word. -/
def tripNat (n : Nat) : Trip := Trip.of (BitVec.ofNat 32 n)

namespace State

/-- Fence mask, triplicated word 2 (R473). -/
def fenceMask (s : State) : Word := s.mu.trip2.vote

/-- Whether function `f` is fenced (R532). -/
def fenced (s : State) (f : Nat) : Bool := bit s.fenceMask f

/-- Set or clear a fence bit; a write sets all three copies (R473). -/
def setFence (s : State) (f : Nat) (b : Bool) : State :=
  { s with mu := { s.mu with trip2 := Trip.of (putBit s.fenceMask f b) } }

/-- Recorder fault word, triplicated word 3: SET in bit 0, PAGE in bits 19:8 (R473, R543). -/
def recFault (s : State) : Word := s.mu.trip3.vote

/-- RAM-only mode holds while the recorder fault word is set (R543). -/
def ramOnly (s : State) : Bool := bit s.recFault 0

/-- Life-cycle word, triplicated word 0 (R494). -/
def lcWord (s : State) : Word := s.mu.trip0.vote

/-- Life-cycle state number, 0 BLANK to 4 SCRAP (R494, R495): one more than the highest burnt byte of the voted word. -/
def lcState (s : State) : Nat :=
  let burnt (i : Nat) : Bool := 5 ≤ ((List.range 8).filter fun b => s.lcWord.getLsbD (8 * i + b)).length
  if burnt 3 then 4 else if burnt 2 then 3 else if burnt 1 then 2 else if burnt 0 then 1 else 0

/-- Key-vault control word, triplicated word 1. -/
def vaultWord (s : State) : Word := s.mu.trip1.vote

/-- One DRAM window: registers BASE, LIMIT and EN at the address of its first word (R493, R522). -/
def windowHas (s : State) (w a n : Nat) : Bool :=
  s.rb (w + 12) 0 && s.rf w 27 0 * 4096 ≤ a && a + n ≤ (s.rf (w + 4) 27 0 + 1) * 4096

/-- Whether one DRAM window of function `f` (8 SYS) grants the whole access; the windows of a fenced function act as
disabled (R27, R532). -/
def granted (s : State) (f a n : Nat) : Bool :=
  !s.fenced f && (List.range 16).any fun w => s.windowHas (Reg.CRU_WIN f w 0) a n

/-- Whether one window of the service image grants the whole access (R27). -/
def grantedSvc (s : State) (a n : Nat) : Bool :=
  (List.range 64).any fun w => s.windowHas (Reg.CRU_SWIN w 0) a n

/-- Whether an engine access of function `f` reaches memory: service SRAM needs no window, DRAM needs
one (R27); the zone keeper (8) reaches nothing but DRAM (R602). -/
def engineMay (s : State) (f a n : Nat) : Bool := (f ≠ 8 && inSram a n) || (s.inDram a n && s.granted f a n)

/-- The eft with number `e` (0 to 11); numbers beyond the twelve name eft 11, and no command carries one. -/
def eft (s : State) (e : Nat) : Eft := s.efts.getD e s.efts[11]

/-- Replace eft `e`. -/
def setEft (s : State) (e : Nat) (x : Eft) : State := { s with efts := s.efts.setIfInBounds e x }

/-- A fresh free value's argument: the counter, which the drawing step advances. -/
def draw (s : State) : Nat × State := (s.drawn, { s with drawn := s.drawn + 1 })

/-- `n` bytes whose values the spec leaves open, and the counter advanced past them. -/
def drawBytes (s : State) (n : Nat) : List Byte × State :=
  ((List.range n).map fun i => Config.freeByte (s.drawn + i), { s with drawn := s.drawn + n })

end State

/-- An erased byte (Table "Code-flash geometry"). -/
def cfErased (_ : Nat) : Byte := 0xFF

namespace State

/-- Bytes of the array. -/
def flash (s : State) (off n : Nat) : List Byte := Sparse.getList cfErased s.cf.arr off n

/-- A little-endian word of the array. -/
def flashWord (s : State) (off : Nat) : Nat := leNat (s.flash off 4)

/-- Set bytes of the array. -/
def setFlash (s : State) (off : Nat) (bs : List Byte) : State :=
  { s with cf := { s.cf with arr := Sparse.setList cfErased s.cf.arr off bs } }

/-- Erase bytes of the array. -/
def eraseFlash (s : State) (off n : Nat) : State :=
  { s with cf := { s.cf with arr := Sparse.clear s.cf.arr fun a => off ≤ a && a < off + n } }

end State

/-- Function of an eft: 2 MEDA, 3 MEDB, 4 STG. -/
def eftFunc (e : Nat) : Nat := if e < 2 then 2 else if e < 4 then 3 else 4

end Sys2Proof.Machine
end

