-- ==== Sys2Proof/Machine/Operands.lean ====
section
/-!
DEFINITION. Machine/Operands.lean: the operand fields of an eft microword in each format, its reserved bits (R178,
R179), and the fields of submission entries (R155, R158).
-/

namespace Sys2Proof.Machine

open Sys2Proof

/-- A microword: 24 bits (R178). -/
abbrev MWord := BitVec 24

/-- Field `hi:lo` of a microword. -/
def mf (w : MWord) (hi lo : Nat) : Nat := nfld w.toNat hi lo

/-- OP, bits 23:19, in every format. -/
def mwOp (w : MWord) : Nat := mf w 23 19

/-- D of the formats A, H, J and P; A of format X; S of format L. -/
def mwD (w : MWord) : Nat := mf w 18 15

/-- S of the formats A, H and Q; L of format X. -/
def mwS (w : MWord) : Nat := mf w 14 11

/-- T of format A. -/
def mwT (w : MWord) : Nat := mf w 10 7

/-- D of format B: S0 to S7. -/
def mwDB (w : MWord) : Nat := mf w 18 16

/-- IMM of format B, and CODE of format F. -/
def mwImm (w : MWord) : Nat := mf w 15 0

/-- AMT of format H. -/
def mwAmt (w : MWord) : Nat := mf w 10 6

/-- WORD of format J. -/
def mwWord (w : MWord) : Nat := mf w 3 0

/-- PORT of format P. -/
def mwPort (w : MWord) : Nat := mf w 14 7

/-- CH and DIR of format X. -/
def mwCh (w : MWord) : Nat := mf w 10 8
def mwDir (w : MWord) : Bool := w.getLsbD 7

/-- EV and T of format W. -/
def mwEv (w : MWord) : Nat := mf w 18 13
def mwWT (w : MWord) : Nat := mf w 12 9

/-- COND and ADDR of format C; ADDR of format L. -/
def mwCond (w : MWord) : Nat := mf w 18 14
def mwAddr (w : MWord) : Nat := mf w 12 0

/-- KIND of format F. -/
def mwKind (w : MWord) : Nat := mf w 18 16

/-- IDX and ADD of format Q. -/
def mwIdx (w : MWord) : Nat := mf w 18 17
def mwAdd (w : MWord) : Bool := w.getLsbD 16

/-- CODE of format E. -/
def mwCode (w : MWord) : Nat := mf w 7 0

/-- The reserved bits of a microword are 0 (R178), by the format of its opcode. -/
def mwRsvOk (w : MWord) : Bool :=
  let z (hi lo : Nat) : Bool := mf w hi lo = 0
  match mwOp w with
  | 0x00 | 0x14 | 0x16 | 0x17 | 0x1B => z 18 0
  | 0x04 | 0x05 | 0x06 | 0x07 | 0x08 | 0x09 | 0x0C => z 6 0
  | 0x0A | 0x0B => z 5 0
  | 0x0D => z 14 4
  | 0x0E | 0x0F => z 6 0
  | 0x10 => z 6 0
  | 0x11 => z 8 0
  | 0x12 | 0x13 => z 13 13
  | 0x15 => z 14 13
  | 0x19 => z 15 15 && z 10 0
  | 0x1A => z 18 8
  | _ => true

/-- Header fields of a submission entry (R155). -/
def ePhase (e : List Byte) : Bool := (byteAt e 0).getLsbD 0
def eFirst (e : List Byte) : Bool := (byteAt e 0).getLsbD 1
def eLast (e : List Byte) : Bool := (byteAt e 0).getLsbD 2
def eClass (e : List Byte) : Nat := (byteAt e 0).toNat / 16
def eOp (e : List Byte) : Nat := (byteAt e 1).toNat
def eJobId (e : List Byte) : Nat := field e 2 2

/-- Fields of a first entry of the eft classes (R158). -/
def medPba (b : List Byte) : Nat := field b 8 6
def medHead (b : List Byte) : Nat := field b 14 1 % 32
def medEftSel (b : List Byte) : Nat := field b 15 1 % 4
def medCount (b : List Byte) : Nat := field b 16 4
def medBudgetMs (b : List Byte) : Nat := field b 36 2
def medZone (b : List Byte) : Nat := field b 40 4 % 2 ^ 19
def entBuf (b : List Byte) : Nat := field b 24 5
def entLen (b : List Byte) : Nat := field b 32 4
def stgCh (b : List Byte) : Nat := field b 8 1 % 8
def stgCe (b : List Byte) : Nat := field b 9 1 % 8
def stgLun (b : List Byte) : Nat := field b 10 1 % 4
def stgPlanes (b : List Byte) : Nat := field b 11 1 % 16
def stgBlock (b : List Byte) : Nat := field b 12 4
def stgPage (b : List Byte) : Nat := field b 16 4
def stgLdpc (b : List Byte) : Nat := field b 36 1 % 4
def stgRetry (b : List Byte) : Nat := field b 37 1

end Sys2Proof.Machine
end

