-- ==== Sys2Proof/Machine/Flags.lean ====
section
/-!
DEFINITION. Machine/Flags.lean: the flags Z, C and N of the eft opcodes, and the scratch registers (R178, R179).
-/

namespace Sys2Proof.Machine

open Sys2Proof

/-- Scratch register `r` (0 to 15) of a unit. -/
def EftUnit.get (u : EftUnit) (r : Nat) : Word := u.scratch.getD r 0

/-- Write scratch register `r`. -/
def EftUnit.put (u : EftUnit) (r : Nat) (v : Word) : EftUnit := { u with scratch := u.scratch.setIfInBounds r v }

/-- Z and N of a result, and a given C (R179). -/
def EftUnit.flags (u : EftUnit) (r : Word) (c : Bool) : EftUnit := { u with z := r = 0, c := c, n := r.getLsbD 31 }

/-- Carry out of bit 31 of a sum (R179). -/
def carryOut (a b : Word) : Bool := 2 ^ 32 ≤ a.toNat + b.toNat

/-- C of a difference: S < T as unsigned values (R179). -/
def borrow (a b : Word) : Bool := a.toNat < b.toNat

/-- Last bit out of a left shift by `n`, 0 if `n` is 0 (R179). -/
def lastOutL (a : Word) (n : Nat) : Bool := n ≠ 0 && a.getLsbD (32 - n)

/-- Last bit out of a right shift by `n`, 0 if `n` is 0 (R179). -/
def lastOutR (a : Word) (n : Nat) : Bool := n ≠ 0 && a.getLsbD (n - 1)

/-- The next microword is at the next address. -/
def EftUnit.next (u : EftUnit) : EftUnit := { u with pc := (u.pc + 1) % 8192 }

/-- Write a result with flags and go on. -/
def EftUnit.setF (u : EftUnit) (d : Nat) (v : Word) (c : Bool) : EftUnit := ((u.put d v).flags v c).next

/-- Write a result, leave the flags and go on. -/
def EftUnit.setR (u : EftUnit) (d : Nat) (v : Word) : EftUnit := (u.put d v).next

end Sys2Proof.Machine
end

