-- ==== Sys2Proof/Machine/Drop.lean ====
section
/-!
DEFINITION. Machine/Drop.lean: accessors of the MEDx functions and the actuators, and what tail drop of a function does to
its own datapath (R20, R307, R334, R391, R418, R532).
-/

namespace Sys2Proof.Machine

open Sys2Proof

/-- MEDx of an actuator, 0 A and 1 B. -/
def med (s : State) (x : Nat) : Med := if x = 0 then s.medA else s.medB

/-- Change MEDx of an actuator. -/
def modMed (x : Nat) (f : Med → Med) (s : State) : State :=
  if x = 0 then { s with medA := f s.medA } else { s with medB := f s.medB }

/-- Change the write path, read channel, recovery or servo engine of an actuator. -/
def modWr (x : Nat) (f : Wr → Wr) (s : State) : State := modMed x (fun m => { m with wr := f m.wr }) s
def modRc (x : Nat) (f : Rc → Rc) (s : State) : State := modMed x (fun m => { m with rc := f m.rc }) s
def modSr (x : Nat) (f : Sr → Sr) (s : State) : State := modMed x (fun m => { m with sr := f m.sr }) s
def modSv (x : Nat) (f : Sv → Sv) (s : State) : State := modMed x (fun m => { m with sv := f m.sv }) s

/-- One bit of the CRC-8 with polynomial 0x07 (R285). -/
def crc8Bit (c : Nat) (b : Bool) : Nat :=
  let top := nbit c 7 != b
  let c := c * 2 % 256
  if top then c ^^^ 7 else c

/-- CRC-8 over bits 31:8 of a frame, bit 31 first (R285). -/
def palCrc (f : BitVec 32) : Nat := (List.range 24).foldl (fun c i => crc8Bit c (f.getLsbD (31 - i))) 0

/-- A command frame with its CRC (R285, Table "Preamp link frame"). -/
def palFrame (wr : Bool) (addr data : Nat) : BitVec 32 :=
  let f : BitVec 32 := BitVec.ofNat 32 (b2n wr * 2 ^ 31 + addr % 128 * 2 ^ 24 + data % 65536 * 2 ^ 8)
  f ||| BitVec.ofNat 32 (palCrc f)

/-- A command frame goes out on PAL_SDO `n` times (R284 to R286). -/
def palOut (x n : Nat) (wr : Bool) (addr data : Nat) (s : State) : State :=
  modWr x (fun w => { w with sdo := List.replicate n (palFrame wr addr data) ++ w.sdo }) s

/-- A sector is being written: its gate is up, or down for a servo field it spans (R291). -/
def Wr.writing (w : Wr) : Bool := w.gate || w.inField

/-- A servo field comes: the gate of the sector being written falls for it (R291). -/
def Wr.toField (w : Wr) : Wr := if w.gate then { w with gate := false, inField := true } else w

/-- The servo field has passed: the sector it interrupted resumes (R291). -/
def Wr.afterField (w : Wr) : Wr := if w.inField then { w with gate := true, inField := false } else w

/-- The write run ends: assist off, heater to HEAT_R at the next strobe (R293, R294). -/
def endWriteRun (x : Nat) (s : State) : State :=
  modWr x (fun w => { w with run := false, begun := false, aen := false, heatW := false, preheat := 0, exc := 0, limit := 0 }) s

/-- Key of a sector on the medium. -/
def diskKey (h track sector : Nat) : Nat := h * 2 ^ 40 + track * 2 ^ 16 + sector

/-- Bytes of a sector on the medium, if it holds any. -/
def diskAt (s : State) (x : Nat) (h : Nat) (t : Sect) : Option (List Byte) :=
  let b := Sparse.get (fun _ => []) (med s x).disk (diskKey h t.track t.sector)
  if b.isEmpty then none else some b

/-- Write a sector of the medium; an empty value leaves it unreadable. -/
def diskPut (x h : Nat) (t : Sect) (b : List Byte) (s : State) : State :=
  modMed x (fun m => { m with disk := Sparse.set (fun _ => []) m.disk (diskKey h t.track t.sector) b }) s

/-- WG and AEN fall within 20 ns (R307): the run ends, and the sector in progress is not written. -/
def gatesFall (x : Nat) (s : State) : State :=
  let w := (med s x).wr
  let s := match w.armed with
    | some t => if w.writing then diskPut x w.head t [] s else s
    | none => s
  endWriteRun x (modWr x (fun w => { w with gate := false, inField := false }) s)

/-- WG and AEN fall, and no sector stays armed (R307). -/
def hardStop (x : Nat) (s : State) : State :=
  modWr x (fun w => { w with armed := none, boundary := none }) (gatesFall x s)

/-- Servo engine of an actuator. -/
def sv (s : State) (x : Nat) : Sv := (med s x).sv

/-- The power die's side of an actuator. -/
def actu (s : State) (x : Nat) : Actuator := if x = 0 then s.mot.actA else s.mot.actB

/-- Change the power die's side of an actuator. -/
def modAct (x : Nat) (f : Actuator → Actuator) (s : State) : State :=
  if x = 0 then { s with mot := { s.mot with actA := f s.mot.actA } }
  else { s with mot := { s.mot with actB := f s.mot.actB } }

/-- A park request of one actuator reaches the power die (R16, R410): the VCM is taken from the lane and the retract
starts, unless one runs. -/
def parkDrive (x : Nat) (s : State) : State :=
  modAct x (fun a =>
    if a.retract = .none then { a with retract := .drive, retDone := false, vcm := 0, ma := 0, armed := false } else a) s

/-- The engine stops computing: outputs and history read 0 (R365, R375). -/
def svZero (v : Sv) : Sv := { v with vcm := 0, ma := 0, yma := 0, xf := 0, hist := List.replicate 16 0 }

/-- A trigger of the trace (R389): the record's index is latched and the post count starts. -/
def traceTrigger (x : Nat) (s : State) : State :=
  modSv x (fun v =>
    if v.trace = .armed then { v with trace := .triggered, trigIdx := v.wptr, post := s.rf (Reg.MED_SV_TRACE_POST x) 12 0 }
    else v) s

/-- Trigger where TRIG selects the source `k` (Table "Trace nodes and triggers"). -/
def traceOn (x k : Nat) (s : State) : State :=
  if s.rf (Reg.MED_SV_TRACE_CTRL x) 19 16 = k then traceTrigger x s else s

/-- Write-unsafe asserts, if it is not asserted (R381): it is counted and can trigger the trace (R389). -/
def assertWus (x : Nat) (s : State) : State :=
  if (sv s x).wus then s
  else traceOn x 1 ((modSv x (fun v => { v with wus := true, wusRun := 0 }) s).bump (Reg.MED_SV_WUS_RISES x))

/-- MEDA has left service: MEDB stops following, with the target it has (R388). `ev` raises a source. -/
def tandemBreakBy (ev : Nat → State → State) (x : Nat) (s : State) : State :=
  if x = 0 && s.rb (Reg.MED_SV_TANDEM 1) 31 then
    ev 124 (modSv 1 (fun v => { v with following := false }) (s.setRb (Reg.MED_SV_TANDEM 1) 31 false))
  else s

/-- States 0, 5, 6 and 7: the engine serves no retarget and its write-unsafe is asserted from its entry on (R364, R388). -/
def SvSt.away (t : SvSt) : Bool := t = .off || t = .unloading || t = .fault || t = .held

/-- LOADING and UNLOADING, whose end raises RAMP_DONE (R384). -/
def SvSt.onRamp (t : SvSt) : Bool := t = .loading || t = .unloading

/-- The engine enters a state (R364): RAMP_DONE, write-unsafe, the trace's trigger and MEDB's break follow (R381, R384, R388,
R389). -/
def svEnterBy (ev : Nat → State → State) (x : Nat) (st : SvSt) (s : State) : State :=
  if (sv s x).st = st then s
  else
    let s := modSv x (fun v =>
      { v with st := st, goodRun := 0, settleRun := 0, wusRun := 0, settled := st = .tracking,
               rampDone := v.rampDone || v.st.onRamp }) s
    let s := traceOn x 5 (if st.away then assertWus x s else s)
    if st.away then tandemBreakBy ev x s else s

/-- Tail drop of MEDx (R307, R334, R391): WG and AEN fall, the channel stops with no outcome, the engine is HELD with
zero outputs, and its actuator retracts; MODE sleep where the link allows. -/
def dropMed (ev : Nat → State → State) (x : Nat) (s : State) : State :=
  let s := hardStop x s
  let s := modWr x (fun w =>
    let m := w.pMode / 16 * 16
    if w.linkUp then { w with sent := w.sent ++ [(1, m)], sdo := palFrame true 1 m :: w.sdo } else w) s
  let s := modRc x (fun r => { r with armed := none, decoding := [] }) s
  parkDrive x (modSv x svZero (svEnterBy ev x .held s))

/-- Tail drop of MOT (R20, R418): the spindle coasts unless it holds up, both actuators retract, and both write gates
fall. Their engines follow with `parkDropped`. -/
def dropMot (s : State) : State :=
  let s := { s with mot := { s.mot with st := if s.mot.st = .holdup then .holdup else .coast, spinOk := false, okRevs := 0 } }
  parkDrive 1 (parkDrive 0 (gatesFall 1 (gatesFall 0 s)))

end Sys2Proof.Machine
end

