-- ==== Sys2Proof/Machine/StgBase.lean ====
section
/-!
DEFINITION. Machine/StgBase.lean: channels, dies, geometry (R203, R204) and the NAND array of the staging tier.
-/

namespace Sys2Proof.Machine

open Sys2Proof

/-- Channel `c` (0 to 7). -/
def chan (s : State) (c : Nat) : Chan := s.stg.chans.getD c s.stg.chans[7]

/-- Change channel `c`. -/
def modChan (c : Nat) (f : Chan → Chan) (s : State) : State :=
  { s with stg := { s.stg with chans := s.stg.chans.setIfInBounds c (f (chan s c)) } }

/-- Die `d` of channel `c`. -/
def lun (s : State) (c d : Nat) : Lun := (chan s c).luns.getD d (chan s c).luns[7]

/-- Change die `d` of channel `c`. -/
def modLun (c d : Nat) (f : Lun → Lun) (s : State) : State :=
  modChan c (fun x => { x with luns := x.luns.setIfInBounds d (f (x.luns.getD d x.luns[7])) }) s

/-- Geometry fields of a channel (Table "CHc_MODE, CHc_MAP and CHc_GEOM fields"). -/
def pageBits (s : State) (c : Nat) : Nat := s.rf (Reg.CH_GEOM c) 4 0
def blockBits (s : State) (c : Nat) : Nat := s.rf (Reg.CH_GEOM c) 12 8
def planeBits (s : State) (c : Nat) : Nat := s.rf (Reg.CH_GEOM c) 17 16
def lunBits (s : State) (c : Nat) : Nat := s.rf (Reg.CH_GEOM c) 21 20
def cwPerPage (s : State) (c : Nat) : Nat := 2 ^ s.rf (Reg.CH_GEOM c) 25 24
def parityBytes (s : State) (c : Nat) : Nat := 256 + 128 * s.rf (Reg.CH_GEOM c) 29 28
def bitsPerCell (s : State) (c : Nat) : Nat := s.rf (Reg.CH_GEOM c) 31 30 + 1
def cePresent (s : State) (c ce : Nat) : Bool := s.rb (Reg.CH_MAP c) ce && ce < 8
def lunsPerCe (s : State) (c : Nat) : Nat := 2 ^ s.rf (Reg.CH_MAP c) 9 8

/-- Present chip enables of a channel. -/
def ceCount (s : State) (c : Nat) : Nat := ((List.range 8).filter fun n => cePresent s c n).length

/-- Die index of a LUN (R203). -/
def dieIndex (s : State) (c ce l : Nat) : Nat :=
  ((List.range ce).filter fun n => cePresent s c n).length * lunsPerCe s c + l

/-- The die a job addresses. -/
def jobDie (s : State) (b : List Byte) : Nat := dieIndex s (stgCh b) (stgCe b) (stgLun b)

/-- ONFI row address (R204). -/
def rowAddr (s : State) (c l block page : Nat) : Nat :=
  page + block * 2 ^ pageBits s c + l * 2 ^ (pageBits s c + blockBits s c)

/-- Block of plane `p` in a multi-plane job (R204). -/
def planeBlock (s : State) (c block p : Nat) : Nat := block / 2 ^ planeBits s c * 2 ^ planeBits s c + p

/-- The blocks a job names, in ascending plane order (R204, R207). -/
def jobBlocks (s : State) (b : List Byte) : List Nat :=
  ((List.range 4).filter fun p => nbit (stgPlanes b) p).map fun p => planeBlock s (stgCh b) (stgBlock b) p

/-- Number of planes of a job. -/
def jobPlanes (b : List Byte) : Nat := ((List.range 4).filter fun p => nbit (stgPlanes b) p).length

/-- Key of a page in the NAND array. -/
def nandKey (c d block page : Nat) : Nat := ((c * 8 + d) * 8192 + block) * 65536 + page

/-- Program a page of the array. -/
def nandProgram (c d block page : Nat) (raw : List Byte) (s : State) : State :=
  { s with stg := { s.stg with nand := Sparse.set (fun _ => []) s.stg.nand (nandKey c d block page) raw } }

/-- Erase a block of the array. -/
def nandErase (c d block : Nat) (s : State) : State :=
  { s with stg := { s.stg with nand := Sparse.clear s.stg.nand fun k => k / 65536 = (c * 8 + d) * 8192 + block } }

/-- Raw bytes of a page; an erased page holds ones. -/
def nandPage (s : State) (c d block page : Nat) : List Byte :=
  let raw := Sparse.get (fun _ => []) s.stg.nand (nandKey c d block page)
  if raw.isEmpty then List.replicate (cwPerPage s c * (4096 + parityBytes s c)) 0xFF else raw

/-- Whether a page is programmed. -/
def nandHas (s : State) (c d block page : Nat) : Bool :=
  !(Sparse.get (fun _ => []) s.stg.nand (nandKey c d block page)).isEmpty

/-- The array operation of a die is cut short or fails: what its target holds is free (R212, R235). -/
def lunLost (c d : Nat) (s : State) : State :=
  let l := lun s c d
  let (op, b) := if l.op = .program || l.op = .erase then (l.op, l.entry) else (l.heldOp, l.heldEntry)
  let n := cwPerPage s c * (4096 + parityBytes s c)
  let lose (k : Nat) (s : State) : State :=
    let (bs, s) := s.drawBytes n
    { s with stg := { s.stg with nand := Sparse.set (fun _ => []) s.stg.nand k bs } }
  match op with
  | .program => (jobBlocks s b).foldl (fun s k => lose (nandKey c d k (stgPage b)) s) s
  | .erase =>
    (jobBlocks s b).foldl (fun s k =>
      (s.stg.nand.filter fun e => e.1 / 65536 = (c * 8 + d) * 8192 + k).foldl (fun s e => lose e.1 s) s) s
  | _ => s

/-- A block is the target of the die's suspended program or erase (R218). -/
def suspBlock (s : State) (c d block : Nat) : Bool :=
  let l := lun s c d
  l.susp = .yes && (jobBlocks s l.heldEntry).contains block

/-- Dies that a channel's map fits (R203). -/
def dieCount (s : State) (c : Nat) : Nat := ceCount s c * lunsPerCe s c

/-- Set a feature of a die (R206). -/
def setFeat (c d a v : Nat) (s : State) : State :=
  modLun c d (fun l => { l with feats := (a, v) :: l.feats.filter fun e => e.1 ≠ a }) s

/-- Reset a LUN: whatever its array did ends (R229 ARRAY_TIMEOUT, R235). -/
def lunReset (c d : Nat) (s : State) : State :=
  modLun c d (fun l => { Lun.reset with feats := l.feats }) (lunLost c d s)

/-- The dies lose power: operations in the array are cut short, and set features are lost. -/
def lunsOff (s : State) : State :=
  (List.range 64).foldl (fun s i => modLun (i / 8) (i % 8) (fun _ => .reset) (lunLost (i / 8) (i % 8) s)) s

end Sys2Proof.Machine
end

