-- ==== Sys2Proof/Machine/Reset.lean ====
section
/-!
DEFINITION. Machine/Reset.lean: the resets of the logic die (R557, R558) as one operation, `beginReset`, and what each
kind keeps.
-/

namespace Sys2Proof.Machine

open Sys2Proof

/-- Registers of MEDx of an actuator that a function, warm or device reset of MEDx keeps (R196, R307, R334, R359, R391). -/
def keptMed (x a : Nat) : Bool :=
  let o := a - Reg.medBase x
  let within (lo hi : Nat) : Bool := lo ≤ o && o < hi
  Reg.medBase x ≤ a && (
    within 0x101000 0x101084 || within 0x102000 0x103000 || within 0x200100 0x200300 || within 0x200600 0x200640
    || within 0x200800 0x200900 || within 0x202000 0x203000 || within 0x208000 0x20E300 || within 0x300004 0x300010
    || within 0x500034 0x50003C || within 0x5000B0 0x5000B4 || within 0x500100 0x500130 || within 0x510000 0x510400
    || within 0x520000 0x520C00 || within 0x580000 0x5C0000 || o = 0x400028 || o = 0x401028)

/-- Whether an address lies in the register window of a function, 0 to 7, or 8 SYS. -/
def inWindow (f a : Nat) : Bool := Reg.window f ≤ a && a < Reg.window f + 0x1000000

/-- The power die's PWR_ and SIF_ registers (R572). -/
def isPwrReg (a : Nat) : Bool := 0x28D00000 ≤ a && a < 0x28D00140

/-- Registers outside MEDx and MOT that a warm or device reset leaves alone (R196, R443, R454, R477, R490, R545, R572). -/
def keptWarm (a : Nat) : Bool :=
  isPwrReg a || a = Reg.EVC_SVC_EVENT_STATUS || a = Reg.EVC_RFAULT
  || a = Reg.TH_EXCLUDED || a = Reg.TH_QUENCH_INFO || a = Reg.TH_PEAK
  || (Reg.CAL_FH_HEAD 0 0 ≤ a && a ≤ Reg.CAL_FH_HEAD 1 11)
  || a = Reg.MEM_DRAM_CFG || a = Reg.MEM_RETAIN
  || (Reg.CF_WLOCK 0 ≤ a && a ≤ Reg.CF_HIDE)
  || (List.range 8).any fun c => a = Reg.EFT_LOAD_CRC (4 + c)

/-- Registers that a cold reset other than a power-on leaves alone (R443, R477, R545, R572). -/
def keptCold (a : Nat) : Bool :=
  isPwrReg a || a = Reg.EVC_SVC_EVENT_STATUS || a = Reg.EVC_RFAULT
  || a = Reg.TH_EXCLUDED || a = Reg.TH_QUENCH_INFO || a = Reg.TH_PEAK
  || a = Reg.MEM_DRAM_CFG || a = Reg.MEM_RETAIN

/-- MOT registers that a MOT function reset clears: TARGET, the events and the counters (R418). -/
def motCleared (a : Nat) : Bool :=
  a = Reg.MOT_EVENT_STATUS || a = Reg.MOT_SPD_CMD || a = Reg.MOT_LANE_ERR || a = Reg.MOT_LOST_CNT
  || a = Reg.MOT_HALL_ERR || a = Reg.MOT_DIP_CNT

/-- What a reset keeps of an eft: the control store, VALID (R196). RUN is 1 again, and a valid eft leaves STOPPED for IDLE
(R197). -/
def Eft.afterReset (x : Eft) : Eft :=
  { Eft.reset with valid := x.valid, cs := x.cs, st := if x.valid then .idle else .stopped }

/-- The write path after a reset of MEDx: the preamp keeps the words it holds, and a faulty PFLT_N stays replaced (R289,
R558). -/
def Wr.afterReset (w : Wr) : Wr :=
  { Wr.reset with pId := w.pId, pMode := w.pMode, pWi := w.pWi, pOs := w.pOs, pAssist := w.pAssist, pHeater := w.pHeater,
                  fltSubst := w.fltSubst }

/-- The servo engine after a reset of MEDx: OFF, the trace kept, and ended where it ran (R391). -/
def Sv.afterReset (v : Sv) : Sv :=
  { Sv.reset with trace := if v.trace = .armed || v.trace = .triggered then .done else v.trace,
                  wrapped := v.wrapped, wptr := v.wptr, trigIdx := v.trigIdx, records := v.records }

/-- The datapath of MEDx after a function, warm or device reset (R307, R334, R346, R391): the medium stays. -/
def Med.afterReset (m : Med) : Med :=
  { Med.reset with wr := m.wr.afterReset, sv := m.sv.afterReset, disk := m.disk }

/-- The registers of MEDx return to their reset values, but for those kept (R307, R334, R359, R391). -/
def resetMedRegs (x : Nat) (s : State) : State :=
  let kind := s.rf (Reg.MED_WR_CTRL x) 1 0
  (s.resetRegs fun a => inWindow (2 + x) a && !keptMed x a).setRf (Reg.MED_WR_CTRL x) 1 0 kind

/-- MEDx resets: the write gate falls, the actuator parks unless it is retracted, and the datapath starts anew (R391). -/
def resetMedPath (x : Nat) (s : State) : State :=
  let s := hardStop x s
  let s := if (actu s x).retDone then s else parkDrive x s
  resetMedRegs x (modMed x Med.afterReset s)

/-- The sprue link as a reset of either side leaves it: aligned (R17). -/
def Pwr.sprueFresh (p : Pwr) : Pwr := { p with sprueUp := true, sprueFailed := false }

/-- A MOT function reset but for its self-test (R418). -/
def resetMotPath (s : State) : State :=
  let a (x : Actuator) : Actuator := { x with retDone := false, latched := false }
  let m := s.mot
  let st := if m.st = .holdup then .holdup else if m.act = 0 then .stopped else .coast
  let s := { s with mot := { m with st := st, spinOk := false, okRevs := 0, integ := 0, iqRef := 0, lowSides := false,
                                    chopOn := false, starting := false, actA := a m.actA, actB := a m.actB } }
  ({ s with pwr := s.pwr.sprueFresh }).resetRegs motCleared

/-- Contents of the array, abandoned where an operation runs: its target is undefined, the stores are empty (R488). -/
def cfAbandon (s : State) : State :=
  let s := match s.cf.op with
    | some p =>
      let (a, n) := if p.kind = 1 then (p.off / 256 * 256, 256) else (p.off, p.len)
      let (bs, s) := s.drawBytes n
      s.setFlash a bs
    | none => s
  { s with cf := { s.cf with op := none, pf0 := [], pf1 := [], bc := [], last0 := none, last1 := none, waiting := [],
                             l2 := [], line := [], ret := ⟨0, 0, 0⟩ } }

/-- A change is the durable content of its key, unless a later one already is (R113, R114). -/
def putDurable (c : Change) (l : List Durable) : List Durable :=
  if l.any fun d => d.key = c.key && c.seq < d.seq then l else ⟨c.key, c.seq, c.new⟩ :: l.filter fun d => d.key ≠ c.key

/-- Whether each change that was not acknowledged is durable is open (R115, R133): a free bit decides. -/
def resolveChange (c : Change) (s : State) : State :=
  let (bs, s) := s.drawBytes 1
  if (byteAt bs 0).getLsbD 0 then { s with svc := { s.svc with durable := putDurable c s.svc.durable } } else s

/-- The service image loses its working state: each object is what its durable content, the journal, says
(R28, R113, R133, R416). -/
def svcAfterReset (s : State) : State :=
  let s := s.svc.unacked.foldl (fun s c => resolveChange c s) s
  let v := s.svc
  { s with svc := { v with watch := SifWatch.reset, objs := v.durable.filterMap (·.new), unacked := [], conns := [], cmds := [], errSeq := 1,
                           feats := v.saved, ps := 0, entering := none, cursors := [], fill := none, hot := [],
                           destaging := false, zdue := true, locBase := none,
                           paused := false, replies := [] } }

/-- A burn that is cut off reaches each copy's bits or not, as free bits decide (R499). -/
def cutWord (t : Trip) (v : Word) (s : State) : Trip × State :=
  let (bs, s) := s.drawBytes 12
  let m (k : Nat) : Word := BitVec.ofNat 32 (field bs (4 * k) 4)
  (⟨t.c0 ||| (v &&& m 0), t.c1 ||| (v &&& m 1), t.c2 ||| (v &&& m 2)⟩, s)

/-- Value in CRU_FUSE_DATA, `n` words. -/
def fuseData (s : State) (n : Nat) : List Byte :=
  (List.range n).flatMap fun w => leBytes 4 (s.reg (Reg.CRU_FUSE_DATA w)).toNat

/-- A fuse command in progress is cut off by a reset (R499): a word's copies may come to disagree; a step or a digest is
burnt whole or not, as a free bit decides. -/
def cutBurn (done : Nat → Nat → State → State) (s : State) : State :=
  let v := s.reg (Reg.CRU_FUSE_DATA 0)
  match s.cru.burn with
  | none => s
  | some (1, _) =>
    let (t, s) := cutWord s.cru.fuses.lc v s
    { s with cru := { s.cru with fuses := { s.cru.fuses with lc := t } } }
  | some (2, _) =>
    let (t, s) := cutWord s.cru.fuses.vault v s
    { s with cru := { s.cru with fuses := { s.cru.fuses with vault := t } } }
  | some (op, arg) =>
    let (bs, s) := s.drawBytes 1
    if (byteAt bs 0).getLsbD 0 then done op arg s else s

/-- Or bytes into fuses. -/
def orBytes (a b : List Byte) : List Byte := (a.zip b).map fun (x, y) => x ||| y

/-- What a finished burn of OP 3 to 8 leaves in the fuses (R499, R502). -/
def burnDone (op arg : Nat) (s : State) : State :=
  let d := fuseData s 8
  let f (u : Fuses) : Fuses :=
    match op with
    | 3 => { u with kek := min 4095 (u.kek + 1) }
    | 4 => { u with svnCru := min 63 (u.svnCru + 1) }
    | 5 => { u with svnSvc := min 63 (u.svnSvc + 1) }
    | 6 => { u with svnProf := min 63 (u.svnProf + 1) }
    | 7 =>
      match arg with
      | 0 => { u with slot0 := orBytes u.slot0 d }
      | 1 => { u with slot1 := orBytes u.slot1 d }
      | 2 => { u with slot2 := orBytes u.slot2 d }
      | 3 => { u with slot3 := orBytes u.slot3 d }
      | _ => u
    | 8 => { u with seed := orBytes u.seed d }
    | _ => u
  { s with cru := { s.cru with fuses := f s.cru.fuses } }

/-- Crucible at the release of a reset: fuses, the format epoch and, outside a cold reset, DEBUG_OPEN stay (R496, R558). -/
def Cru.afterReset (cold : Bool) (c : Cru) : Cru :=
  { Cru.reset with fuses := c.fuses, epoch := c.epoch, debugOpen := c.debugOpen && !cold }

/-- A channel after a reset of the logic die: its dies, on the board, keep theirs. -/
def Chan.afterReset (c : Chan) : Chan := { Chan.reset with luns := c.luns.map fun l => { l with sreq := false } }

/-- Staging after a reset of the logic die: the dies and the array stay. -/
def Stg.afterReset (x : Stg) : Stg := { Stg.reset with chans := x.chans.map Chan.afterReset, nand := x.nand }

/-- The event controller's always-on part (R535, R536, R558). -/
def Evc.afterReset (e : Evc) : Evc := { e with tokensUsed := [], supp := [], frozenSvc := false, frozenSb := false }

/-- The memory unit's part that no reset but a power-on clears (R473, R558). -/
def keepTrips (a b : MemUnit) : MemUnit :=
  { b with trip0 := a.trip0, trip1 := a.trip1, trip2 := Trip.zero, trip3 := a.trip3, trip4 := a.trip4, mr4 := a.mr4 }

/-- A pin's level through a reset of the power die. -/
def Sif.keepPin (a b : Sif) : Sif := { b with raw := a.raw }

/-- The power die after a power-on: what describes the supplies and pins themselves stays. -/
def Pwr.afterPowerOn (p : Pwr) : Pwr :=
  let z := Pwr.reset
  { z with vin12Good := p.vin12Good, vin5Good := p.vin5Good, powerUp := p.powerUp, pg := p.pg, isoOn := p.isoOn,
           vmGood := p.vmGood, tries := p.tries, railCause := p.railCause, holdup := p.holdup, doneBy := p.doneBy,
           resetPinLow := p.resetPinLow, sif0 := p.sif0.keepPin z.sif0, sif1 := p.sif1.keepPin z.sif1,
           sif2 := p.sif2.keepPin z.sif2, sif3 := p.sif3.keepPin z.sif3, sif4 := p.sif4.keepPin z.sif4,
           sif5 := p.sif5.keepPin z.sif5, sif6 := p.sif6.keepPin z.sif6, sif7 := p.sif7.keepPin z.sif7 }

/-- A retract that runs goes on from the VM capacitance (R415). -/
def Actuator.afterCold (a : Actuator) : Actuator := { Actuator.reset with retract := a.retract }

/-- MOT after a cold reset: STOPPED, whether or not the rotor turns, which the next DETECT finds (R394, R415, R558). -/
def Mot.afterCold (m : Mot) : Mot :=
  { Mot.reset with act := m.act, bootDue := m.bootDue, dip := m.dip,
                   actA := m.actA.afterCold, actB := m.actB.afterCold }

/-- MEDx after a cold reset (R558): the medium stays, and but for a power-on the filter's verdict on PFLT_N. -/
def Med.afterCold (po : Bool) (m : Med) : Med :=
  { Med.reset with disk := m.disk, wr := { Wr.reset with fltSubst := m.wr.fltSubst && !po } }

/-- Registers and memory after a cold reset: `po` a power-on one. -/
def coldState (po retain : Bool) (s : State) : State :=
  let z := State.reset
  { z with pending := s.pending,
           regs := if po then [] else Sparse.clear s.regs fun a => !keptCold a,
           mem := if retain then Sparse.clear s.mem fun a => a < dramBase else [],
           evc := if po then z.evc else s.evc.afterReset,
           mu := if po then z.mu
             else keepTrips s.mu { z.mu with retained := retain, selfRefresh := retain,
                                             errs := if retain then Sparse.clear s.mu.errs fun a => 2 ^ 40 ≤ a else [] },
           pwr := { (if po then s.pwr.afterPowerOn else s.pwr.sprueFresh) with tap := .idcode },
           stg := s.stg.afterReset,
           medA := s.medA.afterCold po, medB := s.medB.afterCold po,
           mot := s.mot.afterCold, bud := { z.bud with quenched := s.bud.quenched },
           cf := s.cf, cru := s.cru.afterReset true, svc := s.svc, drawn := s.drawn }

/-- Registers and memory after a warm or device reset. -/
def softState (s : State) : State :=
  let z := State.reset
  { z with pending := s.pending, regs := s.regs, mem := s.mem, evc := s.evc.afterReset,
           mu := keepTrips s.mu { z.mu with errs := s.mu.errs, dramReady := s.mu.dramReady, rate := s.mu.rate,
                                            cap := s.mu.cap, retained := s.mu.retained, selfRefresh := true,
                                            training := s.mu.training, wipeBusy := s.mu.wipeBusy },
           pwr := s.pwr.sprueFresh, efts := s.efts.map Eft.afterReset, stg := s.stg.afterReset, medA := s.medA, medB := s.medB,
           mot := s.mot, bud := { z.bud with quenched := s.bud.quenched },
           cf := s.cf, cru := s.cru.afterReset false, svc := s.svc, drawn := s.drawn }

/-- Registers outside MEDx, MOT and the kept ones return to their reset values. -/
def softRegs (s : State) : State :=
  s.resetRegs fun a => !(keptWarm a || inWindow 2 a || inWindow 3 a || inWindow 6 a)

/-- A device reset's part in MOT: the function reset, and REGEN_REFUSED falls (R406, R558). -/
def deviceMot (s : State) : State :=
  let s := resetMotPath s
  { s with mot := { s.mot with regenRefused := false } }

/-- The state a reset of a kind leaves (R558): `po` a power-on cold reset, `retain` DRAM in self-refresh is retained
(R475), `off` the rails fall, and with them the dies' operations. -/
def resetState (k : ResetKind) (po retain off : Bool) (s : State) : State :=
  let s := svcAfterReset (cutBurn burnDone (cfAbandon s))
  match k with
  | .cold => coldState po retain (if off then lunsOff (hardStop 1 (hardStop 0 s)) else hardStop 1 (hardStop 0 s))
  | .device => deviceMot (softRegs (resetMedPath 1 (resetMedPath 0 (softState s))))
  | .warm => softRegs (resetMedPath 1 (resetMedPath 0 (softState s)))

/-- Strength of a reset kind (R557). -/
def ResetKind.rank : ResetKind → Nat
  | .warm => 1
  | .device => 2
  | .cold => 3

/-- Causes of cold resets whose rails fall first: power-on, end of hold-up, rail fault (R552, R553). -/
def railsFall (cause : Nat) : Bool := cause = 0 || cause = 1 || cause = 4

/-- A cold reset retains DRAM (R475, R559). -/
def mayRetain (k : ResetKind) (cause : Nat) (s : State) : Bool :=
  k = .cold && !s.pwr.aonLost && s.rb Reg.MEM_RETAIN 0 && s.mu.dramReady && (cause = 5 || cause = 7)

/-- A reset request (R557): ignored while a stronger or equal reset is in progress, else it starts, or escalates the
one in progress. Whether VAON was lost is judged at the release. -/
def beginReset (k : ResetKind) (cause : Nat) (s : State) : State :=
  let go :=
    let t := resetState k false (mayRetain k cause s) (k = .cold && railsFall cause) s
    { t with pwr := { t.pwr with inReset := some (k, cause) } }
  match s.pwr.inReset with
  | some (k', _) => if k'.rank < k.rank then go else s
  | none => go

end Sys2Proof.Machine
end

