-- ==== Sys2Proof/Machine/Events.lean ====
section
/-!
DEFINITION. Machine/Events.lean: raising an event source (R524 to R528), records (R534 to R538), function errors (R529
to R531) and tail drop (R532), as shared operations.
-/

namespace Sys2Proof.Machine

open Sys2Proof

/-- Status register and bit of a source; for an eft source the bit is the condition (R524 to R526, R198). -/
def sourceBit (n cond : Nat) : Option (Nat × Nat) :=
  if n ≤ 13 then some (Reg.NET_EVENT_STATUS, n)
  else if (32 ≤ n && n ≤ 41) || (48 ≤ n && n ≤ 55) then some (Reg.EVC_SVC_EVENT_STATUS, n - 32)
  else if 56 ≤ n && n ≤ 62 then some (Reg.MEM_EVENT_STATUS, n - 56)
  else if 64 ≤ n && n ≤ 127 then
    let x := (n - 64) / 32
    let k := (n - 64) % 32
    if k ≤ 7 then some (Reg.MED_RC_EVENT_STATUS x, k)
    else if k ≤ 13 then some (Reg.MED_SR_EVENT_STATUS x, k - 8)
    else if 16 ≤ k && k ≤ 23 then some (Reg.MED_WR_EVENT_STATUS x, k - 16)
    else if 24 ≤ k && k ≤ 29 then some (Reg.MED_SV_EVENT_STATUS x, k - 24)
    else if 30 ≤ k then some (Reg.EFT_ATTN (2 * x + (k - 30)), cond)
    else none
  else if 128 ≤ n && n ≤ 141 then some (Reg.STG_EVENT_STATUS, n - 128)
  else if 152 ≤ n && n ≤ 159 then some (Reg.EFT_ATTN (4 + (n - 152)), cond)
  else if 160 ≤ n && n ≤ 168 then some (Reg.XFM_EVENT_STATUS, n - 160)
  else if 184 ≤ n && n ≤ 199 then some (Reg.MOT_EVENT_STATUS, n - 184)
  else if 208 ≤ n && n ≤ 215 then some (Reg.TH_EVENT_STATUS, n - 208)
  else if 216 ≤ n && n ≤ 221 then some (Reg.CAL_EVENT_STATUS, n - 216)
  else if 224 ≤ n && n ≤ 228 then some (Reg.RING_EVENT_STATUS, n - 224)
  else if 232 ≤ n && n ≤ 236 then some (Reg.ZONE_EVENT_STATUS, n - 232)
  else if 240 ≤ n && n ≤ 252 then some (Reg.CRU_EVENT_STATUS, n - 240)
  else none

/-- Function code of the block a source belongs to (Table "Functions, their register windows and event blocks"). -/
def blockOf (n : Nat) : Nat :=
  if n < 32 then 0 else if n < 64 then 1 else if n < 96 then 2 else if n < 128 then 3 else if n < 160 then 4
  else if n < 184 then 5 else if n < 208 then 6 else if n < 240 then 8 else 7

/-- Source number of an eft: 94, 95, 126, 127 and 152 to 159 (R198). -/
def eftSource (e : Nat) : Nat :=
  if e < 2 then 94 + e else if e < 4 then 126 + (e - 2) else 152 + (e - 4)

/-- Whether a source is an eft's. -/
def isEftSource (n : Nat) : Bool := n = 94 || n = 95 || n = 126 || n = 127 || (152 ≤ n && n ≤ 159)

/-- FUNC of a record (R601). -/
def recFunc (n : Nat) (payload : List Byte) : Nat :=
  if 32 ≤ n && n ≤ 37 then (byteAt payload 0).toNat
  else if 38 ≤ n && n ≤ 41 then 8
  else if 56 ≤ n && n ≤ 58 then let f := (byteAt payload 7).toNat; if f ≤ 8 then f else 8
  else if 59 ≤ n && n ≤ 62 then 8
  else blockOf n

/-- The function error a raise stands for, if it is one (R529): a source with FERR 1 outside the ignored ranges, with
source 36 naming the MEDx of its payload, or an eft's committed fault. -/
def ferrOf (s : State) (n cond : Nat) (payload : List Byte) : Option Nat :=
  if isEftSource n && cond = 1 then some (blockOf n)
  else if s.rb (Reg.EVC_SRC n) 9 then
    if n = 36 then let f := (byteAt payload 0).toNat; if f = 8 then none else some f
    else if n < 32 || (64 ≤ n && n < 208) then some (blockOf n)
    else none
  else none

/-- Severity of a record: SEV of EVC_SRC_n, with 6 and 7 as 5; a function-error record at least 4, TAIL_DROP 5 (R534,
Table "EVC_SRC_n fields"). -/
def recSev (s : State) (n : Nat) (isErr : Bool) : Nat :=
  let v := min (s.rf (Reg.EVC_SRC n) 14 12) 5
  if n = 34 then 5 else if isErr || n = 32 || n = 33 || n = 37 then max v 4 else v

/-- Whether the recorder is frozen: either holder (R540). -/
def State.frozen (s : State) : Bool := s.evc.frozenSvc || s.evc.frozenSb

/-- SUPP count of a code, taken out of the list (R537). -/
def takeSupp (code : Nat) (l : List (Nat × Nat)) : Nat × List (Nat × Nat) :=
  ((l.lookup code).getD 0, l.filter fun e => e.1 ≠ code)

/-- Offer a record (R536 to R538). Answers the state, and whether a record was lost in the sense that raises REC_LOST. -/
def offerRecord (n cond func sev : Nat) (payload : List Byte) (s : State) : State × Bool :=
  let src := Reg.EVC_SRC n
  if !(s.rb Reg.EVC_CTRL 0 && s.rb src 8) then (s, false)
  else if s.frozen then (s.bump Reg.EVC_FROZEN_DROPS, false)
  else if s.evc.full && !s.ramOnly then (s.bump Reg.EVC_FULL_DROPS, false)
  else if 256 ≤ s.evc.buf.length && !s.ramOnly then (s.bump Reg.EVC_LOST, true)
  else
    let code := n * 256 + cond
    let rate := s.rf src 31 24
    let burst := orOne (s.rf src 23 16)
    let used := Sparse.get (fun _ => 0) s.evc.tokensUsed n
    if rate ≠ 0 && burst ≤ used then
      let (c, rest) := takeSupp code s.evc.supp
      let s := { s with evc := { s.evc with supp := ((code, satAdd 8 c 1) :: rest).take 64 } }
      (s.bump Reg.EVC_SUPPRESSED, false)
    else
      let (c, rest) := takeSupp code s.evc.supp
      let r : Rec := { time := s.evc.timeMs, unsync := s.evc.unsync, seq := s.evc.nextSeq, code := code, func := func,
                       sev := sev, supp := c, payload := fit 12 payload }
      let full := 256 ≤ s.evc.buf.length
      let buf := (if full then s.evc.buf.tail else s.evc.buf) ++ [r]
      let used := if rate = 0 then s.evc.tokensUsed else Sparse.set (fun _ => 0) s.evc.tokensUsed n (used + 1)
      let s := { s with evc := { s.evc with buf := buf, supp := rest, tokensUsed := used,
                                            nextSeq := (s.evc.nextSeq + 1) % 2 ^ 32 } }
      if full then (s.bump Reg.EVC_LOST, true) else (s, false)

/-- Set the status bit of a source; a software-cleared level (R526). -/
def setStatus (n cond : Nat) (s : State) : State :=
  match sourceBit n cond with
  | some (a, b) => s.setRb a b true
  | none => s

/-- The payload a raise carries when its chapter defines none: the status register after the raise (R534). -/
def defaultPayload (n cond : Nat) (s : State) : List Byte :=
  match sourceBit n cond with
  | some (a, _) => leBytes 4 (s.reg a).toNat
  | none => []

/-- Raise a source without its function-error side, with the FUNC of its record: status bit, record, and REC_LOST for a
lost record of another source (R526, R538). -/
def raiseAs (n cond func : Nat) (p : List Byte) (isErr : Bool) (s : State) : State :=
  let (s, lost) := offerRecord n cond func (recSev s n isErr) p s
  if lost && n ≠ 40 then
    let s := setStatus 40 0 s
    let p := defaultPayload 40 0 s
    (offerRecord 40 0 (recFunc 40 p) (recSev s 40 false) p s).1
  else s

/-- Raise a source without its function-error side, with its own payload or the default one. -/
def raiseQuiet (n cond : Nat) (payload : Option (List Byte)) (isErr : Bool) (s : State) : State :=
  let s := setStatus n cond s
  let p := payload.getD (defaultPayload n cond s)
  raiseAs n cond (recFunc n p) p isErr s

/-- State of the error machine of a function: EVC_ERR_f_STATE.STATE (R530). -/
def errState (s : State) (f : Nat) : Nat := s.rf (Reg.EVC_ERR_STATE f) 1 0

/-- The error slots' codes. -/
def errPri (s : State) (f : Nat) : Nat := s.rf (Reg.EVC_ERR_PRI f) 15 0
def errSec (s : State) (f : Nat) : Nat := s.rf (Reg.EVC_ERR_SEC f) 15 0

/-- An eft that tail drop holds: HELD at the present microword, whatever its state (R192). -/
def Eft.hold (x : Eft) : Eft := { x with st := .held }

/-- Efts of a function. -/
def eftsOf (f : Nat) : List Nat := (List.range 12).filter fun e => eftFunc e = f

/-- Submission rings that are configured, found among the listed registers. -/
def listedSq (s : State) : List Nat :=
  s.regs.filterMap fun (a, _) =>
    if Reg.SQ_BASE_LO 0 ≤ a && a < Reg.SQ_BASE_LO 16384 && a % 0x20 = 0x8 then some ((a - Reg.SQ_BASE_LO 0) / 0x20) else none

/-- Submission rings bound to function `f`, that is, with a state other than UNBOUND (R170). -/
def ringsOf (s : State) (f : Nat) : List Nat :=
  (listedSq s).filter fun q => s.rf (Reg.SQ_CFG q) 10 8 = f && s.rf (Reg.SQ_STATE q) 25 24 ≠ 0

/-- Every ACTIVE ring of a function becomes HELD (R171). -/
def holdRings (f : Nat) (s : State) : State :=
  (ringsOf s f).foldl (fun s q => if s.rf (Reg.SQ_STATE q) 25 24 = 1 then s.setRf (Reg.SQ_STATE q) 25 24 2 else s) s

/-- The efts of a function become HELD (R192). -/
def holdEfts (f : Nat) (s : State) : State :=
  (eftsOf f).foldl (fun s e => s.setEft e (s.eft e).hold) s

/-- NET_CTRL.HOLD rises (R62): the producer index that each work-request ring had then is noted. -/
def netHold (s : State) : State :=
  if s.rb Reg.NET_CTRL 16 then s
  else
    let prods := (ringsOf s 0).filterMap fun q =>
      if s.rf (Reg.SQ_CFG q) 7 4 = 1 then some (q, s.rf (Reg.SQ_PROD q) 16 0) else none
    let s := s.setRb Reg.NET_CTRL 16 true
    { s with net := { s.net with holdProd := prods, startedInHold := false } }

/-- What tail drop does to the function's own datapath (R532 steps 2 and 5); `ev` raises a source that it raises. -/
def fenceOwn (ev : Nat → State → State) (f : Nat) (s : State) : State :=
  match f with
  | 1 => netHold s
  | 2 => dropMed ev 0 s
  | 3 => dropMed ev 1 s
  | 6 =>
    let was := s.mot.spinOk
    let s := dropMot s
    if was then ev 184 s else s
  | _ => s

/-- Tail drop of a function, 0 to 6, for a cause (R532): nothing where the function is already FENCED or RESETTING. -/
def tailDropBy (ev : Nat → State → State) (f cause : Nat) (s : State) : State :=
  if 6 < f || 2 ≤ errState s f then s else
    let pri := errPri s f
    let sec := errSec s f
    let s := (s.setFence f true).setRf (Reg.EVC_ERR_STATE f) 1 0 2
    let s := fenceOwn ev f s
    let s := holdEfts f (holdRings f s)
    raiseQuiet 34 0 (some ([BitVec.ofNat 8 f, BitVec.ofNat 8 cause] ++ leBytes 2 pri ++ leBytes 2 sec)) false s

/-- A function error with its code arrives (R529 to R531, Table "Error nesting"); an error of SYS or CRU resets the
device (R19). `drop` is tail drop. -/
def functionErrorBy (drop : Nat → Nat → State → State) (f code : Nat) (s : State) : State :=
  if 6 < f then beginReset .device 8 s
  else
    let p := some ([BitVec.ofNat 8 f, 0] ++ leBytes 2 code)
    match errState s f with
    | 0 =>
      let s := (s.setReg (Reg.EVC_ERR_PRI f) (BitVec.ofNat 32 (2 ^ 31 + code))).setRf (Reg.EVC_ERR_STATE f) 1 0 1
      raiseQuiet 32 0 p false s
    | 1 =>
      let s := s.setReg (Reg.EVC_ERR_SEC f) (BitVec.ofNat 32 (2 ^ 31 + code))
      drop f 1 (raiseQuiet 33 0 p false s)
    | _ => s.bumpRf (Reg.EVC_ERR_STATE f) 15 8

/-- Raise a source with a condition and a payload (R526, R529). -/
def raiseBy (drop : Nat → Nat → State → State) (n cond : Nat) (payload : Option (List Byte)) (s : State) : State :=
  let p := payload.getD []
  match ferrOf s n cond p with
  | some f => functionErrorBy drop f (n * 256 + cond) (raiseQuiet n cond payload true s)
  | none => raiseQuiet n cond payload false s

/-- Tail drop that a source raised inside another tail drop leads to. MEDA's drop raises TANDEM_BREAK of MEDB (R388), and
MEDB's raises nothing. -/
def innerDrop (f cause : Nat) (s : State) : State := tailDropBy (fun n s => raiseQuiet n 0 none false s) f cause s

/-- Tail drop of a function, what its own sources lead to included (R529, R532). -/
def tailDrop (f cause : Nat) (s : State) : State := tailDropBy (fun n s => raiseBy innerDrop n 0 none s) f cause s

/-- A function error with its code arrives (R529 to R531). -/
def functionError (f code : Nat) (s : State) : State := functionErrorBy tailDrop f code s

/-- Raise a source with a condition and a payload (R526, R529). -/
def raiseWith (n cond : Nat) (payload : Option (List Byte)) (s : State) : State := raiseBy tailDrop n cond payload s

/-- Raise a source with condition 0 and the default payload. -/
def raise (n : Nat) (s : State) : State := raiseWith n 0 none s

/-- HW_ERROR: a function error with no source of its own, code 0x25xx (R525, R529). -/
def hwError (f cond : Nat) (detail : List Byte) (s : State) : State :=
  functionError f (0x2500 + cond) (raiseQuiet 37 cond (some (BitVec.ofNat 8 f :: detail)) true s)

/-- A window violation of function `f` (8 the zone keeper) at an address (R27, R525, R602). -/
def windowEvent (f a : Nat) (s : State) : State :=
  match f with
  | 0 => raise 10 s
  | 4 => raise 137 s
  | 5 => raise 167 s
  | 2 => raiseWith 36 0 (some (2 :: leBytes 5 a)) s
  | 3 => raiseWith 36 0 (some (3 :: leBytes 5 a)) s
  | 8 => raiseWith 36 0 (some (8 :: leBytes 5 a)) s
  | _ => s

/-- Set a bit of EFT_ATTN: a 0-to-1 change raises the eft's source with the bit as condition (R198). -/
def eftAttn (e b : Nat) (s : State) : State :=
  if s.rb (Reg.EFT_ATTN e) b then s else raiseWith (eftSource e) b none s

end Sys2Proof.Machine
end

