-- ==== Sys2Proof/Machine/Bus.lean ====
section
/-!
DEFINITION. Machine/Bus.lean: accesses to DRAM and service SRAM through the 80/64 code and the DRAM windows (R27,
R460, R461, R463 to R465, R467), shared by every engine.
-/

namespace Sys2Proof.Machine

open Sys2Proof

/-- Memory index of an address: 0 DRAM, 1 service SRAM, 3 Crucible's private SRAM (Table "Protected memories"). -/
def memIndex (a : Nat) : Nat := if dramBase ≤ a then 0 else if 0x30000000 ≤ a then 3 else 1

/-- Key of a word's error pattern. -/
def errKey (m a : Nat) : Nat := m * 2 ^ 40 + a

/-- Payload of a memory event (R476). -/
def memPayload (m a sym src count : Nat) : List Byte :=
  leBytes 5 a ++ [BitVec.ofNat 8 m, BitVec.ofNat 8 sym, BitVec.ofNat 8 src] ++ leBytes 4 count

/-- Entry of the error table of memory `m` that holds an address, if any (R464). -/
def tableFind (s : State) (m a : Nat) : Option Nat :=
  (List.range 32).find? fun e =>
    s.rb (Reg.MEM_TABE_HI m e) 31 && (s.reg (Reg.MEM_TABE_LO m e)).toNat + s.rf (Reg.MEM_TABE_HI m e) 7 0 * 2 ^ 32 = a

/-- Record a failing word in the error table of its memory (R464). -/
def tableUpdate (m a sym src : Nat) (s : State) : State :=
  let un := sym = 0xF
  match tableFind s m a with
  | some e =>
    let h := Reg.MEM_TABE_HI m e
    let s := (s.bumpRf h 27 20).setRf h 11 8 sym
    let s := s.setRf h 19 16 src
    if un then s.setRb h 12 true else s
  | none =>
    match (List.range 32).find? fun e => !s.rb (Reg.MEM_TABE_HI m e) 31 with
    | some e =>
      let hi := a / 2 ^ 32 % 256 + sym * 2 ^ 8 + b2n un * 2 ^ 12 + src * 2 ^ 16 + 2 ^ 31
      ((s.setReg (Reg.MEM_TABE_LO m e) (BitVec.ofNat 32 a)).setReg (Reg.MEM_TABE_HI m e) (BitVec.ofNat 32 hi)).setRf
        (Reg.MEM_TAB_STATUS m) 5 0 (e + 1)
    | none =>
      let first := s.reg (Reg.MEM_TAB_OVF m) = 0
      let s := s.bump (Reg.MEM_TAB_OVF m)
      if first then
        raiseWith 58 0 (some (memPayload m a sym src (s.reg (Reg.MEM_CORR m)).toNat)) s
      else s

/-- A failing word is counted, tabulated and reported (R463, R464). `sym` is 0xF for an uncorrectable one. -/
def memFail (m a sym src : Nat) (s : State) : State :=
  if sym = 0xF then
    let s := tableUpdate m a sym src (s.bump (Reg.MEM_UNCORR m))
    raiseWith 57 0 (some (memPayload m a sym src (s.reg (Reg.MEM_CORR m)).toNat)) s
  else
    let s := tableUpdate m a sym src (s.bump (Reg.MEM_CORR m))
    let c := (s.reg (Reg.MEM_CORR m)).toNat
    if m ∉ s.mu.ceDisarmed && orOne (s.rf Reg.MEM_CFG 15 0) ≤ c then
      raiseWith 56 0 (some (memPayload m a sym src c)) { s with mu := { s.mu with ceDisarmed := m :: s.mu.ceDisarmed } }
    else s

/-- Words of a memory's buffer are read for source `src`, each with its upset: every one is counted; whether one is
uncorrectable (R463, R468). -/
def bufferUpsets (m src : Nat) (l : List (Nat × BitVec 80)) (s : State) : Bool × State :=
  l.foldl (fun acc u => match eccDecode u.2 with
    | .clean => acc
    | .corrected j _ => (acc.1, memFail m u.1 j src acc.2)
    | .uncorrectable => (true, memFail m u.1 0xF src acc.2)) (false, s)

/-- Error patterns of the words that an access touches: word address and pattern, in ascending order. -/
def errsIn (s : State) (a n : Nat) : List (Nat × BitVec 80) :=
  let lo := errKey (memIndex a) (a - a % 8)
  let hi := errKey (memIndex a) (a + n)
  s.mu.errs.filterMap fun (k, e) => if lo ≤ k && k < hi then some (k % 2 ^ 40, e) else none

/-- Exclusive-or the data symbols of an error pattern into bytes read from `a`. -/
def applyResidue (a : Nat) (bs : List Byte) (w : Nat) (r : BitVec 80) : List Byte :=
  bs.mapIdx fun i b => if w ≤ a + i && a + i < w + 8 then b ^^^ BitVec.ofNat 8 (symbolOf r (a + i - w)) else b

/-- What a protected read delivers. -/
inductive BusRes where
  | ok (bs : List Byte)
  /-- Outside the function's DRAM windows, at this address (R27). -/
  | window (a : Nat)
  /-- An uncorrectable word, at this address (R467). -/
  | uncorr (a : Nat)
  deriving DecidableEq, Repr

/-- A read that the checker sees, by initiator `src` (R460, R463): every failing word is counted. -/
def eccRead (src a n : Nat) (s : State) : BusRes × State :=
  (errsIn s a n).foldl (fun (acc : BusRes × State) (w, e) =>
    match eccDecode e with
    | .clean => match acc.1 with
      | .ok bs => (.ok (applyResidue a bs w e), acc.2)
      | r => (r, acc.2)
    | .corrected j r =>
      let s := memFail (memIndex a) w j src acc.2
      match acc.1 with
      | .ok bs => (.ok (applyResidue a bs w r), s)
      | x => (x, s)
    | .uncorrectable =>
      let s := memFail (memIndex a) w 0xF src acc.2
      match acc.1 with
      | .ok _ => (.uncorr w, s)
      | x => (x, s)) (.ok (s.bytes a n), s)

/-- An engine read of function `f` (R26, R27, R467). A violation raises the function's WINDOW event; so does an address
outside every range or above the installed DRAM, which R26 answers with a bus error alone (DESIGN CHOICE, log entry 51: a
job's access has no other answer, and R165 calls it a WINDOW failure). -/
def busRead (f a n : Nat) (s : State) : BusRes × State :=
  if n = 0 then (.ok [], s)
  else if s.engineMay f a n then eccRead f a n s
  else (.window a, windowEvent f a s)

/-- Store bytes through the checker (R461): a word written whole takes new check symbols; a word written in part is
read, corrected and written, and an uncorrectable one is left unchanged. -/
def eccWrite (src a : Nat) (bs : List Byte) (s : State) : BusRes × State :=
  let n := bs.length
  let whole (w : Nat) : Bool := a ≤ w && w + 8 ≤ a + n
  let es := errsIn s a n
  let part := es.filter fun (w, _) => !whole w
  let bad := part.filter fun (_, e) => eccDecode e = .uncorrectable
  let s := part.foldl (fun s (w, e) =>
    match eccDecode e with
    | .clean => s.setBytes w (applyResidue w (s.bytes w 8) w e)
    | .corrected j r => (memFail (memIndex a) w j src s).setBytes w (applyResidue w (s.bytes w 8) w r)
    | .uncorrectable => memFail (memIndex a) w 0xF src s) s
  let inBad (i : Nat) : Bool := bad.any fun (w, _) => w ≤ a + i && a + i < w + 8
  let s := if bad.isEmpty then s.setBytes a bs
    else (bs.zipIdx).foldl (fun s (b, i) => if inBad i then s else s.setBytes (a + i) [b]) s
  let gone (k : Nat) : Bool :=
    es.any fun (w, _) => errKey (memIndex a) w = k && !(bad.any fun (w', _) => w' = w)
  let s := { s with mu := { s.mu with errs := Sparse.clear s.mu.errs gone } }
  match bad with
  | (w, _) :: _ => (.uncorr w, s)
  | [] => (.ok [], s)

/-- An engine write of function `f` (R27, R461). -/
def busWrite (f a : Nat) (bs : List Byte) (s : State) : BusRes × State :=
  if bs.isEmpty then (.ok [], s)
  else if s.engineMay f a bs.length then eccWrite f a bs s
  else (.window a, windowEvent f a s)

/-- Read, and go on with the bytes or with the failure. -/
def readOr (f a n : Nat) (bad : BusRes → State → State) (k : List Byte → State → State) (s : State) : State :=
  match busRead f a n s with
  | (.ok bs, s) => k bs s
  | (r, s) => bad r s

/-- Write, and go on or take the failure. -/
def writeOr (f a : Nat) (bs : List Byte) (bad : BusRes → State → State) (k : State → State) (s : State) : State :=
  match busWrite f a bs s with
  | (.ok _, s) => k s
  | (r, s) => bad r s

/-- An uncorrectable word met by function `f` (8 SYS) on no job's behalf: an error of that function (R468, R525). -/
def unownedBad (f : Nat) (r : BusRes) (s : State) : State :=
  match r with
  | .uncorr a => hwError f 2 (leBytes 5 a ++ [BitVec.ofNat 8 (memIndex a)]) s
  | _ => s

end Sys2Proof.Machine
end

