-- ==== Sys2Proof/Machine/RingOps.lean ====
section
/-!
DEFINITION. Machine/RingOps.lean: shared operations of the ring manager: indices and PHASE (R146, R148), binding
(R144), places and posting of completions (R160 to R162, R167 to R169), and the ERROR state (R164, R165).
-/

namespace Sys2Proof.Machine

open Sys2Proof

/-- Raise bit `k` of RING_EVENT_STATUS (R174). -/
def ringEvent (k : Nat) (s : State) : State := raise (224 + k) s

/-- log2 of the entries of a submission ring (R142). -/
def sqN (s : State) (q : Nat) : Nat := s.rf (Reg.SQ_CFG q) 3 0 + 4

/-- log2 of the entries of a completion ring. -/
def cqN (s : State) (c : Nat) : Nat := s.rf (Reg.CQ_CFG c) 3 0 + 4

/-- Distance from `c` to `p` in a ring of 2^n entries (R146). -/
def ringCount (n p c : Nat) : Nat := (p + 2 ^ (n + 1) - c % 2 ^ (n + 1)) % 2 ^ (n + 1)

/-- PHASE of the entry with index `i` (R148). -/
def phaseOf (n i : Nat) : Bool := !i.testBit n

/-- Array address of a submission ring. -/
def sqBase (s : State) (q : Nat) : Nat := s.regAddr (Reg.SQ_BASE_LO q) (Reg.SQ_BASE_HI q)

/-- Array address of a completion ring. -/
def cqBase (s : State) (c : Nat) : Nat := s.regAddr (Reg.CQ_BASE_LO c) (Reg.CQ_BASE_HI c)

/-- Address of the entry with index `i` of a submission ring. -/
def sqAddr (s : State) (q i : Nat) : Nat := sqBase s q + i % 2 ^ sqN s q * 64

/-- Indices of a ring: P, next to start, and C (R146). -/
def sqP (s : State) (q : Nat) : Nat := s.rf (Reg.SQ_PROD q) 16 0
def sqF (s : State) (q : Nat) : Nat := s.rf (Reg.SQ_FETCH q) 16 0
def sqC (s : State) (q : Nat) : Nat := s.rf (Reg.SQ_DONE q) 16 0
def cqP (s : State) (c : Nat) : Nat := s.rf (Reg.CQ_PROD c) 16 0
def cqC (s : State) (c : Nat) : Nat := s.rf (Reg.CQ_CONS c) 16 0

/-- State of a submission ring: 0 UNBOUND, 1 ACTIVE, 2 HELD, 3 ERROR (R170). -/
def sqState (s : State) (q : Nat) : Nat := s.rf (Reg.SQ_STATE q) 25 24

/-- Function, class and priority of a submission ring. -/
def sqFunc (s : State) (q : Nat) : Nat := s.rf (Reg.SQ_CFG q) 10 8
def sqClass (s : State) (q : Nat) : Nat := s.rf (Reg.SQ_CFG q) 7 4
def sqPrio (s : State) (q : Nat) : Nat := s.rf (Reg.SQ_CFG q) 13 12

/-- Completion ring a submission ring names. -/
def sqCq (s : State) (q : Nat) : Nat := s.rf (Reg.SQ_CFG q) 27 16

/-- A completion ring is ACTIVE. -/
def cqActive (s : State) (c : Nat) : Bool := s.rb (Reg.CQ_STATE c) 24

/-- Completions in a completion ring (R146). -/
def cqCount (s : State) (c : Nat) : Nat := ringCount (cqN s c) (cqP s c) (cqC s c)

/-- The FUNC and CLASS pairs of Table "Engine classes" (R157). -/
def classListed (f c : Nat) : Bool :=
  (f = 0 && c ≤ 2) || ((f = 2 || f = 3) && c ≤ 1) || (f = 4 && c = 0) || (f = 5 && c ≤ 5)

/-- The OP values of a class (R157, R183). -/
def opListed (f c op : Nat) : Bool :=
  match f, c with
  | 0, 0 => 1 ≤ op && op ≤ 9
  | 0, 1 => 1 ≤ op && op ≤ 3
  | 0, 2 => op = 1
  | 2, 0 => 1 ≤ op && op ≤ 7
  | 3, 0 => 1 ≤ op && op ≤ 7
  | 2, 1 => op = 1
  | 3, 1 => op = 1
  | 4, 0 => 1 ≤ op && op ≤ 7
  | 5, 4 => op = 1 || op = 2
  | 5, c => c ≤ 5 && op = 1
  | _, _ => false

/-- Classes that take single-entry jobs only (R159). -/
def classSingle (f c : Nat) : Bool :=
  (f = 0 && (c = 0 || c = 2)) || (f = 5 && (c = 0 || c = 1 || c = 4 || c = 5))

/-- A ring array lies wholly in service SRAM, or wholly inside one DRAM window of the function (R144). -/
def arrayPlaced (s : State) (f a n : Nat) : Bool := s.engineMay f a n

/-- The first entry of a job. -/
def Job.entry (j : Job) : List Byte := j.entries.headD []

/-- Index just past the last entry of a job. -/
def Job.end (j : Job) (n : Nat) : Nat := (j.first + j.entries.length) % 2 ^ (n + 1)

/-- Find a started job. -/
def findJob (s : State) (q first : Nat) : Option Job := s.rings.jobs.find? fun j => j.sq = q && j.first = first

/-- Replace a started job. -/
def setJob (j : Job) (s : State) : State :=
  { s with rings := { s.rings with
      jobs := s.rings.jobs.map fun x => if x.sq = j.sq && x.first = j.first then j else x } }

/-- A started job has finished with an outcome (R162). -/
def finishJob (q first : Nat) (o : Outcome) (s : State) : State :=
  match findJob s q first with
  | some j => if j.done.isSome then s else setJob { j with done := some o } s
  | none => s

/-- Mark a started job as taken up by its engine. -/
def takeJob (q first : Nat) (s : State) : State :=
  match findJob s q first with
  | some j => setJob { j with taken := true } s
  | none => s

/-- Push a ring error into RING_ERR_FIFO (R164, R175). -/
def pushRingErr (q reason : Nat) (s : State) : State :=
  if s.rings.errFifo.length < 32 then
    { s with rings := { s.rings with errFifo := s.rings.errFifo ++ [(q, reason)] } }
  else { s with rings := { s.rings with errOvf := true } }

/-- A ring enters ERROR (R164): index and reason latched, FIFO pushed, RING_ERROR raised. The engines of a fenced function
run no job, so a ring found HELD here was held by a tail drop that fell together with its error: it enters ERROR too (R171). -/
def ringError (q idx reason : Nat) (s : State) : State :=
  if sqState s q = 1 || sqState s q = 2 then
    let v := idx % 2 ^ 17 + reason * 2 ^ 20 + 3 * 2 ^ 24
    ringEvent 0 (pushRingErr q reason (s.setReg (Reg.SQ_STATE q) (BitVec.ofNat 32 v)))
  else s

/-- A data access of a started job failed: the job completes with WINDOW or UNCORRECTABLE and its ring enters ERROR
(R165); `r1` is RESULT1. -/
def failAccessWith (r1 q first : Nat) (r : BusRes) (s : State) : State :=
  match r with
  | .ok _ => s
  | .window _ => ringError q first 12 (finishJob q first ⟨2, 0, r1, 0, 0⟩ s)
  | .uncorr _ => ringError q first 11 (finishJob q first ⟨3, 0, r1, 0, 0⟩ s)

/-- The same with every result 0. -/
def failAccess (q first : Nat) (r : BusRes) (s : State) : State := failAccessWith 0 q first r s

/-- Slots of a completion ring reserved by started jobs (R167). -/
def cqReserved (s : State) (c : Nat) : Nat :=
  (s.rings.jobs.filter fun j => j.cq = c && j.place = .slot).length

/-- Spill places of a function in use: reserved by started jobs, or holding a completion (R167). -/
def spillUsed (s : State) (f : Nat) : Nat :=
  (s.rings.jobs.filter fun j => sqFunc s j.sq = f && j.place = .spill).length
    + (s.rings.spill.filter fun c => c.func = f).length

/-- The place a job of function `f` can reserve for completion ring `c` (R167, R169). -/
def freePlace (s : State) (f c : Nat) : Option Place :=
  if cqCount s c + cqReserved s c < 2 ^ cqN s c && (f, c) ∉ s.rings.blocked then some .slot
  else if spillUsed s f < 64 then some .spill
  else none

/-- The 64 bytes of a completion entry with PHASE 0 (R160). -/
def completionBytes (f cls op jobId status q head r0 r1 r2 r3 : Nat) : List Byte :=
  [BitVec.ofNat 8 (cls * 16), BitVec.ofNat 8 op] ++ leBytes 2 jobId ++ leBytes 2 status ++ leBytes 2 f ++ leBytes 2 q
    ++ leBytes 2 0 ++ leBytes 4 head ++ leBytes 8 r0 ++ leBytes 8 r1 ++ leBytes 8 r2 ++ leBytes 8 r3
    ++ List.replicate 16 0

/-- Write a completion into its ring (R160, R162): bytes 8 to 63 before bytes 0 to 7, CQ_PROD advanced, SQ_DONE of a
live ring advanced. Where the write fails the window check it answers none, with the WINDOW event raised (R169). -/
def writeCompletion (x : Spilled) (s : State) : Option State × State :=
  let n := cqN s x.cq
  let p := cqP s x.cq
  let a := cqBase s x.cq + p % 2 ^ n * 64
  if s.engineMay x.func a 64 then
    let b0 : Byte := if phaseOf n p then 1 else 0
    let bs := match x.bytes with
      | h :: t => (h ||| b0) :: t
      | [] => []
    let (_, s) := eccWrite x.func (a + 8) (bs.drop 8) s
    let (_, s) := eccWrite x.func a (bs.take 8) s
    let s := s.setRf (Reg.CQ_PROD x.cq) 16 0 ((p + 1) % 2 ^ (n + 1))
    let s := if x.live then s.setRf (Reg.SQ_DONE x.sq) 16 0 x.newDone else s
    (some s, s)
  else (none, windowEvent x.func a s)

/-- Put a completion into the spill buffer; SPILL when the function's buffer was empty (R168). -/
def pushSpill (x : Spilled) (s : State) : State :=
  let was := s.rings.spill.any fun c => c.func = x.func
  let s := { s with rings := { s.rings with spill := s.rings.spill ++ [x] } }
  if was then s else ringEvent 3 s

/-- The spilled completions that may enter a completion ring now, in spill order (R168, R169): a fenced function's
windows act as disabled, which a ring in service SRAM does not need, and a blocked function waits for its windows to be
written. -/
def spillReady (s : State) (c : Nat) : Option Spilled :=
  let sram := inSram (cqBase s c) (64 * 2 ^ cqN s c)
  s.rings.spill.find? fun x => x.cq = c && (x.func, c) ∉ s.rings.blocked && (sram || !s.fenced x.func)

/-- Remove the first copy of a spilled completion. -/
def dropSpill (x : Spilled) (s : State) : State :=
  { s with rings := { s.rings with spill := s.rings.spill.erase x } }

/-- Write one spilled completion of ring `c` if a slot is free beyond `keep` reserved ones (R168). -/
def drainSpill (c : Nat) (s : State) : State :=
  match spillReady s c with
  | none => s
  | some x =>
    match writeCompletion x s with
    | (some s', _) => dropSpill x s'
    | (none, s') => { s' with rings := { s'.rings with blocked := (x.func, c) :: s'.rings.blocked } }

/-- Remove a job from the started jobs. -/
def dropJob (q first : Nat) (s : State) : State :=
  { s with rings := { s.rings with jobs := s.rings.jobs.filter fun j => !(j.sq = q && j.first = first) } }

/-- Post a finished job's completion (R162, R168): into its reserved slot, behind spilled completions of the same ring,
or into the spill buffer. -/
def postJob (j : Job) (o : Outcome) (s : State) : State :=
  let f := sqFunc s j.sq
  let head := if j.malformed then j.first else j.end (sqN s j.sq)
  let e := j.entry
  let x : Spilled := ⟨f, j.cq, j.sq, completionBytes f (sqClass s j.sq) (eOp e) (eJobId e) o.status j.sq head o.r0 o.r1
    o.r2 o.r3, head, true⟩
  let s := dropJob j.sq j.first s
  match j.place with
  | .spill => pushSpill x s
  | .slot =>
    match spillReady s j.cq with
    | some _ => drainSpill j.cq (pushSpill x s)
    | none =>
      match writeCompletion x s with
      | (some s', _) => s'
      | (none, s') => pushSpill x { s' with rings := { s'.rings with blocked := (f, j.cq) :: s'.rings.blocked } }

/-- The oldest started job of a ring: the one whose completion is posted next (R162). -/
def oldestJob (s : State) (q : Nat) : Option Job := s.rings.jobs.find? fun j => j.sq = q

/-- A completion of this ring still waits in the spill buffer. -/
def ringSpilled (s : State) (q : Nat) : Bool := s.rings.spill.any fun x => x.sq = q && x.live

/-- Set STALLED of every ring of a function that names a completion ring, raising STALL for each that newly stalls
(R167, R168). -/
def stallRings (f c : Nat) (s : State) : State :=
  (ringsOf s f).foldl (fun s q =>
    if sqState s q = 1 && sqCq s q = c && !s.rb (Reg.SQ_STATE q) 26 then
      ringEvent 4 (s.setRb (Reg.SQ_STATE q) 26 true)
    else s) s

/-- Functions with engine classes (R157). -/
def ringFuncs : List Nat := [0, 2, 3, 4, 5]

/-- After a place has freed: the stalled rings that find a place again run on (R167): a slot of their completion ring, or a
spill place of their function. -/
def refreshStalls (s : State) : State :=
  (ringFuncs.flatMap (ringsOf s)).foldl (fun s q =>
    if s.rb (Reg.SQ_STATE q) 26 && (freePlace s (sqFunc s q) (sqCq s q)).isSome then s.setRb (Reg.SQ_STATE q) 26 false
    else s) s

/-- Completion rings that are configured, found among the listed registers. -/
def listedCq (s : State) : List Nat :=
  s.regs.filterMap fun (a, _) =>
    if Reg.CQ_BASE_LO 0 ≤ a && a < Reg.CQ_BASE_LO 4096 && a % 0x20 = 0x8 then some ((a - Reg.CQ_BASE_LO 0) / 0x20) else none

/-- A completion ring holds its interrupt request: INT_EN is 1 and its count is not 0 (R163). -/
def cqPending (s : State) (c : Nat) : Bool := cqActive s c && s.rb (Reg.CQ_CFG c) 8 && cqCount s c ≠ 0

/-- A completion ring holds an interrupt request to service core `t` (R163). -/
def cqRequest (s : State) (t : Nat) : Bool :=
  (listedCq s).any fun c => cqPending s c && s.rf (Reg.CQ_CFG c) 11 9 = t

end Sys2Proof.Machine
end

