-- ==== Sys2Proof/Machine/EftBase.lean ====
section
/-!
DEFINITION. Machine/EftBase.lean: the unit in an eft, the datapath token (R176), waits (R182), and how a unit leaves an
eft (R184).
-/

namespace Sys2Proof.Machine

open Sys2Proof

/-- Change eft `e`. -/
def modEft (e : Nat) (f : Eft → Eft) (s : State) : State := s.setEft e (f (s.eft e))

/-- Change the unit in eft `e`, if there is one. -/
def modUnit (e : Nat) (f : EftUnit → EftUnit) (s : State) : State :=
  modEft e (fun x => { x with unit := x.unit.map f }) s

/-- The other eft of a MEDx (R176). -/
def otherEft (e : Nat) : Nat := if e % 2 = 0 then e + 1 else e - 1

/-- A unit at its start (R178, R184): S14 the unit count, S15 the index, everything else 0, the results of the units
before it kept. The vector word of its OP is the next microword (R183). -/
def EftUnit.start (j : EftJob) (r0 r1 r2 restarts : Nat) : EftUnit :=
  { job := j,
    scratch := ((Vector.replicate 16 (0 : Word)).set 14 (BitVec.ofNat 32 j.units)).set 15 (BitVec.ofNat 32 j.unit),
    z := false, c := false, n := false, timedOut := false, stack := [], pc := eOp j.entry, committed := false,
    restarts := restarts, res0 := r0, res1 := r1, res2 := r2, saved0 := r0, saved1 := r1, saved2 := r2,
    heldRequest := false }

/-- The same unit restarted from its entry with the registers as at unit start and its RES values discarded (R185). -/
def EftUnit.restart (u : EftUnit) : EftUnit := EftUnit.start u.job u.saved0 u.saved1 u.saved2 (u.restarts + 1)

/-- Release the datapath token an eft owns; an eft of the same MEDx that waits for it gets it and goes on (R176),
unless a forced fly-height run claims it (R448). -/
def releaseToken (e : Nat) (s : State) : State :=
  if (s.eft e).owns then
    let s := modEft e (fun x => { x with owns := false }) s
    let o := otherEft e
    if e < 4 && (s.eft o).st ≠ .held && (s.eft o).wait = .token && !s.cal.forced.contains (2 + e / 2) then
      modUnit o EftUnit.next (modEft o (fun x => { x with owns := true, wait := .none }) s)
    else s
  else s

/-- An eft is between jobs: IDLE, or STOPPED where RUN is 0 (R197) and nothing is parked or waits to restart. -/
def restState (s : State) (e : Nat) : EftSt :=
  let x := s.eft e
  if !s.rb (Reg.EFT_CTRL e) 0 && x.parked.isEmpty && x.preempted.isEmpty then .stopped else .idle

/-- The unit leaves the eft: transfer and wait are cancelled, the token is released, and the eft is free (R184, R185).
An eft held by tail drop stays held. -/
def freeEft (e : Nat) (s : State) : State :=
  let s := releaseToken e s
  let s := modEft e (fun x => { x with unit := none, xfer := none, wait := .none, passBreak := false }) s
  modEft e (fun x => { x with st := if x.st = .held then .held else restState s e }) s

/-- The wait of an eft on an event ends: by the event, or by its timeout (R180, R182). A HELD eft stays at its microword
(R192). -/
def endWait (e : Nat) (byTimeout : Bool) (s : State) : State :=
  if (s.eft e).st = .held then s
  else modUnit e (fun u => { u with timedOut := byTimeout }.next) (modEft e (fun x => { x with wait := .none }) s)

/-- Event `ev` has come: an eft that waits for it goes on (R182). -/
def wakeEft (e ev : Nat) (s : State) : State :=
  match (s.eft e).wait with
  | .event v _ => if v = ev then endWait e false s else s
  | _ => s

end Sys2Proof.Machine
end

