-- ==== Sys2Proof/Machine/ZoneOps.lean ====
section
/-!
DEFINITION. Machine/ZoneOps.lean: shared operations of the zone keeper (spec/09): zone-table entries (R263), defects
(R273, R274), contexts and seals (R271, R272), the checks of a MEDx job (R267 to R269) and the write pointer (R270).
-/

namespace Sys2Proof.Machine

open Sys2Proof

/-- Raise bit `k` of ZONE_EVENT_STATUS (R282). -/
def zoneEvent (k : Nat) (s : State) : State := raise (232 + k) s

/-- Slots of a shingled zone and of a conventional one (R261). -/
def shSlots : Nat := 67584
def cvSlots : Nat := 65536

/-- A zone-table entry, bytes 0 to 23 (Table "Zone table entry"). -/
structure ZEnt where
  wp : Nat
  typ : Nat
  st : Nat
  hold : Bool
  act : Nat
  head : Nat
  ucount : Nat
  ugroup : List Nat
  start : Nat
  tracks : Nat
  spt : Nat
  defIdx : Nat
  defCount : Nat
  resets : Nat
  deriving DecidableEq, Repr

/-- Decode an entry. -/
def zDecode (b : List Byte) : ZEnt :=
  let w := field b 0 4
  { wp := nfld w 16 0, typ := nfld w 18 17, st := nfld w 21 19, hold := nbit w 22, act := nfld w 23 23,
    head := nfld w 27 24, ucount := nfld w 30 28, ugroup := (List.range 4).map fun i => field b (4 + i) 1,
    start := field b 8 3, tracks := field b 12 2, spt := field b 14 2, defIdx := field b 16 4, defCount := field b 20 2,
    resets := field b 22 2 }

/-- Bytes 0 to 7 of an entry, as the keeper writes them. -/
def zHeadBytes (e : ZEnt) : List Byte :=
  let w := e.wp + e.typ * 2 ^ 17 + e.st * 2 ^ 19 + b2n e.hold * 2 ^ 22 + e.act * 2 ^ 23 + e.head * 2 ^ 24
    + e.ucount * 2 ^ 28
  leBytes 4 w ++ (List.range 4).map fun i => BitVec.ofNat 8 (if i < e.ucount then e.ugroup.getD i 0 else 0)

/-- Bytes 16 to 23 of an entry. -/
def zTailBytes (e : ZEnt) : List Byte := leBytes 4 e.defIdx ++ leBytes 2 e.defCount ++ leBytes 2 e.resets

/-- TYPE with 3 treated as absent (R263). -/
def ZEnt.kind (e : ZEnt) : Nat := if e.typ = 3 then 0 else e.typ

/-- STATE with 6 and 7 treated as OFFLINE (Table "Zone states"). -/
def ZEnt.state (e : ZEnt) : Nat := min e.st 5

/-- Zones in effect: 0 acts as 1, above 524,288 as 524,288 (R283). -/
def zoneCount (s : State) : Nat := min (orOne (s.rf Reg.ZONE_COUNT 19 0)) 524288

/-- Address of a zone's entry (R263). -/
def zoneAddr (s : State) (z : Nat) : Nat :=
  s.rf Reg.ZONE_TAB_BASE_LO 31 24 * 2 ^ 24 + s.rf Reg.ZONE_TAB_BASE_HI 7 0 * 2 ^ 32 + z * 32

/-- Read a zone's entry and go on. -/
def withZone (z : Nat) (bad : BusRes → State → State) (k : ZEnt → State → State) (s : State) : State :=
  readOr 8 (zoneAddr s z) 24 bad (fun b s => k (zDecode b) s) s

/-- Refuse a zone from now on, then take a failure (R602). -/
def lockZone (z : Nat) (bad : BusRes → State → State) (r : BusRes) (s : State) : State :=
  bad r { s with zone := { s.zone with locked := z :: s.zone.locked } }

/-- Read the entry of a zone whose fields the keeper must change, and go on: where it cannot be reached the zone is refused
from then on (R602). -/
def withZoneOwn (z : Nat) (bad : BusRes → State → State) (k : ZEnt → State → State) (s : State) : State :=
  withZone z (lockZone z bad) k s

/-- Write a zone's entry, bytes 0 to 7 and, where asked, 16 to 23 (R264). A zone that cannot be written is refused from
then on (R602). -/
def zonePut (z : Nat) (e : ZEnt) (tail : Bool) (bad : BusRes → State → State) (k : State → State) (s : State) : State :=
  writeOr 8 (zoneAddr s z) (zHeadBytes e) (lockZone z bad)
    (fun s => if tail then writeOr 8 (zoneAddr s z + 16) (zTailBytes e) (lockZone z bad) k s else k s) s

/-- The keeper treats a zone as not accessible (R265, R602). -/
def zoneGone (s : State) (z : Nat) : Bool := z ∈ s.zone.locked || z ∈ s.zone.absent || zoneCount s ≤ z

/-- A zone's defects: slip positions, ascending and distinct, and remaps (R273). -/
structure Defects where
  slips : List Nat
  remaps : List (Nat × Nat)
  deriving DecidableEq, Repr

/-- Insert into an ascending list without repeats. -/
def insSlip (p : Nat) : List Nat → List Nat
  | [] => [p]
  | q :: t => if p < q then p :: q :: t else if p = q then q :: t else q :: insSlip p t

/-- Defect entries in their list form (Table "Defect entry"). -/
def decodeDefects (b : List Byte) : Nat → Defects
  | 0 => ⟨[], []⟩
  | n + 1 =>
    let d := decodeDefects (b.drop 8) n
    let w := field b 0 4
    match nfld w 25 24 with
    | 0 => { d with slips := insSlip (nfld w 23 0) d.slips }
    | 1 => { d with slips := insSlip (nfld w 23 0) d.slips }
    | 2 => { d with remaps := (nfld w 23 0, field b 4 3) :: d.remaps }
    | _ => d

/-- Address of defect entry `k`. -/
def defAddr (s : State) (k : Nat) : Nat :=
  s.rf Reg.ZONE_DEF_BASE_LO 31 12 * 4096 + s.rf Reg.ZONE_DEF_BASE_HI 7 0 * 2 ^ 32 + k * 8

/-- Read a zone's defects and go on; an index at or above ZONE_DEF_SIZE is absent (R273, R283). -/
def withDefects (e : ZEnt) (bad : BusRes → State → State) (k : Defects → State → State) (s : State) : State :=
  let n := min (e.defIdx + e.defCount) (s.rf Reg.ZONE_DEF_SIZE 23 0) - e.defIdx
  readOr 8 (defAddr s e.defIdx) (n * 8) bad (fun b s => k (decodeDefects b n) s) s

/-- Position of a slot among slips: past every slip at or below it (R274). -/
def slipPos (slot : Nat) (slips : List Nat) : Nat := slips.foldl (fun p q => if q ≤ p then p + 1 else p) slot

/-- Position of a slot (R274). -/
def slotPos (e : ZEnt) (d : Defects) (slot : Nat) : Nat :=
  let p := slipPos slot d.slips
  if e.kind = 2 then (d.remaps.lookup p).getD p else p

/-- Slots of a zone's type. -/
def ZEnt.slots (e : ZEnt) : Nat := if e.kind = 1 then shSlots else cvSlots

/-- Good positions of a zone (R265). -/
def goodPos (e : ZEnt) (d : Defects) : Nat := e.tracks * e.spt - d.slips.length

/-- A position is a spare of the zone (R274). -/
def isSpare (e : ZEnt) (d : Defects) (p : Nat) : Bool :=
  slipPos (e.slots - 1) d.slips < p && p < e.tracks * e.spt && p ∉ d.slips

/-- The position of a slot as the datapath gets it (R274): where the table cannot be read, as stated at each use. -/
def withSect (z slot : Nat) (bad : BusRes → State → State) (k : Sect → State → State) (s : State) : State :=
  withZone z bad (fun e s => withDefects e bad (fun d s =>
    let p := slotPos e d slot
    let spt := orOne e.spt
    k ⟨z, slot, none, e.head, e.start + p / spt, p % spt, e.kind = 1⟩ s) s) s

/-- Contexts of an actuator. -/
def ctxs (s : State) (x : Nat) : List (Option Ctx) := if x = 0 then s.zone.ctxA else s.zone.ctxB

/-- Replace an actuator's contexts. -/
def setCtxs (x : Nat) (l : List (Option Ctx)) (s : State) : State :=
  if x = 0 then { s with zone := { s.zone with ctxA := l } } else { s with zone := { s.zone with ctxB := l } }

/-- The context that an OPEN zone holds. -/
def ctxOf (s : State) (x z : Nat) : Option Ctx :=
  ((ctxs s x).find? fun c => match c with
    | some c => c.zone = z
    | none => false).getD none

/-- Change the context of a zone. -/
def modCtx (x z : Nat) (f : Ctx → Ctx) (s : State) : State :=
  setCtxs x ((ctxs s x).map fun c => c.map fun c => if c.zone = z then f c else c) s

/-- Release the context of a zone. -/
def releaseCtx (x z : Nat) (s : State) : State :=
  setCtxs x ((ctxs s x).map fun c => match c with
    | some c => if c.zone = z then none else some c
    | none => none) s

/-- Empty parity sectors. -/
def noParity : List (List Nat) := List.replicate 8 (List.replicate 2080 0)

/-- Bind a free context; none where all sixteen are in use. -/
def bindCtx (x z wp : Nat) (s : State) : Option State :=
  if (ctxs s x).all Option.isSome then none
  else
    let rec put : List (Option Ctx) → List (Option Ctx)
      | [] => []
      | none :: t => some ⟨z, wp, 0, noParity⟩ :: t
      | c :: t => c :: put t
    some (setCtxs x (put (ctxs s x)) s)

/-- Seal the partial group at WP, where WP is not at a group start (R272): the entry, and whether UNSEALED is raised.
Where four groups are unsealed already, WP stays and the zone becomes READ_ONLY. -/
def sealEnt (e : ZEnt) : ZEnt × Bool :=
  if e.wp % 264 = 0 then (e, false)
  else if e.ucount < 4 then
    ({ e with wp := (e.wp / 264 + 1) * 264, ugroup := (e.ugroup.take e.ucount ++ [e.wp / 264]), ucount := e.ucount + 1 },
     true)
  else ({ e with st := 4 }, true)

/-- Raise UNSEALED where a seal asks for it. -/
def unsealed (b : Bool) (s : State) : State := if b then zoneEvent 3 s else s

/-- A zone whose context is lost (R265, R272): sealed, then CLOSED unless the seal made it READ_ONLY. -/
def closeEnt (e : ZEnt) : ZEnt × Bool :=
  let (e', b) := sealEnt e
  (if e'.st = 1 then { e' with st := 2 } else e', b)

/-- An uncorrectable read of the keeper on no job's behalf is an error of SYS (R468, R525). -/
def keeperBad (r : BusRes) (s : State) : State :=
  unownedBad 8 r s

/-- Last data slot of `count` data slots from data slot `slot` of a shingled zone (R269). -/
def lastData (slot count : Nat) : Nat :=
  let d := slot / 264 * 256 + slot % 264 + count - 1
  d / 256 * 264 + d % 256

/-- Slot after the last one a job covers, the parity that a write completes included (R269, R270). -/
def jobStop (shingled write : Bool) (slot count : Nat) : Nat :=
  if !shingled || 256 ≤ slot % 264 then slot + count
  else
    let l := lastData slot count
    if write && l % 264 = 255 then l + 9 else l + 1

/-- A parity slot of a shingled zone. -/
def isParitySlot (slot : Nat) : Bool := 256 ≤ slot % 264

/-- Slot of unit `u` of a job that begins at `slot` (R183, R269, R272). -/
def unitSlot (shingled write : Bool) (slot u : Nat) : Nat :=
  if !shingled || write || isParitySlot slot then slot + u else lastData slot (u + 1)

/-- Detail code of a failed zone check, 0 where the job passes (R268). -/
def zoneCode (s : State) (x : Nat) (e : ZEnt) (op z slot count : Nat) : Nat :=
  let sh := e.kind = 1
  let write := op = 2
  let par := sh && isParitySlot slot
  if zoneGone s z || e.kind = 0 || e.state = 5 || e.act ≠ x || (write && sh && e.state ≠ 1)
      || (write && !sh && e.state = 4) then 0xA001
  else if write && sh && e.hold then 0xA004
  else if write && sh && slot ≠ ((ctxOf s x z).map Ctx.rwp).getD e.wp then 0xA002
  else if (par && 264 < slot % 264 + count) || e.slots < jobStop sh write slot count then 0xA003
  else if sh && !write && (e.wp < jobStop sh write slot count || (par && slot / 264 ∈ e.ugroup.take e.ucount)) then 0xA005
  else 0

/-- The fields of a MEDx entry that name a slot hold values R267 allows; the zone's entry is needed for the last two
conditions. -/
def zonePbaOk (s : State) (b : List Byte) : Bool :=
  medZone b = nfld (medPba b) 35 17 && medPba b < 2 ^ 36 && medZone b < zoneCount s

/-- The slot conditions of R267 on a present zone. -/
def zoneSlotOk (e : ZEnt) (op slot : Nat) : Bool :=
  e.kind = 0 || (slot < e.slots && !(op = 2 && e.kind = 1 && isParitySlot slot))

/-- Jobs of the zone that have started and not completed (R266 BUSY). -/
def zoneBusy (s : State) (z : Nat) : Bool :=
  s.rings.jobs.any fun j =>
    let f := sqFunc s j.sq
    (f = 2 || f = 3) && sqClass s j.sq = 0 && 1 ≤ eOp j.entry && eOp j.entry ≤ 4 && medZone j.entry = z && j.done.isNone
      && !j.malformed

/-- Release the write jobs of a zone whose first slot WP has reached (R270). -/
def releaseWrites (z wp : Nat) (s : State) : State :=
  { s with zone := { s.zone with
      writes := s.zone.writes.map fun w => if w.zone = z && w.start = wp then { w with released := true } else w } }

/-- The write record of a job. -/
def zoneWriteOf (s : State) (q first : Nat) : Option ZoneWrite :=
  s.zone.writes.find? fun w => w.sq = q && w.first = first

/-- Remove a write record. -/
def dropWrite (q first : Nat) (s : State) : State :=
  { s with zone := { s.zone with writes := s.zone.writes.filter fun w => !(w.sq = q && w.first = first) } }

/-- The reserved pointer equals WP while no WRITE of the zone is in flight (R270). -/
def settleRwp (x z wp : Nat) (s : State) : State :=
  if s.zone.writes.any fun w => w.zone = z then s else modCtx x z (fun c => { c with rwp := wp }) s

/-- Add a data sector to a context's parity sectors (R271, R272): data slot `i` of the group. -/
def addParity (i : Nat) (data : List Byte) (p : List (List Nat)) : List (List Nat) :=
  p.mapIdx fun j col =>
    let c := gf16Inv (j ^^^ (8 + i))
    col.mapIdx fun t v => v ^^^ gf16Mul c (field data (2 * t) 2)

/-- The 4,160 bytes of a parity sector. -/
def paritySector (p : List (List Nat)) (j : Nat) : List Byte := (p.getD j []).flatMap fun v => leBytes 2 v

/-- The context after the unit of a slot has ended, `data` its sector as written (R272). -/
def ctxAfter (slot : Nat) (data : List Byte) (c : Ctx) : Ctx :=
  let o := slot % 264
  if o < 256 then { c with fill := c.fill + 1, parity := addParity o data c.parity }
  else if o = 263 then { c with fill := 0, parity := noParity }
  else c

/-- The unit of a shingled WRITE has ended at `slot` (R270, R272): WP advances, the context accumulates, a job that
waits for this WP is released, and a full zone becomes FULL and gives up its context. -/
def zoneUnitEnd (x z slot : Nat) (data : List Byte) (bad : BusRes → State → State) (k : State → State) (s : State) :
    State :=
  withZoneOwn z bad (fun e s =>
    let wp := max e.wp (slot + 1)
    let full := shSlots ≤ wp
    let e' := { e with wp := wp, st := if full then 3 else e.st }
    zonePut z e' false bad (fun s =>
      let s := modCtx x z (ctxAfter slot data) s
      let s := if full then releaseCtx x z s else s
      k (releaseWrites z wp s)) s) s

/-- End with WP_HELD every job that waits for the zone's arming release (R270 step 3). -/
def holdWaiting (z : Nat) (s : State) : State :=
  (s.zone.writes.filter fun w => w.zone = z && !w.released).foldl (fun s w =>
    let s := dropWrite w.sq w.first (finishJob w.sq w.first ⟨8, 0, 0, 0, 0xA004⟩ s)
    (List.range 4).foldl (fun s e =>
      match (s.eft e).unit with
      | some u => if u.job.sq = w.sq && u.job.first = w.first then freeEft e s else s
      | none => s) s) s

/-- A shingled WRITE job has ended with `next` the slot after the last one written (R270). -/
def zoneWriteEnd (q first next : Nat) (bad : BusRes → State → State) (s : State) : State :=
  match zoneWriteOf s q first with
  | none => s
  | some w =>
    let s := dropWrite q first s
    withZoneOwn w.zone bad (fun e s =>
      if w.released && next < w.stop && !e.hold then
        let e' := { e with wp := next, hold := true }
        zonePut w.zone e' false bad (fun s => holdWaiting w.zone (zoneEvent 2 s)) s
      else if e.hold then s
      else settleRwp w.act w.zone e.wp s) s

end Sys2Proof.Machine
end

