-- ==== Sys2Proof/Machine/MedBase.lean ====
section
/-!
DEFINITION. Machine/MedBase.lean: events of the MEDx blocks and what the end of a run or of a job does to the datapath
(R294, R303, R313, R320, R350).
-/

namespace Sys2Proof.Machine

open Sys2Proof

/-- Raise bit `k` of a MEDx event register: read channel (R335), recovery (R358), write block (R308), servo (R392). -/
def rcEvent (x k : Nat) (s : State) : State := raise (64 + 32 * x + k) s
def srEvent (x k : Nat) (s : State) : State := raise (72 + 32 * x + k) s
def wrEvent (x k : Nat) (s : State) : State := raise (80 + 32 * x + k) s
def svEvent (x k : Nat) (s : State) : State := raise (88 + 32 * x + k) s

/-- The read run ends: gain and frequency are written back to the entry in use, which stays loaded (R310, R313, R320). -/
def endReadRun (x : Nat) (s : State) : State :=
  let r := (med s x).rc
  if r.run then
    let s := match r.band with
      | some b =>
        let s := s.setRf (Reg.MED_RHB x r.head b 1) 7 0 r.gain
        s.setRf (Reg.MED_RHB x r.head b 2) 31 16 (unsigned 16 r.freq)
      | none => s
    modRc x (fun r => { r with run := false }) s
  else s

/-- The sector that MEDx_SR_DISTRUST names, while VALID (R350). -/
def distrustPba (s : State) (x : Nat) : Option Nat :=
  if s.rb (Reg.MED_SR_DISTRUST_HI x) 31 then
    some ((s.reg (Reg.MED_SR_DISTRUST_LO x)).toNat + s.rf (Reg.MED_SR_DISTRUST_HI x) 15 0 * 2 ^ 32)
  else none

/-- A PBA lies in the range of a job's entry, in a shingled zone that of its data slots (R269). -/
def inJobRange (shingled : Bool) (b : List Byte) (pba : Nat) : Bool :=
  medPba b / 2 ^ 17 = pba / 2 ^ 17 && medPba b ≤ pba && pba % 2 ^ 17 < jobStop shingled false (medPba b % 2 ^ 17) (medCount b)

/-- The kind of a zone, as its entry in memory says. -/
def zoneShingled (s : State) (z : Nat) : Bool := (zDecode (s.bytes (zoneAddr s z) 24)).kind = 1

/-- What the end of a class 0 job on eft `e` does to the datapath: its runs end, its armed sectors whose gate has not
risen are cancelled (R303), and a READ of the distrusted sector clears DISTRUST (R350). -/
def medJobEnd (e : Nat) (b : List Byte) (s : State) : State :=
  let x := e / 2
  let s := if (med s x).wr.armedBy = e then
      let s := endWriteRun x s
      modWr x (fun w => { w with armed := if w.writing then w.armed else none, loaded := none, limitRaised := false }) s
    else s
  let s := if (med s x).rc.armedBy = e then
      modRc x (fun r => { r with armed := none, loaded := none }) (endReadRun x s)
    else s
  match distrustPba s x with
  | some p => if eOp b = 1 && inJobRange (zoneShingled s (medZone b)) b p then s.setRb (Reg.MED_SR_DISTRUST_HI x) 31 false else s
  | none => s

end Sys2Proof.Machine
end

