-- ==== Sys2Proof/Machine/StgOps.lean ====
section
/-!
DEFINITION. Machine/StgOps.lean: shared operations of the staging tier (spec/07): geometry and addresses (R203, R204),
the randomiser (R209), block records and advice (R221 to R227), and what a job's outcome does to its records.
-/

namespace Sys2Proof.Machine

open Sys2Proof

/-- Length of the retry table in effect: 0 acts as 1, 65 to 127 as 64 (R237). -/
def retryLen (s : State) : Nat := min (orOne (s.rf Reg.STG_RETRY_CFG 6 0)) 64

/-- The fields of a STG entry hold values Table "STG entry validity" allows (R206). -/
def stgEntryOk (s : State) (b : List Byte) : Bool :=
  let c := stgCh b
  let op := eOp b
  let block := stgBlock b
  let page := stgPage b
  let len := entLen b
  let whole := jobPlanes b * cwPerPage s c * 4096
  let arrayOp := op = 1 || op = 2 || op = 3
  s.rb (Reg.CH_MODE c) 0 && cePresent s c (stgCe b) && stgLun b < lunsPerCe s c
    && (if arrayOp then 0 < jobPlanes b && stgPlanes b < 2 ^ 2 ^ planeBits s c else stgPlanes b = 0)
    && (match op with
        | 1 | 2 | 3 => block < 2 ^ blockBits s c
        | 4 => block < 256 && block ≠ 1 && block ≠ 2
        | 5 => block < 256
        | _ => block = 0)
    && (match op with
        | 1 | 2 => page < 2 ^ pageBits s c
        | 7 => page < 512
        | _ => page = 0)
    && (match op with
        | 1 => len % 4096 = 0 && 4096 ≤ len && len ≤ whole
        | 2 => len = whole
        | 4 | 5 => len = 4
        | 7 => len % 256 = 0 && 256 ≤ len && len ≤ 4096
        | _ => len = 0)
    && (if op = 1 then stgLdpc b ≤ 2 && stgRetry b < retryLen s else stgLdpc b = 0 && stgRetry b = 0)

/-- One step of the randomiser: the key bit and the next state of the 23-bit LFSR (R209). -/
def randStep (x : Nat) : Bool × Nat :=
  let o := nbit x 22
  (o, (x * 2 + b2n (o != nbit x 17)) % 2 ^ 23)

/-- One keystream byte, bit 0 first (R209). -/
def randByte (x : Nat) : Byte × Nat :=
  let (bs, x) := (List.range 8).foldl (fun (acc : List Bool × Nat) _ =>
    let (o, y) := randStep acc.2
    (acc.1 ++ [o], y)) ([], x)
  (BitVec.ofNat 8 (bitsNat bs), x)

/-- Exclusive-or the keystream from a state into bytes. -/
def randApply (x : Nat) : List Byte → List Byte
  | [] => []
  | b :: bs => let (k, y) := randByte x; (b ^^^ k) :: randApply y bs

/-- Seed of a codeword's keystream (R209). -/
def randSeed (s : State) (c ce l block page cw : Nat) : Nat :=
  let str := leBytes 1 c ++ leBytes 1 ce ++ leBytes 1 l ++ leBytes 1 cw ++ leBytes 4 block ++ leBytes 4 page ++ leBytes 4 0
  let x := (crc32c str ^^^ s.reg Reg.STG_RAND_KEY).toNat % 2 ^ 23
  orOne x

/-- Scramble or descramble one codeword (R209, R210). -/
def randomise (s : State) (c ce l block page cw : Nat) (bs : List Byte) : List Byte :=
  if s.rb Reg.STG_CTRL 2 then bs else randApply (randSeed s c ce l block page cw) bs

/-- The codeword of 4,096 data bytes in the code of a channel (R207 to R209). -/
def ldpcWord (s : State) (c : Nat) (d : List Byte) : List Byte :=
  let p := parityBytes s c
  d ++ (List.range p).map fun i => Config.ldpcParity p d i

/-- Most iterations of a hard or a soft decode; 0 acts as 1 (R219, R237). -/
def iterMax (s : State) (mode : Nat) : Nat :=
  orOne (if mode = 0 then s.rf Reg.STG_LDPC_CFG 5 0 else s.rf Reg.STG_LDPC_CFG 13 8)

/-- The decoder reaches a codeword within its iterations (R219), and no word of its LDPC buffer is uncorrectable (R468). -/
def cwDecodes (most : Nat) (o : CwObs) : Bool := o.ok && o.iters ≤ most && o.upsets.all fun u => eccDecode u.2 ≠ .uncorrectable

/-- LLR magnitudes of a decode (R219): one of a hard decode; of a soft one those of bits that the reads agree on and
that they do not. -/
def llrOf (s : State) (mode : Nat) : List Nat :=
  let strong := s.rf Reg.STG_LDPC_LLR 7 4
  if mode = 0 then [s.rf Reg.STG_LDPC_LLR 3 0]
  else if mode = 1 then [strong, 0]
  else [strong, s.rf Reg.STG_LDPC_LLR 11 8]

/-- A codeword looks erased (R211). -/
def looksErased (s : State) (o : CwObs) : Bool := o.zeros ≤ s.rf Reg.STG_LDPC_CFG 31 24

/-- The raw bytes of one page on the bus: codewords of data and parity, scrambled (R207 to R209). -/
def pageRaw (s : State) (c ce l block page : Nat) (data : List Byte) : List Byte :=
  (List.range (cwPerPage s c)).flatMap fun w =>
    let d := fit 4096 ((data.drop (w * 4096)).take 4096)
    randomise s c ce l block page w (ldpcWord s c d)

/-- Data bytes of codeword `w` of a raw page, descrambled (R207, R209). -/
def cwData (s : State) (c ce l block page w : Nat) (raw : List Byte) : List Byte :=
  let n := 4096 + parityBytes s c
  (randomise s c ce l block page w ((raw.drop (w * n)).take n)).take 4096

/-- Raise bit `k` of STG_EVENT_STATUS (R236). -/
def stgEvent (k : Nat) (s : State) : State := raise (128 + k) s

/-- Push an advice entry (R227). -/
def advise (reason c d block : Nat) (s : State) : State :=
  if 64 ≤ s.stg.advise.length then stgEvent 7 (s.bump Reg.STG_ADVISE_OVF)
  else
    let was := s.stg.advise.isEmpty
    let w := 2 ^ 31 + reason * 2 ^ 28 + c * 2 ^ 25 + d * 2 ^ 22 + block % 8192
    let s := { s with stg := { s.stg with advise := s.stg.advise ++ [w] } }
    if was then stgEvent 6 s else s

/-- Address of a block record (R224). -/
def recAddr (s : State) (c d block : Nat) : Nat :=
  s.rf Reg.STG_BLKTAB_BASE_LO 31 24 * 2 ^ 24 + s.rf Reg.STG_BLKTAB_BASE_HI 7 0 * 2 ^ 32 + ((c * 8 + d) * 8192 + block) * 32

/-- A read of a block record or of the retry table: an uncorrectable one raises BLKTAB_UNCORR (R236). -/
def tabRead (a n : Nat) (s : State) : BusRes × State :=
  match busRead 4 a n s with
  | (.uncorr w, s) => (.uncorr w, stgEvent 10 s)
  | x => x

/-- Offsets of entry `r` of the retry table, 1 to 15 at indices 0 to 14 (R221). -/
def retryEntry (r : Nat) (s : State) : BusRes × State :=
  tabRead (s.rf Reg.STG_RETRY_BASE_LO 31 12 * 4096 + s.rf Reg.STG_RETRY_BASE_HI 7 0 * 2 ^ 32 + r * 16) 15 s

/-- Update a block record, and push the advice that the change calls for (R226, R227). -/
def recUpdate (c d : Nat) (f : List Byte → List Byte) (adv : List Byte → List Byte → List Nat) (block : Nat)
    (s : State) : BusRes × State :=
  match tabRead (recAddr s c d block) 32 s with
  | (.ok r, s) =>
    match busWrite 4 (recAddr s c d block) (f r) s with
    | (.ok _, s) => (.ok [], (adv r (f r)).foldl (fun s k => advise k c d block s) s)
    | x => x
  | x => x

/-- Update several records, up to the first access that fails. -/
def recUpdates (c d : Nat) (f : List Byte → List Byte) (adv : List Byte → List Byte → List Nat) (blocks : List Nat)
    (s : State) : BusRes × State :=
  blocks.foldl (fun acc b =>
    match acc.1 with
    | .ok _ => recUpdate c d f adv b acc.2
    | _ => acc) (.ok [], s)

/-- Fields of a block record (Table "Block record"). -/
def recBad (r : List Byte) : Bool := (byteAt r 15).toNat % 8 ≠ 0
def recErases (r : List Byte) : Nat := field r 16 3
def recNear (r : List Byte) : Nat := field r 19 1
def recReads (r : List Byte) : Nat := field r 20 4
def recMaxCorr (r : List Byte) : Nat := field r 24 2
def recProgPtr (r : List Byte) : Nat := field r 26 2

/-- R225: the checks of a PROGRAM_PAGE or ERASE_BLOCK on its block records, before any die command. -/
def checkBlocks (c d : Nat) (page : Option Nat) (bad : BusRes → State → State) (no : Nat → State → State)
    (k : State → State) (blocks : List Nat) (badBlk order : Bool) (s : State) : State :=
  match blocks with
  | [] => if badBlk then no 0x8005 s else if order then no 0x8006 s else k s
  | b :: bs =>
    match tabRead (recAddr s c d b) 32 s with
    | (.ok r, s) =>
      let o := match page with
        | some p => recProgPtr r ≠ p
        | none => false
      checkBlocks c d page bad no k bs (badBlk || recBad r) (order || o) s
    | (x, s) => bad x s

/-- References that a page depends on: mask of its page type (R222). -/
def grayMask (s : State) (c page : Nat) : Nat :=
  match page % bitsPerCell s c with
  | 0 => s.rf Reg.STG_GRAY_01 14 0
  | 1 => s.rf Reg.STG_GRAY_01 30 16
  | 2 => s.rf Reg.STG_GRAY_23 14 0
  | _ => s.rf Reg.STG_GRAY_23 30 16

/-- One tracking step of an offset toward a retry entry's (R223). -/
def trackStep (lim : Int) (cur target : Byte) : Byte :=
  let x := signed 8 cur.toNat
  let t := signed 8 target.toNat
  let y := if x < t then x + 1 else if t < x then x - 1 else x
  BitVec.ofNat 8 (unsigned 8 (clampI (-lim) lim y))

/-- The record after a READ_PAGE job (R223, R226). `ent` holds the offsets of entry RESULT2 where tracking moves
toward it; `near` says that NEAR increments. -/
def recAfterRead (mask : Nat) (lim : Int) (ent : Option (List Byte)) (near : Bool) (corr : Nat) (r : List Byte) :
    List Byte :=
  let offs := match ent with
    | some e => (List.range 15).map fun j => if nbit mask j then trackStep lim (byteAt r j) (byteAt e j) else byteAt r j
    | none => r.take 15
  offs ++ (r.drop 15).take 4 ++ leBytes 1 (if near then satAdd 8 (recNear r) 1 else recNear r)
    ++ leBytes 4 (satAdd 32 (recReads r) 1) ++ leBytes 2 (max (recMaxCorr r) (min corr 65535)) ++ r.drop 26

/-- The record of a READ_PAGE that a failed access or a channel that is down ended: it counts as a read (R226). -/
def recReadsOnly (r : List Byte) : List Byte := patch r 20 (leBytes 4 (satAdd 32 (recReads r) 1))

/-- Advice that a change of a record's READS or NEAR calls for (R227). -/
def readAdvice (s : State) (r r' : List Byte) : List Nat :=
  (if recReads r' ≠ recReads r && recReads r' = s.rf Reg.STG_WEAR_CFG 15 0 * 1024 then [1] else [])
    ++ (if recNear r' ≠ recNear r && recNear r' = s.rf Reg.STG_TRK_CFG 31 24 then [2] else [])

/-- READS counts a READ_PAGE that a failed access ended (R226); where its records cannot be reached nothing follows. -/
def countRead (b : List Byte) (s : State) : State :=
  match recUpdates (stgCh b) (jobDie s b) recReadsOnly (readAdvice s) (jobBlocks s b) s with
  | (.ok _, s') => s'
  | _ => s

/-- The record after a successful erase (R226). -/
def recAfterErase (r : List Byte) : List Byte :=
  List.replicate 15 0 ++ (r.drop 15).take 1 ++ leBytes 3 (satAdd 24 (recErases r) 1) ++ [0] ++ leBytes 4 0
    ++ leBytes 2 0 ++ leBytes 2 0 ++ r.drop 28

/-- The record after a successful program (R226). -/
def recAfterProgram (r : List Byte) : List Byte := patch r 26 (leBytes 2 ((recProgPtr r + 1) % 65536))

/-- The record with BAD_GROWN set (R226). -/
def recGrown (r : List Byte) : List Byte := patch r 15 [byteAt r 15 ||| 2]

/-- Record and advice updates of a finished READ_PAGE (R223, R226, R227). -/
def stgReadDone (b : List Byte) (decoded : Bool) (corr used : Nat) (s : State) : BusRes × State :=
  let c := stgCh b
  let d := jobDie s b
  let trk := decoded && s.rb Reg.STG_CTRL 1
  let lim : Int := orOne (s.rf Reg.STG_TRK_CFG 6 0)
  let near := trk && used = 0 && s.rf Reg.STG_TRK_CFG 23 8 < corr
  let go (ent : Option (List Byte)) (s : State) : BusRes × State :=
    recUpdates c d (recAfterRead (grayMask s c (stgPage b)) lim ent near corr) (readAdvice s) (jobBlocks s b) s
  if trk && used ≠ 0 then
    match retryEntry used s with
    | (.ok e, s) => go (some e) s
    | x => x
  else go none s

/-- What the outcome of an STG job does to its block records and events (R223, R226, R227, R229, R236). `bad` is the
mask of planes whose program or erase failed. -/
def stgOutcome (b : List Byte) (o : Outcome) (bad : Nat) (s : State) : BusRes × State :=
  let c := stgCh b
  let d := jobDie s b
  let code := o.r3 % 65536
  let failing := (jobBlocks s b).filter fun k => nbit bad (k % 2 ^ planeBits s c)
  let s := if o.status = 4 && code = 0x8007 then stgEvent 5 s else s
  match eOp b with
  | 1 =>
    if o.status = 4 && code = 0x8008 then recUpdates c d recReadsOnly (readAdvice s) (jobBlocks s b) s
    else
      let s := if o.status = 8 && code = 0x8002 then stgEvent 4 s else s
      stgReadDone b (o.status = 0) o.r1 o.r2 s
  | 2 =>
    if o.status = 0 then recUpdates c d recAfterProgram (fun _ _ => []) (jobBlocks s b) s
    else if o.status = 8 && code = 0x8003 then recUpdates c d recGrown (fun _ _ => [3]) failing (stgEvent 2 s)
    else if o.status = 8 && code = 0x8005 then (.ok [], stgEvent 11 s)
    else if o.status = 8 && code = 0x8006 then (.ok [], stgEvent 12 s)
    else (.ok [], s)
  | 3 =>
    if o.status = 0 then
      recUpdates c d recAfterErase
        (fun r r' => if recErases r' ≠ recErases r && recErases r' = s.rf Reg.STG_WEAR_CFG 31 16 * 16 then [4] else [])
        (jobBlocks s b) s
    else if o.status = 8 && code = 0x8004 then recUpdates c d recGrown (fun _ _ => [3]) failing (stgEvent 3 s)
    else if o.status = 8 && code = 0x8005 then (.ok [], stgEvent 11 s)
    else (.ok [], s)
  | _ => (.ok [], s)

end Sys2Proof.Machine
end

