-- ==== Sys2Proof/Machine/Budget.lean ====
section
/-!
DEFINITION. Machine/Budget.lean: balances and charges of the budget arbiter (R430 to R432), and the heat limit of a WRITE
unit (R434).
-/

namespace Sys2Proof.Machine

open Sys2Proof

/-- Balance of function `f`, µJ (R430). -/
def balance (s : State) (f : Nat) : Int := (s.reg (Reg.BA_BAL f)).toInt

/-- The balance counts as positive (R431, R432). -/
def balanceOk (s : State) (f : Nat) : Bool := !s.rb Reg.BA_CTRL 0 || 0 < balance s f

/-- Set a balance. -/
def setBalance (f : Nat) (v : Int) (s : State) : State := s.setReg (Reg.BA_BAL f) (BitVec.ofInt 32 v)

/-- Charge a function (R431). -/
def charge (f uj : Nat) (s : State) : State := if uj = 0 then s else setBalance f (balance s f - uj) s

/-- Charge of one unit of an eft's job (Table "Charges"). -/
def unitCharge (s : State) (e op : Nat) : Nat :=
  if e < 4 then
    match op with
    | 1 | 3 | 4 => s.rf Reg.BA_COST_MED 7 0
    | 2 => s.rf Reg.BA_COST_MED 15 8
    | _ => 0
  else
    match op with
    | 1 => s.rf Reg.BA_COST_STG 7 0
    | 2 => s.rf Reg.BA_COST_STG 15 8
    | 3 => s.rf Reg.BA_COST_STG 31 16
    | _ => 0

/-- Head heat estimate and limit, raw 12.4 °C (R433, R434). -/
def headHeat (s : State) (x h : Nat) : Int := s.rs (Reg.BA_HEAT x h) 15 0
def headLimit (s : State) (x h : Nat) : Int := s.rs (Reg.BA_HEAD x h) 15 0

/-- R434: a WRITE unit of eft `e` may enter: HEAD_EN judges its head's heat, and ONE_WRITER, whatever HEAD_EN is (DEDUCED, log
entry 47), the other actuator's write run. -/
def heatOk (s : State) (e : Nat) (b : List Byte) : Bool :=
  let x := e / 2
  let cool := !s.rb Reg.BA_CTRL 3 || headHeat s x (medHead b) < headLimit s x (medHead b)
  let alone := !s.rb Reg.BA_CTRL 2 || !(med s (1 - x)).wr.run
  4 ≤ e || eOp b ≠ 2 || (cool && alone)

/-- The unit in an eft has waited to enter (R431, R434). -/
def waitedToEnter (s : State) (e : Nat) : Bool :=
  match (s.eft e).wait with
  | .enter _ => true
  | _ => false

/-- A unit's entry is judged (R431, R434): whether it may enter now, and HEAD_HEAT on a head's first wait after a unit of it
entered without having waited. -/
def mayEnter (e chg : Nat) (b : List Byte) (s : State) : Bool × State :=
  let h := (e / 2, medHead b)
  let budget := chg = 0 || balanceOk s (eftFunc e)
  if heatOk s e b then
    let s := if e < 4 && eOp b = 2 && budget && !waitedToEnter s e then
        { s with bud := { s.bud with heldHeads := s.bud.heldHeads.filter fun k => k ≠ h } } else s
    (budget, s)
  else
    if h ∈ s.bud.heldHeads then (false, s)
    else (false, raise 212 { s with bud := { s.bud with heldHeads := h :: s.bud.heldHeads } })

end Sys2Proof.Machine
end

