-- ==== Sys2Proof/Machine/Efts.lean ====
section
/-!
DEFINITION. Machine/Efts.lean: units of an eft: start, end, abandonment, restart and faults (R183 to R192).
-/

namespace Sys2Proof.Machine

open Sys2Proof

/-- The unit at its start in an eft enters (R431, R434): it is charged and runs, or it waits. -/
def enterUnit (e chg : Nat) (s : State) : State :=
  match (s.eft e).unit with
  | none => s
  | some u =>
    match mayEnter e chg u.job.entry s with
    | (true, s) => modEft e (fun x => { x with wait := .none }) (charge (eftFunc e) chg s)
    | (false, s) => modEft e (fun x => { x with wait := .enter chg }) s

/-- The efts whose units wait to enter are judged again, at a window, a model step or the end of a run; not a HELD one
(R192). -/
def retryEnter (s : State) : State :=
  (List.range 12).foldl (fun s e =>
    match (s.eft e).wait with
    | .enter c => if (s.eft e).st = .held then s else enterUnit e c s
    | _ => s) s

/-- The buffer sets of a channel that a job decoded no longer count: the job starts, from its entry (R185, R212). -/
def dropSets (e q first : Nat) (s : State) : State :=
  if e < 4 then s
  else modChan (e - 4) (fun c => { c with sets := c.sets.filter fun k => !(k.sq = q && k.first = first) }) s

/-- The buffer sets of a channel that a job's DECODEs left, newest first (R212). -/
def jobSets (s : State) (c q first : Nat) : List DecSet := (chan s c).sets.filter fun k => k.sq = q && k.first = first

/-- Codewords that the job in an eft has left failing, over its buffer sets (R229). -/
def jobFailing (s : State) (e : Nat) : Nat :=
  match (s.eft e).unit with
  | some u => (jobSets s (e - 4) u.job.sq u.job.first).foldl (fun m k => m ||| k.failing % 2 ^ 32) 0
  | none => 0

/-- A job, already charged, is dispatched to an eft: unit 0 starts (R178, R183). -/
def startEftJob (e q first : Nat) (entry : List Byte) (units : Nat) (s : State) : State :=
  let s := dropSets e q first s
  let u := EftUnit.start ⟨q, first, entry, units, 0⟩ 0 0 0 0
  enterUnit e 0
    (takeJob q first (modEft e (fun x => { x with st := .running, unit := some u, xfer := none, wait := .none }) s))

/-- The job in an eft ends with an outcome, `ended` its units that had ended, `bad` the planes whose program or erase
failed: block records (R226), the zone's write pointer (R270) and the datapath (R303) follow, then the eft is free. An
access that fails on the way ends the job as R165 states. -/
def eftJobDone (e ended bad : Nat) (o : Outcome) (s : State) : State :=
  match (s.eft e).unit with
  | none => s
  | some u =>
    let j := u.job
    if e < 4 then
      let s := freeEft e (medJobEnd e j.entry s)
      finishJob j.sq j.first o
        (zoneWriteEnd j.sq j.first (medPba j.entry % 2 ^ 17 + ended) (fun r s => failAccess j.sq j.first r s) s)
    else
      let (r, s) := stgOutcome j.entry o bad s
      let s := match r with
        | .ok _ => finishJob j.sq j.first o s
        | r => failAccess j.sq j.first r s
      freeEft e s

/-- The job in an eft ends because a data access failed (R165, R182). -/
def eftAccessFail (e : Nat) (r : BusRes) (s : State) : State :=
  match (s.eft e).unit with
  | none => s
  | some u =>
    let j := u.job
    let s := failAccess j.sq j.first r s
    if e < 4 then
      let s := freeEft e (medJobEnd e j.entry s)
      zoneWriteEnd j.sq j.first (medPba j.entry % 2 ^ 17 + j.unit) (fun _ s => s) s
    else freeEft e (if eOp j.entry = 1 then countRead j.entry s else s)

/-- RESULT3 of an ENGINE_FAIL completion (R191). -/
def engineDetail (code cause pc : Nat) : Nat := code + cause * 2 ^ 16 + pc * 2 ^ 32

/-- The last abandon's cause and PC (R191); a read of EFT_CAUSE does not clear them. -/
def lastCause (s : State) (e : Nat) : Nat := (s.eft e).lastCause
def lastPc (s : State) (e : Nat) : Nat := (s.eft e).lastPc

/-- Latch a cause, its PC and COMMITTED (R190, R191, R197). -/
def latchCause (e cause : Nat) (u : EftUnit) (s : State) : State :=
  let w := cause + u.pc * 2 ^ 16 + b2n u.committed * 2 ^ 31
  let s := if u.committed then s else modEft e (fun x => { x with lastCause := cause, lastPc := u.pc }) s
  let s := s.setReg (Reg.EFT_CAUSE e) (BitVec.ofNat 32 w)
  if 2 ≤ cause then s.bump (Reg.EFT_FAULTS e) else s

/-- Restarts allowed: 0 acts as 1 (R190). -/
def restartMax (s : State) (e : Nat) : Nat := orOne (s.rf (Reg.EFT_CTRL e) 7 4)

/-- An uncommitted unit is abandoned (R185, R190): it restarts from its entry, or ends the job where it has been
restarted RESTART_MAX times. -/
def abandonUnit (e cause : Nat) (s : State) : State :=
  match (s.eft e).unit with
  | none => s
  | some u =>
    let s := latchCause e cause u s
    if restartMax s e ≤ u.restarts then
      eftJobDone e u.job.unit 0 ⟨4, u.saved0, u.saved1, u.saved2, engineDetail 1 cause u.pc⟩ (eftAttn e 0 s)
    else
      let s := dropSets e u.job.sq u.job.first (releaseToken e (s.bump (Reg.EFT_RESTARTS e)))
      modEft e (fun x => { x with unit := some u.restart, xfer := none, wait := .none, passBreak := false }) s

/-- A committed fault (R188): EFT_ATTN.COMMITTED_FAULT and a function error, a second one before the bit is cleared too
(R529). -/
def committedFault (e : Nat) (s : State) : State :=
  if s.rb (Reg.EFT_ATTN e) 1 then functionError (eftFunc e) (eftSource e * 256 + 1) s else eftAttn e 1 s

/-- A fault of the unit (R185, R188): an uncommitted unit is abandoned; a committed one ends the job with
COMMITTED_FAULT. -/
def unitFault (e cause : Nat) (s : State) : State :=
  match (s.eft e).unit with
  | none => s
  | some u =>
    if u.committed then
      let s := latchCause e cause u s
      eftJobDone e u.job.unit 0 ⟨4, u.res0, u.res1, u.res2, engineDetail 2 cause u.pc⟩ (committedFault e s)
    else abandonUnit e cause s

/-- An abandon request of the datapath (R185, R188): it acts at once on an uncommitted unit, and is held over a
committed one that has a next unit. A HELD eft stays at its microword (R192). -/
def abandonRequest (e : Nat) (s : State) : State :=
  match (s.eft e).unit with
  | none => s
  | some u =>
    if (s.eft e).st = .held then s
    else if u.committed then
      if u.job.unit + 1 < u.job.units then modUnit e (fun u => { u with heldRequest := true }) s else s
    else abandonUnit e 1 s

/-- The present unit of a job ends successfully (R184): the zone's write pointer advances (R270), and the next unit
starts or the job completes. -/
def unitDone (e : Nat) (s : State) : State :=
  match (s.eft e).unit with
  | none => s
  | some u =>
    let j := u.job
    let go (s : State) : State :=
      if j.unit + 1 < j.units then
        let s := releaseToken e s
        let u' := EftUnit.start { j with unit := j.unit + 1 } u.res0 u.res1 u.res2 0
        let s := modEft e (fun x => { x with unit := some u', xfer := none, wait := .none }) s
        let s := if u.heldRequest then abandonRequest e s else s
        enterUnit e (unitCharge s e (eOp j.entry)) s
      else eftJobDone e (j.unit + 1) 0 ⟨0, u.res0, u.res1, u.res2, 0⟩ s
    match (if e < 4 then zoneWriteOf s j.sq j.first else none) with
    | some w => zoneUnitEnd w.act w.zone (w.start + j.unit) (med s w.act).wr.lastData (eftAccessFail e) go s
    | none => go s

/-- FAIL (R179, R184, R191, R229): the job ends with the status KIND selects; RES values of this run stand. -/
def unitFail (e kind code : Nat) (s : State) : State :=
  match (s.eft e).unit with
  | none => s
  | some u =>
    let x := e / 2
    let detail :=
      if kind = 0 then engineDetail code (lastCause s e) (lastPc s e)
      else if e < 4 then
        code + (if code / 256 = 0x81 then (med s x).wr.dac % 1024 * 2 ^ 16 else 0)
      else code + (if kind = 1 then jobFailing s e * 2 ^ 32 else 0)
    let left := if e < 4 || kind ≠ 1 then 0 else ((List.range 32).filter fun t => nbit (jobFailing s e) t).length
    let s := if left = 0 then s else s.bump (Reg.CH_CW_FAIL (e - 4)) left
    let status := if kind = 0 then 4 else if kind = 1 then 8 else 9
    let bad := if e < 4 then 0 else if (lun s (e - 4) (jobDie s u.job.entry)).fail then 15 else 0
    eftJobDone e u.job.unit bad ⟨status, u.res0, u.res1, u.res2, detail⟩ s

end Sys2Proof.Machine
end

