-- ==== Sys2Proof/Machine/WriteOps.lean ====
section
/-!
DEFINITION. Machine/WriteOps.lean: shared operations of the write path (spec/10): the preamp link (R285 to R289), run and
heater (R292, R293), the assist loop (R295 to R297), touchdown (R298, R299), and the end of a sector (R302).
-/

namespace Sys2Proof.Machine

open Sys2Proof

/-- A response frame is good: CRC, ACK and echoed ADDR (R286). -/
def palGood (addr : Nat) (f : BitVec 32) : Bool :=
  fld f 7 0 = palCrc f && bit f 31 && fld f 30 24 = addr

/-- Assist kind of MEDx_WR_CTRL, and the KIND of the ID word last read (R287, R288). -/
def wrKind (s : State) (x : Nat) : Nat := s.rf (Reg.MED_WR_CTRL x) 1 0
def idKind (s : State) (x : Nat) : Nat := (med s x).wr.pId % 4

/-- Band of a track (R292). -/
def bandOf (s : State) (x track : Nat) : Nat := min 15 (track / 2 ^ min 24 (s.rf (Reg.MED_WR_CFG x) 20 16))

/-- Fields of a head-band entry (Table "Head-band entry"). -/
def HeadBand.wi (e : HeadBand) : Nat := fld e.w0 6 0 + fld e.w0 12 8 * 256
def HeadBand.osDur (e : HeadBand) : Nat := fld e.w0 19 16
def HeadBand.precomp (e : HeadBand) : Nat := fld e.w0 27 24
def HeadBand.init (e : HeadBand) : Nat := fld e.w1 9 0
def HeadBand.max (e : HeadBand) : Nat := fld e.w1 25 16
def HeadBand.target (e : HeadBand) : Int := signed 16 (fld e.w2 15 0)
def HeadBand.win (e : HeadBand) : Nat := fld e.w2 31 16
def HeadBand.heatW (e : HeadBand) : Nat := fld e.w3 7 0
def HeadBand.heatR (e : HeadBand) : Nat := fld e.w3 15 8
def HeadBand.min (e : HeadBand) : Nat := fld e.w3 25 16

/-- The head-band entry that the store holds for head `h` and band `b`. -/
def hbEntry (s : State) (x h b : Nat) : HeadBand :=
  ⟨s.reg (Reg.MED_HB x h b 0), s.reg (Reg.MED_HB x h b 1), s.reg (Reg.MED_HB x h b 2), s.reg (Reg.MED_HB x h b 3)⟩

/-- Heater codes that the store holds for head `h` and band `b` (R449, R450). -/
def hbHeatW (s : State) (x h b : Nat) : Nat := (hbEntry s x h b).heatW
def hbHeatR (s : State) (x h b : Nat) : Nat := (hbEntry s x h b).heatR

/-- MEDx reads the entry of head `h` and band `b` (R292). -/
def readEntry (x h b : Nat) (s : State) : State :=
  modWr x (fun w => { w with entry := hbEntry s x h b, entryOf := some (h, b) }) s

/-- The entry is read again where head or band has changed since (R292). -/
def noteEntry (x h b : Nat) (s : State) : State := if (med s x).wr.entryOf = some (h, b) then s else readEntry x h b s

/-- An armed write sector ends with a status (R302): counters and events, the end of the run on a stop, and WDONE. -/
def sectorEnd (x wstat : Nat) (s : State) : State :=
  let w := (med s x).wr
  let waited := w.boundary
  let s := modWr x (fun w => { w with armed := none, gate := false, inField := false, wstat := wstat, wdone := true, unsafeRevs := 0,
                                      boundary := none }) s
  let s :=
    if wstat = 0 then s.bump (Reg.MED_WR_SECTORS x)
    else
      let s := endWriteRun x (wrEvent x 0 (s.bump (Reg.MED_WR_STOPS x)))
      let s := if 6 ≤ wstat || waited.isSome then wrEvent x 1 s else s
      if 6 ≤ wstat then s.setRb (Reg.MED_ASSIST_NOW x w.head) 15 true else s
  wakeEft w.armedBy 24 s

/-- A cause that drops the gate at once (R302): the armed sector ends, its track position left unreadable where the
gate was up; with no sector armed the run ends. -/
def stopNow (x wstat : Nat) (s : State) : State :=
  let w := (med s x).wr
  match w.armed with
  | some t => sectorEnd x wstat (if w.writing then diskPut x w.head t [] s else s)
  | none => endWriteRun x s

/-- A boundary cause (R302): it waits for the end of the armed sector; with none armed the run ends. -/
def stopAtEnd (x wstat : Nat) (s : State) : State :=
  let w := (med s x).wr
  match w.armed with
  | some _ => modWr x (fun w => { w with boundary := some (w.boundary.getD wstat) }) s
  | none => endWriteRun x s

/-- A link error (R286): writes whose response is still out are given up with the link (DESIGN CHOICE, log entry 53). -/
def linkError (x : Nat) (s : State) : State :=
  stopNow x 5 (wrEvent x 5 (modWr x (fun w => { w with linkUp := false, sent := [] }) s))

/-- Act on a FAULT word (R287, R289, Table "Write stop causes"). -/
def preampFault (x word : Nat) (s : State) : State :=
  let armed := (med s x).wr.armed.isSome
  let hard := nbit word 2 || nbit word 3 || nbit word 4 || nbit word 5
  let s := if hard then stopNow x 4 (wrEvent x 4 s) else s
  let hop (b wstat kind : Nat) (s : State) : State :=
    if nbit word b then
      if armed then (if wrKind s x = kind && (med s x).wr.armed.isSome then stopAtEnd x wstat s else s)
      else wrEvent x 1 s
    else s
  hop 1 8 2 (hop 0 7 1 s)

/-- The DATA bits that a control word names (R287, Table "Preamp control words"). -/
def palMask (addr : Nat) : Nat :=
  match addr with
  | 0 => 0xFFF3 | 1 => 0xF3 | 2 => 0x1F7F | 3 => 0xF | 4 => 0x3FF | 5 => 0xFF | 6 => 0x3FF | 7 => 0xFFFF | 8 => 0x3F
  | _ => 0

/-- What a good response leaves (R286, R287): the words the preamp holds, of the bits their words name; LINK_UP on a read of
ID; the action on a read of FAULT. -/
def palApply (x addr data : Nat) (s : State) : State :=
  let data := data &&& palMask addr
  match addr with
  | 0 => modWr x (fun w => { w with pId := data, linkUp := true }) s
  | 1 => modWr x (fun w => { w with pMode := data }) s
  | 2 => modWr x (fun w => { w with pWi := data }) s
  | 3 => modWr x (fun w => { w with pOs := data }) s
  | 4 => modWr x (fun w => { w with pAssist := data }) s
  | 5 => modWr x (fun w => { w with pHeater := data }) s
  | 8 => preampFault x data s
  | _ => s

/-- A transaction whose attempts are summarised: failed attempts are counted, a third one is a link error (R286). -/
def palSum (x addr : Nat) (o : PalObs) (s : State) : State :=
  let s := (palOut x (min 3 (o.fails + 1)) false addr 0 s).bump (Reg.MED_PAL_ERRORS x) o.fails
  if o.fails = 3 then linkError x s else palApply x addr o.data.toNat s

/-- The word the preamp holds for an address, as its responses said (R287). -/
def palHeld (w : Wr) (addr : Nat) : Nat :=
  match addr with
  | 1 => w.pMode
  | 2 => w.pWi
  | 3 => w.pOs
  | 4 => w.pAssist
  | 5 => w.pHeater
  | _ => 0

/-- The word last sent for an address: the newest write still unanswered, else the one the preamp holds. -/
def palLast (w : Wr) (addr : Nat) : Nat := ((w.sent.reverse.find? fun p => p.1 = addr).map Prod.snd).getD (palHeld w addr)

/-- MEDx sends a control word of its own over a link that is up; its response comes as a PAL_TRANSACTION (R286, R287). -/
def palSend (x addr data : Nat) (s : State) : State :=
  let d := data &&& palMask addr
  if (med s x).wr.linkUp then palOut x 1 true addr d (modWr x (fun w => { w with sent := w.sent ++ [(addr, d)] }) s) else s

/-- MODE word of a mode and head (R287). -/
def modeWord (mode head : Nat) : Nat := mode + head % 16 * 16

/-- Level of a raw sensor code (R296). -/
def assistLevel (s : State) (x code : Nat) : Int :=
  let i := code / 32
  let f : Int := code % 32
  let a := s.rs (Reg.MED_XFER x i) 15 0
  let b := s.rs (Reg.MED_XFER x (i + 1)) 15 0
  a + Int.tdiv ((b - a) * f) 32

/-- Seed of the assist DAC at the start of a run (R295); `idle`: the head's assist fell more than IDLE_MS ms ago. -/
def seedDac (s : State) (x h b : Nat) (idle : Bool) : Nat :=
  let now := Reg.MED_ASSIST_NOW x h
  let e := (med s x).wr.entry
  let fresh := s.rf now 13 10 ≠ b || s.rb now 15 || idle
  clampN e.min e.max (if fresh then e.init else s.rf now 9 0)

/-- The loop step of R297 at a strobe with AEN high, `code` the NFT reading. ASSIST is sent at every sampled strobe; a step of
the DAC is counted. -/
def assistStep (x code : Nat) (s : State) : State :=
  let w := (med s x).wr
  let h := w.runHead
  let e := w.entry
  let level := assistLevel s x code
  let err := level - e.target
  let dead : Int := s.rf (Reg.MED_ASSIST_LOOP x) 15 0
  let exc := if (e.win : Int) < err.natAbs then w.exc + 1 else 0
  let stop := orOne (s.rf (Reg.MED_ASSIST_LOOP x) 19 16) ≤ exc
  let loop := !stop && s.rb (Reg.MED_WR_CTRL x) 2
  let dac := if !loop then w.dac
    else if err < -dead && w.dac < e.max then w.dac + 1
    else if dead < err && e.min < w.dac then w.dac - 1 else w.dac
  let atLim := (dac = e.max && err < -dead) || (dac = e.min && dead < err)
  let n := if !loop then w.limit else if atLim then w.limit + 1 else 0
  let raise? := loop && atLim && orOne (s.rf (Reg.MED_ASSIST_LOOP x) 31 24) ≤ n && !w.limitRaised
  let now := Reg.MED_ASSIST_NOW x h
  let s := modWr x (fun w => { w with exc := exc, dac := dac, limit := n, limitRaised := w.limitRaised || raise? }) s
  let s := ((s.setRf now 31 16 (unsigned 16 level)).setRf now 9 0 dac).setRf now 13 10 w.runBand
  let s := if dac = w.dac then s else s.bump (Reg.MED_ASSIST_STEPS x)
  let s := if raise? then wrEvent x 2 s else s
  palSend x 4 dac (if stop then stopAtEnd x 6 s else s)

/-- Next baseline of the touchdown sensor (R298). -/
def tdNext (base e : Nat) : Nat := (clampI 0 65535 ((base : Int) + Int.tdiv ((e : Int) - base) 16)).toNat

/-- Touchdown detection at a strobe (R298): the streak, the baseline, and whether touchdown is declared. -/
def tdStep (s : State) (x e : Nat) : Nat × Option Nat × Bool :=
  let w := (med s x).wr
  match w.tdBase with
  | none => (0, some e, false)
  | some base =>
    let ratio := max 9 (s.rf (Reg.MED_TD_CFG x) 7 0)
    let n := if base * ratio < e * 8 then w.tdStreak + 1 else 0
    if orOne (s.rf (Reg.MED_TD_CFG x) 11 8) ≤ n then (0, some base, true) else (n, some (tdNext base e), false)

/-- Touchdown outside a sweep (R298): heater 0, gate and assist down, TOUCHDOWN. -/
def touchdown (x : Nat) (s : State) : State :=
  let s := modWr x (fun w => { w with touched := true }) (palSend x 5 0 s)
  stopNow x 3 (wrEvent x 3 s)

/-- No eft and no sweep holds the datapath token (R176, R299, R309). -/
def tokenIdle (s : State) (x : Nat) : Bool :=
  !(s.eft (2 * x)).owns && !(s.eft (2 * x + 1)).owns && (med s x).wr.sweep.isNone

/-- The datapath token can be taken: idle, and not claimed by a fly-height run whose boundary is forced (R448). -/
def tokenFree (s : State) (x : Nat) : Bool := tokenIdle s x && !s.cal.forced.contains (2 + x)

/-- Give a free token to an eft that waits for it, eft 0 first (R176); a HELD one stays at its microword (R192). -/
def grantToken (x : Nat) (s : State) : State :=
  let take (e : Nat) (s : State) : State := modUnit e EftUnit.next (modEft e (fun y => { y with owns := true, wait := .none }) s)
  let asks (e : Nat) : Bool := (s.eft e).wait = .token && (s.eft e).st ≠ .held
  if !tokenFree s x then s
  else if asks (2 * x) then take (2 * x) s
  else if asks (2 * x + 1) then take (2 * x + 1) s
  else s

/-- The band that the heater at rest goes by: that of the track the engine goes to (R292, R293; DEDUCED, log entry 53). -/
def restBand (s : State) (x : Nat) : Nat := bandOf s x ((med s x).sv.target / 4096).toNat

/-- A heater sweep starts with the word `v` of MEDx_TD_CTRL (R299). -/
def startSweep (x : Nat) (v : Word) (s : State) : State :=
  let h := fld v 27 24
  let s := s.setReg (Reg.MED_TD_CTRL x) ((v &&& 0x0F0FFFFF) ||| 0x80000000)
  let s := palSend x 1 (modeWord 1 h) s
  let s := palSend x 5 (fld v 7 0) s
  modWr x (fun w => { w with head := h, tdBase := none, tdStreak := 0, touched := false,
                             sweep := some ⟨h, fld v 7 0, 512 * orOne (fld v 19 16), 512⟩ }) s

/-- A heater sweep ends (R299): its result, the heater back at HEAT_R, the token released. -/
def sweepEnd (x : Nat) (found : Bool) (s : State) : State :=
  match (med s x).wr.sweep with
  | none => s
  | some p =>
    let base := (med s x).wr.tdBase.getD 0
    let v := (if found then p.code % 256 else 0) + b2n found * 2 ^ 8 + 2 ^ 9 + base % 65536 * 2 ^ 16
    let s := (s.setReg (Reg.MED_TD_RESULT x) (BitVec.ofNat 32 v)).setRb (Reg.MED_TD_CTRL x) 31 false
    let s := readEntry x p.head (restBand s x) s
    let s := palSend x 5 (med s x).wr.entry.heatR s
    let s := modWr x (fun w => { w with sweep := none, tdStreak := 0 }) s
    grantToken x s

/-- The sweep's heater rises by one code for REVS revolutions, or the sweep ends past MAX (R299). -/
def sweepRaise (x : Nat) (p : Sweep) (s : State) : State :=
  if s.rf (Reg.MED_TD_CTRL x) 15 8 ≤ p.code then sweepEnd x false s
  else
    let p' := { p with code := p.code + 1, left := 512 * orOne (s.rf (Reg.MED_TD_CTRL x) 19 16) }
    modWr x (fun w => { w with sweep := some p' }) (palSend x 5 (p'.code % 256) s)

/-- One strobe of a heater sweep, `e` the touchdown reading (R299): one revolution of baseline at START, then R298 with the
heater as its only action. -/
def sweepStep (x e : Nat) (s : State) : State :=
  match (med s x).wr.sweep with
  | none => s
  | some p =>
    if 0 < p.learn then
      let base := match (med s x).wr.tdBase with
        | none => e
        | some b => tdNext b e
      let p := { p with learn := p.learn - 1 }
      let s := modWr x (fun w => { w with tdBase := some base, sweep := some p }) s
      if p.learn = 0 then sweepRaise x p s else s
    else
      let (n, base, hit) := tdStep s x e
      let s := modWr x (fun w => { w with tdStreak := n, tdBase := base }) s
      if hit then sweepEnd x true s
      else if 1 < p.left then modWr x (fun w => { w with sweep := some { p with left := p.left - 1 } }) s
      else sweepRaise x p s

/-- The heater at a strobe (R293): HEAT_W once a slot waits for writing, HEAT_R once the run has ended. The strobe that
changes the heater counts as the first of those at HEAT_W; a run that has begun keeps its count. -/
def heaterStep (x : Nat) (s : State) : State :=
  let w := (med s x).wr
  if w.sweep.isSome || w.touched then s
  else
    let s := if w.begun then s else noteEntry x w.head (if w.heatW then w.runBand else restBand s x) s
    let e := (med s x).wr.entry
    let want := if w.heatW then e.heatW else e.heatR
    if palLast w 5 = want then modWr x (fun w => { w with preheat := if w.heatW then max 1 w.preheat + 1 else 0 }) s
    else palSend x 5 want (modWr x (fun w => { w with preheat := if w.heatW then (if w.begun then w.preheat else 1) else 0 }) s)

/-- Strobes completed at HEAT_W (R293): the strobe that changed the heater is not one of them. -/
def preheated (s : State) (x : Nat) : Bool := s.rf (Reg.MED_WR_CFG x) 11 8 + 1 ≤ (med s x).wr.preheat

end Sys2Proof.Machine
end

