-- ==== Sys2Proof/Machine/ServoOps.lean ====
section
/-!
DEFINITION. Machine/ServoOps.lean: shared operations of the servo engines (spec/13) and of the actuators' retract (R410).
-/

namespace Sys2Proof.Machine

open Sys2Proof

/-- MEDA has left service: MEDB stops following (R388). -/
def tandemBreak (x : Nat) (s : State) : State := tandemBreakBy raise x s

/-- The eft events RAMP_DONE and SETTLED (R384). -/
def wakeRamp (x : Nat) (s : State) : State := wakeEft (2 * x + 1) 29 (wakeEft (2 * x) 29 s)
def wakeSettled (x : Nat) (s : State) : State :=
  wakeEft (2 * x + 1) 28 (wakeEft (2 * x) 28 (modSv x (fun v => { v with settled := true }) s))

/-- The engine enters a state (R364), and RAMP_DONE wakes who waits for it. -/
def svEnter (x : Nat) (st : SvSt) (s : State) : State :=
  let t := svEnterBy raise x st s
  if (sv s x).st.onRamp && (sv s x).st ≠ st then wakeRamp x t else t

/-- Efts of an actuator with an uncommitted unit that waits for RDONE, WDONE or SETTLED are asked to abandon it
(R365). -/
def abandonWaiting (x : Nat) (s : State) : State :=
  [2 * x, 2 * x + 1].foldl (fun s e =>
    match (s.eft e).unit, (s.eft e).wait with
    | some u, .event ev _ => if !u.committed && (ev = 25 || ev = 24 || ev = 28) then abandonRequest e s else s
    | _, _ => s) s

/-- A servo fault (R364, R365): from states 1 to 5, or by a park request from any state but OFF and HELD. -/
def servoFault (x cause : Nat) (s : State) : State :=
  let v := sv s x
  if v.st = .off || v.st = .held || v.st = .fault then s
  else
    let s := parkDrive x (svEnter x .fault (modSv x (fun v => { svZero v with cause := cause }) s))
    let s := svEvent x 0 (s.bump (Reg.MED_SV_FAULTS x))
    traceOn x 2 (abandonWaiting x (stopNow x 2 s))

/-- A park request from FORCE_PARK_N, quench or power-loss detection (R307, R365, R386): both actuators, both engines. An armed
sector of an engine that faults ends with SERVO_FAULT; gate and assist are down in any case. -/
def parkAll (s : State) : State :=
  let one (x : Nat) (s : State) : State :=
    let s := servoFault x 5 s
    parkDrive x (if (med s x).wr.writing then stopNow x 2 s else endWriteRun x s)
  one 1 (one 0 s)

/-- Tail drop of MOT has asserted both park requests (R16, R20, R418): the engines fault as on every park request (R364), with
cause PARK_REQUEST (DEDUCED, log entry 22). -/
def parkDropped (s : State) : State := if s.fenced 6 then servoFault 1 5 (servoFault 0 5 s) else s

/-- MEDB follows MEDA (R388). -/
def following (s : State) (x : Nat) : Bool := x = 1 && s.rb (Reg.MED_SV_TANDEM 1) 31

/-- The engine takes no retarget in this state (R376). -/
def refusesTarget (v : Sv) : Bool :=
  v.st = .off || v.st = .loading || v.st = .unloading || v.st = .fault || v.st = .held

/-- A retarget arrives (R376, R388): the last of a wedge stands, and it acts at the next strobe. -/
def retarget (x : Nat) (t : Retarget) (s : State) : State :=
  if following s x then svEvent x 5 (s.bump (Reg.MED_SV_REFUSED x))
  else if refusesTarget (sv s x) then s.bump (Reg.MED_SV_REFUSED x)
  else modSv x (fun v => { v with latest := t, fresh := true, settled := false }) (s.bump (Reg.MED_SV_RETARGETS x))

/-- A read offset arrives (R376, R384). -/
def readOffset (x : Nat) (o : Int) (s : State) : State :=
  if refusesTarget (sv s x) then s.bump (Reg.MED_SV_REFUSED x)
  else modSv x (fun v => { v with roffset := clampI (-2048) 2048 o, fresh := true, settled := false })
    (s.bump (Reg.MED_SV_RETARGETS x))

/-- A retarget word: TRACK, SHINGLED, WRITE (R384, R393). -/
def wordTarget (w : Word) : Retarget := ⟨fld w 23 0, bit w 30, bit w 29⟩

/-- Effective target and whether the clamp acted (R376). -/
def effTarget (s : State) (x : Nat) (t : Retarget) (roff : Int) (head : Nat) : Int × Bool :=
  let h := Reg.MED_SV_HEAD x head
  let raw : Int := t.track * 4096 + roff + (if t.write then s.rs h 15 0 else 0)
    + (if t.write && t.shingled then s.rs h 31 16 else 0)
  let lo : Int := s.rf (Reg.MED_SV_MIN_TRACK x) 23 0 * 4096
  let hi : Int := s.rf (Reg.MED_SV_MAX_TRACK x) 23 0 * 4096 + 4095
  let c := clampI lo hi raw
  (c, c ≠ raw)

/-- The engine reports its actuator on track for a slot (R383). -/
def onTrack (s : State) (x : Nat) (track : Int) (write : Bool) : Bool :=
  let v := sv s x
  v.st = .tracking && v.base.track = track && v.base.write = write

/-- The retarget an RSECT or WSECT issues by itself (R383), where its track or flags differ from those of the retarget that
set the effective target. -/
def slotTarget (x : Nat) (t : Retarget) (s : State) : State :=
  let l := (sv s x).base
  if following s x || (l.track = t.track && l.write = t.write && (!t.write || l.shingled = t.shingled)) then s
  else retarget x t s

/-- SPIN_OK as the engines see it (R363). -/
def spinOk (s : State) : Bool := s.mot.spinOk

/-- FORCE_PARK_N stays asserted, as filtered (R569). -/
def forcePark (s : State) : Bool := !s.pwr.sif4.out

/-- FAULT_CLR takes effect (R364, R386): the engine leaves FAULT for OFF, and CAUSE, FE_COUNT and MISS_COUNT clear. -/
def clearFault (x : Nat) (s : State) : State := svEnter x .off (modSv x (fun v => { v with cause := 0, fe := 0, miss := 0 }) s)

/-- RAMP_OFF (R363, R384, R569): a load with its initial retarget. -/
def rampOff (x : Nat) (t : Retarget) (s : State) : State :=
  if (sv s x).st = .off && spinOk s && !forcePark s then
    let s := modAct x (fun a => { a with retDone := false, latched := false }) s
    svEnter x .loading (modSv x (fun v => { v with latest := t, fresh := true, rampDone := false, settled := false }) s)
  else s.bump (Reg.MED_SV_REFUSED x)

/-- The power die reports the ramp latched (R364, R385, R410): an unload ends. -/
def rampLatched (x : Nat) (s : State) : State :=
  let s := modAct x (fun a => { a with latched := true }) s
  if (sv s x).st = .unloading then svEnter x .off (modSv x svZero s) else s

/-- RAMP_ON (R384): an unload. -/
def rampOn (x : Nat) (s : State) : State :=
  if (sv s x).st = .tracking then
    svEnter x .unloading (modSv x (fun v => { v with driving := false, rampDone := false, settled := false }) s)
  else s.bump (Reg.MED_SV_REFUSED x)

end Sys2Proof.Machine
end

