-- ==== Sys2Proof/Machine/WritePorts.lean ====
section
/-!
DEFINITION. Machine/WritePorts.lean: the write-path eft ports (R300) as operations, and the passes and ends of an armed
sector (R301, R302).
-/

namespace Sys2Proof.Machine

open Sys2Proof

/-- First entry of the job in eft `e`. -/
def eftEntry (s : State) (e : Nat) : List Byte :=
  match (s.eft e).unit with
  | some u => u.job.entry
  | none => []

/-- WHEAD: head `h` is selected and MODE write-ready sent (R300); the touchdown baseline starts again at a change of head
(R298). -/
def whead (x h : Nat) (s : State) : State :=
  palSend x 1 (modeWord 3 h)
    (modWr x (fun w => { w with head := h, tdBase := if w.head = h then w.tdBase else none, tdStreak := 0 }) s)

/-- A slot is loaded for writing (R274, R300): the heater is wanted at HEAT_W (R293), and the servo follows (R383). -/
def wsectLoad (x : Nat) (t : Sect) (s : State) : State :=
  let b := bandOf s x t.track
  let s := modWr x (fun w =>
    { w with loaded := some t, heatW := true, preheat := if w.heatW then w.preheat else 0,
             runHead := if w.run then w.runHead else w.head, runBand := if w.run then w.runBand else b }) s
  slotTarget x ⟨t.track, true, t.shingled⟩ s

/-- WSECT on eft `e` (R300): slot of the job's zone. -/
def wsect (e slot : Nat) (s : State) : State :=
  withSect (medZone (eftEntry s e)) slot (eftAccessFail e) (fun t s => wsectLoad (e / 2) t s) s

/-- WPARITY (R300): the loaded slot takes parity sector `j`. -/
def wparity (x j : Nat) (s : State) : State :=
  modWr x (fun w => { w with loaded := w.loaded.map fun t => { t with parity := some j } }) s

/-- The entry is read at the first ARM of a run and at each change of head or band; WRITE_I and WRITE_OS are sent where
they differ from what the preamp holds (R292). -/
def useEntry (x h b : Nat) (s : State) : State :=
  let s := readEntry x h b (modWr x (fun w => { w with runHead := h, runBand := b }) s)
  let e := (med s x).wr.entry
  let s := if palLast (med s x).wr 2 = e.wi then s else palSend x 2 e.wi s
  if palLast (med s x).wr 3 = e.osDur then s else palSend x 3 e.osDur s

/-- ARM by eft `e` (R286, R288, R300): the loaded slot is armed; a KIND that differs ends it with PREAMP_FAULT, a link
that is down with LINK_ERROR (DEDUCED, log entry 20). The heater is wanted at HEAT_W where an earlier run's end took it
from the loaded slot (R293). -/
def arm (e : Nat) (s : State) : State :=
  let x := e / 2
  let w := (med s x).wr
  match w.loaded with
  | none => s
  | some t =>
    let s := modWr x (fun w => { w with armed := some t, armedBy := e, wdone := false, unsafeRevs := 0,
                                        boundary := none, gate := false, inField := false }) s
    if idKind s x ≠ wrKind s x then sectorEnd x 4 (wrEvent x 4 (wrEvent x 7 s))
    else if !w.linkUp then sectorEnd x 5 s
    else
      let b := bandOf s x t.track
      let s := if w.run && w.runHead = w.head && w.runBand = b then s else useEntry x w.head b s
      let s := modWr x (fun w => { w with heatW := true, preheat := if w.heatW then w.preheat else 0 }) s
      if w.run then s else modWr x (fun w => { w with run := true, exc := 0, limit := 0, touched := false }) s

/-- The assist rises with the first gate of a run, its DAC seeded (R294, R295). -/
def startAssist (x : Nat) (idle : Bool) (s : State) : State :=
  let w := (med s x).wr
  if w.aen || wrKind s x = 0 then s
  else
    let h := w.runHead
    let b := w.runBand
    let dac := seedDac s x h b idle
    let now := Reg.MED_ASSIST_NOW x h
    let s := ((s.setRf now 9 0 dac).setRf now 13 10 b).setRb now 15 false
    palSend x 4 dac (modWr x (fun w => { w with aen := true, dac := dac, exc := 0, limit := 0 }) s)

/-- Data of the armed sector: 4,160 bytes of the FIFO, or a parity sector of the zone's context (R290); none where the
FIFO does not hold the block. -/
def armedData (s : State) (x : Nat) (t : Sect) : Option (List Byte) :=
  match t.parity with
  | some j => some (paritySector (((ctxOf s x t.zone).map Ctx.parity).getD noParity) j)
  | none => let f := (med s x).wr.fifo; if f.length < 4160 then none else some (f.take 4160)

/-- The keeper has released the arming of the job on eft `e` (R270): its record says so, or its zone is conventional. -/
def releasedFor (s : State) (e : Nat) : Bool :=
  match (s.eft e).unit with
  | none => false
  | some u =>
    match zoneWriteOf s u.job.sq u.job.first with
    | some w => w.released
    | none => true

/-- The bits of a sector in the order WD carries them: preamble, sync mark, codeword and pad (R290, R337, R338). -/
def sectorBits (data : List Byte) : List Bool :=
  let twoT (n : Nat) : List Bool := (List.range n).map fun i => i % 4 < 2
  twoT 128 ++ syncMark ++ bitsOf (encodeSector data) ++ twoT 32

/-- Levels of bit cells with the delay of each cell's transition (R291): `p` / 32 of a cell where the cell before held a
transition too. `level` and `moved` are the cell before. -/
def precomp (p : Nat) : Bool → Bool → List Bool → List (Bool × Nat)
  | _, _, [] => []
  | level, moved, b :: bs =>
    let t := b != level
    (b, if t && moved then p else 0) :: precomp p b t bs

/-- The write data of a sector with the entry's PRECOMP. -/
def writeData (p : Nat) (data : List Byte) : List (Bool × Nat) := precomp p true false (sectorBits data)

/-- The gate rises on an armed sector, and its bits go to WD (R290, R291, R294, R301). -/
def gateUp (x : Nat) (t : Sect) (data : List Byte) (idle : Bool) (s : State) : State :=
  let s := startAssist x idle s
  modWr x (fun w => { w with gate := true, inField := false, begun := true, wd := writeData w.entry.precomp data, lastData := data,
                             fifo := if t.parity.isSome then w.fifo else w.fifo.drop 4160 }) s

/-- The armed sector's position arrives (R301). -/
def armedPass (x : Nat) (t : Sect) (idle : Bool) (s : State) : State :=
  let w := (med s x).wr
  match armedData s x t with
  | none => wrEvent x 6 s
  | some data =>
    if idKind s x ≠ wrKind s x || !(w.begun || preheated s x) || !releasedFor s w.armedBy || !w.linkUp || s.fenced 6 then s
    else if onTrack s x t.track true && !(sv s x).wus then gateUp x t data idle s
    else
      let n := w.unsafeRevs + 1
      if orOne (s.rf (Reg.MED_WR_CFG x) 3 0) ≤ n then sectorEnd x 1 s
      else modWr x (fun w => { w with unsafeRevs := n }) s

/-- A position passes with no sector armed: the run ends (R294), and where it is that of a slot an uncommitted unit has
loaded, the unit is asked to abandon (R301). -/
def unarmedPass (x : Nat) (mine : Bool) (s : State) : State :=
  let lost := mine && (med s x).wr.loaded.isSome
  let s := if (med s x).wr.run then endWriteRun x s else s
  if lost then
    [2 * x, 2 * x + 1].foldl (fun s e =>
      match (s.eft e).unit with
      | some u => if (s.eft e).owns && !u.committed then abandonRequest e s else s
      | none => s) s
  else s

/-- The end of the armed sector's position with the gate up (R302): it has been written to its end. A boundary cause that waits
makes it count as stopped, and in a conventional zone it reads back as unrecovered until it is written again (R306). -/
def writtenEnd (x : Nat) (s : State) : State :=
  let w := (med s x).wr
  match w.armed with
  | none => s
  | some t =>
    if w.writing then sectorEnd x (w.boundary.getD 0)
        (diskPut x w.head t (if w.boundary.isSome && !t.shingled then [] else encodeSector w.lastData) s) else s

end Sys2Proof.Machine
end

