-- ==== Sys2Proof/Machine/ReadPorts.lean ====
section
/-!
DEFINITION. Machine/ReadPorts.lean: the read and recovery eft ports (R333, R348) as operations, the pass of an armed
sector, its outcome, offline work and the rebuild engine (spec/11, spec/12).
-/

namespace Sys2Proof.Machine

open Sys2Proof

/-- RHEAD (R313, R333): a head is selected, MODE read sent, and a new run starts. -/
def rhead (x h : Nat) (s : State) : State :=
  let s := modRc x (fun r => { r with head := h, band := none, run := false }) (endReadRun x s)
  palSend x 1 (modeWord 2 h)
    (modWr x (fun w => { w with head := h, tdBase := if w.head = h then w.tdBase else none, tdStreak := 0 }) s)

/-- A slot is loaded for reading, and the servo follows (R274, R333, R383). -/
def rsectLoad (x : Nat) (t : Sect) (s : State) : State :=
  slotTarget x ⟨t.track, false, false⟩ (modRc x (fun r => { r with loaded := some t }) s)

/-- RSECT on eft `e` (R333). -/
def rsect (e slot : Nat) (s : State) : State :=
  withSect (medZone (eftEntry s e)) slot (eftAccessFail e) (fun t s => rsectLoad (e / 2) t s) s

/-- Fields of a head-band read entry (Table "Head-band read entry"); the weight of a reader not enabled is 0 (R322). -/
def ReadBand.rate (e : ReadBand) : Nat := fld e.w0 12 0
def ReadBand.tgt (e : ReadBand) : Nat := fld e.w0 19 16
def ReadBand.readers (e : ReadBand) : Nat := fld e.w0 21 20
def ReadBand.wt1 (e : ReadBand) : Nat := if nbit e.readers 0 then fld e.w0 27 24 else 0
def ReadBand.wt2 (e : ReadBand) : Nat := if nbit e.readers 1 then fld e.w0 31 28 else 0
def ReadBand.gain (e : ReadBand) : Nat := fld e.w1 7 0
def ReadBand.agc (e : ReadBand) : Nat := fld e.w1 13 8
def ReadBand.delay (e : ReadBand) : Nat := fld e.w2 8 0
def ReadBand.freq (e : ReadBand) : Int := signed 16 (fld e.w2 31 16)

/-- The read entry that the store holds for head `h` and band `b`. -/
def rhEntry (s : State) (x h b : Nat) : ReadBand :=
  ⟨s.reg (Reg.MED_RHB x h b 0), s.reg (Reg.MED_RHB x h b 1), s.reg (Reg.MED_RHB x h b 2), s.reg (Reg.MED_RHB x h b 3)⟩

/-- Coefficients and predictor taps that the stores hold (R322, R336). -/
def eqStore (s : State) (x h b : Nat) : List Int :=
  (List.range 64).map fun i => s.rs (Reg.MED_EQ x h b (i / 2)) (16 * (i % 2) + 9) (16 * (i % 2))
def npStore (s : State) (x h : Nat) : List Int :=
  (List.range 48).map fun i => s.rs (Reg.MED_NP x h (i / 4)) (8 * (i % 4) + 7) (8 * (i % 4))

/-- Taps of a target set for output 1 or 2 (R323). -/
def tgtTaps (s : State) (x t n : Nat) : List Int :=
  ((List.range 4).map fun i => s.rs (Reg.MED_TGT x t (2 * n)) (8 * i + 7) (8 * i)) ++ [s.rs (Reg.MED_TGT x t (2 * n + 1)) 7 0]

/-- The channel configuration refuses an arming (R312). -/
def rarmRefused (s : State) (x : Nat) (e : ReadBand) : Bool :=
  e.rate < 1000 || 6400 < e.rate || e.readers = 0 || (e.wt1 = 0 && e.wt2 = 0)
    || (tgtTaps s x e.tgt 0 ++ tgtTaps s x e.tgt 1).all fun g => g = 0

/-- What detection goes by with an entry, a target set, coefficients and predictor taps (R322 to R326). -/
def detCfg (s : State) (x : Nat) (e : ReadBand) (t : Nat) (eq np : List Int) : DetCfg :=
  let c := Reg.MED_RC_CFG x
  { eq := eq, g1 := tgtTaps s x t 0, g2 := tgtTaps s x t 1, np := np, eqMain := s.rf c 19 16, readers := e.readers,
    w1 := e.wt1, w2 := e.wt2, scale := s.rf c 15 12, norm := 4 + min 4 (s.rf c 10 8), locals := orOne (s.rf c 3 0),
    globals := min 4 (orOne (s.rf c 6 4)) }

/-- PBA of a loaded slot (R262). -/
def sectPba (t : Sect) : Nat := t.zone * 2 ^ 17 + t.slot

/-- Slot `k` of the sample buffer. -/
def slotOf (r : Sr) (k : Nat) : Sample := if k = 0 then r.slot0 else r.slot1

/-- Change slot `k`. -/
def modSlot (x k : Nat) (f : Sample → Sample) (s : State) : State :=
  modSr x (fun r => if k = 0 then { r with slot0 := f r.slot0 } else { r with slot1 := f r.slot1 }) s

/-- A slot is pinned, and held by offline work (R344). -/
def slotPinned (s : State) (x k : Nat) : Bool := s.rb (Reg.MED_SR_PIN x) k
def slotHeld (s : State) (x k : Nat) : Bool := (med s x).sr.offline.any fun o => o.slot = k

/-- The slot a new sector takes (R344). -/
def pickSlot (s : State) (x : Nat) : Option Nat :=
  let free (k : Nat) : Bool := !slotPinned s x k && !slotHeld s x k
  let o := (med s x).sr.older
  if free o then some o else if free (1 - o) then some (1 - o) else none

/-- The rebuild engine accumulates a decoded slot of its group once (R354). -/
def rebuildTake (x : Nat) (t : Sect) (data : List Byte) (s : State) : State :=
  modSr x (fun r => { r with rebuild := r.rebuild.map fun b =>
    if b.zone = t.zone && b.group = t.slot / 264 && t.shingled && !(b.have_.any fun h => h.1 = t.slot % 264) then
      { b with have_ := b.have_ ++ [(t.slot % 264, data)] }
    else b }) s

/-- The sample slot of a sector takes what is kept with it (R343), unless a later sector is being written over it. -/
def keepSamples (x : Nat) (p : ReadPass) (outcome sw : Nat) (s : State) : State :=
  let a := p.arm
  match a.sample with
  | some k =>
    if outcome ≤ 4 && !((med s x).rc.decoding.any fun q => a.seq < q.arm.seq && q.arm.sample = some k) then
      modSlot x k (fun _ => ⟨true, a.pba, a.head, a.band, a.entry.tgt, outcome, sw, p.sync, p.ranges, p.x1, p.x2⟩) s
    else s
  | none => s

/-- The outcome of an armed sector becomes known (R327, R333, R343): counters and events, the sample slot, no data in the
FIFO where it did not decode, and for the last armed sector RSTAT, RERASED and RDONE. -/
def finishRead (x : Nat) (p : ReadPass) (outcome globals sw : Nat) (s : State) : State :=
  let e := (med s x).rc.armedBy
  let sw := if globals = 0 then 0 else sw
  let rstat := outcome + p.flags * 2 ^ 4 + globals * 2 ^ 12 + sw * 2 ^ 16
  let last := p.arm.seq = (med s x).rc.seq
  let s := modRc x (fun r => if last then
    { r with rstat := BitVec.ofNat 32 rstat, rdone := true,
             rerased := BitVec.ofNat 32 (min 65535 p.erased + p.ranges.length * 2 ^ 16) } else r) s
  let s := if outcome = 0 then s.bump (Reg.MED_RC_SECTORS x)
    else modRc x (fun r => { r with out := [] }) (s.bump (Reg.MED_RC_FAILS x))
  let s := s.bump (Reg.MED_RC_ITER x) (globals - 1)
  let s := s.bump (Reg.MED_RC_ERASED x) p.erased
  let s := match outcome with
    | 1 => rcEvent x 1 s
    | 2 => rcEvent x 0 s
    | 3 => srEvent x 0 (s.bump (Reg.MED_SR_SYNC_MISS x))
    | 4 => rcEvent x 2 s
    | _ => s
  let s := keepSamples x p outcome sw s
  if last then wakeEft e 25 s else s

/-- A reader has no spare left (R315). -/
def adcDegraded (s : State) (x : Nat) : Bool := (med s x).rc.degraded1 || (med s x).rc.degraded2

/-- A pass that never happened, for outcomes at arming: of RSTAT's flags only ADC_DEGRADED (R315). -/
def noPass (s : State) (x : Nat) (a : ReadArm) : ReadPass :=
  ⟨a, b2n (adcDegraded s x) * 2 ^ 5, 0, [], 0, [], [], detCfg s x a.entry 0 [] []⟩

/-- The stores' values of the head and band in use come into use (R322, R332). -/
def loadStores (x h b : Nat) (s : State) : State :=
  modRc x (fun r => { r with eq := eqStore s x h b, np := npStore s x h }) s

/-- The entry of a head and band comes into use (R310, R313, R320, R322): the run before is written back. -/
def loadEntry (x h b : Nat) (s : State) : State :=
  let s := endReadRun x s
  let e := rhEntry s x h b
  loadStores x h b (modRc x (fun r => { r with run := true, band := some b, entry := e, gain := e.gain, freq := e.freq, theta := 0,
                                                eqLimit := false }) s)

/-- RARM by eft `e` (R286, R310, R312, R333, R342, R344): the slot for the samples is selected whatever the outcome. -/
def rarm (e : Nat) (s : State) : State :=
  let x := e / 2
  match (med s x).rc.loaded with
  | none => s
  | some t =>
    let h := (med s x).rc.head
    let b := bandOf s x t.track
    let k := pickSlot s x
    let n := (med s x).rc.seq + 1
    let s := modRc x (fun r => { r with armedBy := e, seq := n, rdone := false, armed := none }) s
    let s := modSr x (fun r => { r with lastSlot := k.getD r.lastSlot, lastKept := false }) s
    let s := if k.isSome then s else srEvent x 2 s
    let arm (s : State) : ReadArm := ⟨n, t, sectPba t, h, b, (med s x).rc.entry, s.rf (Reg.MED_SR_SYNC x) 2 0,
      s.rf (Reg.MED_SR_SYNC x) 11 8, k, distrustPba s x = some (sectPba t)⟩
    if !(med s x).wr.linkUp then finishRead x (noPass s x (arm s)) 5 0 0 s
    else
      let s := if (med s x).rc.band = some b then s else loadEntry x h b s
      if rarmRefused s x (med s x).rc.entry then finishRead x (noPass s x (arm s)) 6 0 0 (rcEvent x 7 s)
      else modRc x (fun r => { r with armed := some (arm s) }) (modSr x (fun r => { r with lastKept := k.isSome }) s)

/-- Settings of the defect detector (R329, R330). -/
def defCfg (s : State) (x : Nat) (e : ReadBand) : DefCfg :=
  let d := Reg.MED_RC_DEF1 x
  let q := Reg.MED_RC_DEF2 x
  ⟨s.rf d 6 0, orOne (s.rf d 11 8), s.rf d 15 12, orOne (s.rf d 23 16), e.agc, s.rf q 7 0, s.rf q 15 8, s.rf q 27 16⟩

/-- What a pass decides before any codeword is taken: the samples, the reader flags and holds, gain and phase. -/
structure Acquired where
  x1 : List Int
  x2 : List Int
  /-- Samples and masks of the enabled readers, and their defect flags. -/
  xs : List (List Int × Nat)
  flags : List (List Bool)
  hold : List (Nat × Nat)
  gain : Nat
  limited : Bool
  /-- Phase after the zero-phase step of bit 48. -/
  theta : Int
  cfg : DetCfg
  def_ : DefCfg

/-- The acquisition of a sector up to bit 48 (R311, R313, R317, R329, R330). -/
def acquire (s : State) (x : Nat) (a : ReadArm) (o : SectorObs) : Acquired :=
  let r := (med s x).rc
  let e := a.entry
  let x1 := delayed e.delay (adcCodes o.x1)
  let x2 := delayed 0 (adcCodes o.x2)
  let xs := (if nbit e.readers 0 then [(x1, 1)] else []) ++ (if nbit e.readers 1 then [(x2, 2)] else [])
  let agc := Reg.MED_RC_AGC x
  let dc := defCfg s x e
  let flags := if s.rb (Reg.MED_RC_CTRL x) 2 then xs.map (fun p => defectFlags dc p.1) else []
  let hold := holdRanges dc flags
  let (g, l) := gainAcquire e.agc (s.rf agc 3 0) hold (xs.map Prod.fst) r.gain
  let (i, q) := zpsSums (xs.map fun p => (p.1, if p.2 = 1 then e.wt1 else e.wt2))
  ⟨x1, x2, xs, flags, hold, g, l, r.theta + zpsSteps i q * 2 ^ 14, detCfg s x e e.tgt r.eq r.np, dc⟩

/-- Gains of the phase loop, with the first bit behind the accepted mark (R318, R319). -/
def loopCfg (s : State) (x : Nat) (cw : Option Nat) : LoopCfg :=
  let t := Reg.MED_RC_TIMING x
  ⟨s.rf t 3 0, s.rf t 7 4, s.rf t 11 8, s.rf t 15 12, s.rf (Reg.MED_RC_TIMING2 x) 15 0, cw⟩

/-- A flag falls into the first `n` bits (R329). -/
def preFlag (flags : List (List Bool)) (n : Nat) : Bool := flags.any fun f => ((f.drop 16).take n).any id

/-- Timing errors of bits 48 to 96, against the known preamble (R317). -/
def lockTaus (q : Acquired) (unit : Nat) : List Int := timingErrors q.cfg unit (preambleBits.take 49) q.x1 q.x2

/-- Timing errors of a whole pass, against the preamble, then against the tentative decisions (R318). -/
def passTaus (q : Acquired) (unit : Nat) : List Int :=
  timingErrors q.cfg unit (preambleBits ++ (tentative q.cfg 37071 q.x1 q.x2).drop 80) q.x1 q.x2

/-- Tentative decisions of bits 121 to 182 (R339). -/
def syncBits (q : Acquired) : List Bool := (tentative q.cfg 182 q.x1 q.x2).drop 73

/-- The sample slot of a passing sector is written from its first bit on (R344). -/
def takeSlot (x : Nat) (a : ReadArm) (s : State) : State :=
  match a.sample with
  | some k => modSr x (fun r => { r with older := 1 - k }) (modSlot x k (fun v => { v with valid := false }) s)
  | none => s

/-- What the data field of a pass gives (R313, R329, R330): the sector as it joins the decoder, and the gain at its end. `flags`
are those known beside it. -/
def passData (s : State) (x : Nat) (a : ReadArm) (q : Acquired) (c : Nat) (word : Word) (flags : Nat) : ReadPass × Nat :=
  let agc := Reg.MED_RC_AGC x
  let rs := defectRanges q.def_ c (s.rb (Reg.MED_RC_CTRL x) 3) (q.flags.zip (q.xs.map Prod.snd))
  let erased := rs.foldl (fun n r => if r.one then n else n + (r.last + 1 - r.first)) 0
  let (g, l) := dataGain (s.rf agc 21 16) (s.rf agc 11 8) (q.xs.map Prod.fst) q.hold c q.gain
  let fl := flags + b2n (rs.any Range.one) * 2 + b2n (rs.any fun r => !r.one) * 4 + b2n (q.limited || l) * 16
  (⟨a, fl, erased, rs, word, q.x1, q.x2, q.cfg⟩, g)

/-- The armed sector passes with the head on track (R311, R313, R317 to R321, R329, R330, R339 to R341, R343, R344): its gain and
phase are acquired, lock and sync decided, its ranges found. NO_LOCK and NO_SYNC are known at once; otherwise its decoding
starts. -/
def readPass (x : Nat) (a : ReadArm) (o : SectorObs) (s : State) : State :=
  let q := acquire s x a o
  let f0 := (med s x).rc.freq
  let deg := b2n (adcDegraded s x) * 2 ^ 5
  let s := modRc x (fun r => { r with armed := none, written := [] }) (takeSlot x a s)
  match lockBit (s.rf (Reg.MED_RC_TIMING x) 23 16) (lockTaus q o.unit) with
  | none =>
    let (theta, f) := phaseLoop (loopCfg s x none) q.hold 48 (lockTaus q o.unit) (q.theta, f0)
    let s := modRc x (fun r => { r with gain := q.gain, theta := theta, freq := f, locked := false, synced := false }) s
    let s := modSr x (fun r => { r with sync := 0 }) s
    finishRead x ⟨a, b2n (preFlag q.flags 97) + b2n q.limited * 2 ^ 4 + deg, 0, [], 0, q.x1, q.x2, q.cfg⟩ 2 0 0 s
  | some _ =>
    let acc := acceptSync a.win a.thr (syncBits q)
    let cw := acc.map fun p => (176 + p.1).toNat
    let taus := passTaus q o.unit
    let pre := preFlag q.flags (cw.getD 176)
    let (theta, f) := phaseLoop (loopCfg s x cw) q.hold 48 taus (q.theta, f0)
    let word := syncWord acc (syncBits q)
    let s := modSr x (fun r => { r with sync := word }) s
    match cw with
    | none =>
      let s := modRc x (fun r => { r with gain := q.gain, theta := theta, freq := f, locked := true, synced := false }) s
      finishRead x ⟨a, b2n pre + b2n q.limited * 2 ^ 4 + deg, 0, [], word, q.x1, q.x2, q.cfg⟩ 3 0 0 s
    | some c =>
      let slip := slipSeen (s.rf (Reg.MED_RC_TIMING2 x) 23 16) c taus
      let d := passData s x a q c word (b2n pre + b2n slip * 8 + deg)
      let s := modRc x (fun r => { r with gain := d.2, theta := theta, freq := f, locked := true, synced := true,
                                          decoding := r.decoding ++ [d.1] }) s
      if slip then rcEvent x 3 (s.bump (Reg.MED_RC_SLIPS x)) else s

/-- First codeword bit of a sector with a SYNC word's accepted offset. -/
def syncStart (w : Word) : Nat := (176 + signed 4 (fld w 7 4)).toNat

/-- A decoded sector adds to the statistics of its head and band (R331): `bits` are its codeword. -/
def gatherStats (x : Nat) (p : ReadPass) (bits : List Bool) (s : State) : State :=
  let key := (p.arm.head, p.arm.band)
  let (g, k) := sectorStats p.cfg p.x1 p.x2 bits (syncStart p.sync) p.ranges
  let add (old new : List Int) : List Int :=
    if old.isEmpty then new else List.zipWith (fun a b => clampI (-(2 ^ 23)) (2 ^ 23) (a + b)) old new
  modRc x (fun r =>
    let same := r.statOf = some key
    { r with statOf := some key, statG := add (if same then r.statG else []) g,
             statH := add (if same then r.statH else []) k }) s

/-- How the codeword of a passed sector decodes (R324 to R327). -/
def passDecode (p : ReadPass) (tie : Bool) : DecRes := decodeSector p.cfg (syncStart p.sync) p.x1 p.x2 p.ranges tie

/-- The oldest sector in the decoder ends (R326, R327, R331, R350, R354): an uncorrectable word of the LDPC buffer leaves it not
decoded (R468), and so does distrust. -/
def readOutcome (x : Nat) (o : OutcomeObs) (s : State) : State :=
  match (med s x).rc.decoding with
  | [] => s
  | p :: rest =>
    let (bad, s) := bufferUpsets (4 + x) (2 + x) o.ldpc (modRc x (fun r => { r with decoding := rest }) s)
    let d := passDecode p o.tie
    if d.ok && !bad && !p.arm.distrust then
      if o.fifoFull then finishRead x p 4 d.globals d.sw s
      else
        let data := dataBytes d.bits
        let s := modRc x (fun r => { r with out := data }) (gatherStats x p d.bits s)
        finishRead x p 0 d.globals d.sw (rebuildTake x p.arm.sect data s)
    else finishRead x p 1 d.globals d.sw s

/-- SSLOT (R348). -/
def sslotWord (r : Sr) : Nat := r.lastSlot % 2 + b2n r.lastKept * 2

/-- SPIN (R345): PIN of slot S[0] becomes S[1]. -/
def spin (x : Nat) (v : Word) (s : State) : State := s.setRb (Reg.MED_SR_PIN x) (fld v 0 0) (bit v 1)

/-- An OSTAT word (R348). -/
def ostatWord (outcome globals sw : Nat) (rs : List Range) : Word :=
  BitVec.ofNat 32 (outcome + b2n (rs.any Range.one) * 2 ^ 5 + b2n (rs.any fun r => !r.one) * 2 ^ 6 + globals * 2 ^ 12
    + sw * 2 ^ 16)

/-- Settings of offline work as they stand (R347): those of the slot's head and band, with a given target set. -/
def offlineCfg (s : State) (x : Nat) (v : Sample) (tgt : Nat) : DetCfg :=
  detCfg s x (rhEntry s x v.head v.band) tgt (eqStore s x v.head v.band) (npStore s x v.head)

/-- The offline work that stands first starts (R328, R347). -/
def startOffline (x : Nat) (s : State) : State :=
  modSr x (fun r => match r.offline with
    | w :: rest => if w.cfg.isNone then { r with offline := { w with cfg := some (offlineCfg s x (slotOf r w.slot) w.tgt) } :: rest } else r
    | [] => r) s

/-- Offline work is asked for: it takes the fourth slot in its turn (R328, R347, R350). -/
def addOffline (x slot : Nat) (off : Int) (tgt : Nat) (probe : Bool) (e : Nat) (job : Option (Nat × Nat)) (s : State) : State :=
  startOffline x (modSr x (fun r => { r with offline := r.offline ++ [⟨slot, off, tgt, probe, e, job, distrustPba s x, none⟩] }) s)

/-- OREDET by eft `e` (R347, R348): the work queues for the fourth slot; an empty sample slot ends it at once. What OSTAT holds
until it ends is left open. -/
def oredet (e : Nat) (v : Word) (s : State) : State :=
  let x := e / 2
  let k := fld v 12 12
  if (slotOf (med s x).sr k).valid then
    let (b, s) := s.drawBytes 4
    addOffline x k (signed 4 (fld v 3 0)) (fld v 7 4) (bit v 8) e none
      (modSr x (fun r => { r with ostat := some (BitVec.ofNat 32 (leNat b)), odone := false }) s)
  else wakeEft e 26 (modSr x (fun r => { r with ostat := some 6, odone := true }) s)

/-- The words of a sample slot that cannot be corrected (R462, R468), each counted. -/
def sampleUpsets (x k : Nat) (l : List (Nat × BitVec 80)) (s : State) : List Nat × State :=
  l.foldl (fun acc u =>
    let (bad, s) := bufferUpsets (6 + x) (2 + x) [((k * 9276 + u.1) * 8, u.2)] acc.2
    (if bad then u.1 :: acc.1 else acc.1, s)) ([], s)

/-- Samples with the words `bad` replaced by 0: a slot's words hold reader 1's samples, then reader 2's, eight to a word. -/
def withoutWords (bad : List Nat) (reader : Nat) (x : List Int) : List Int :=
  if bad.isEmpty then x else x.mapIdx fun i v => if bad.contains (4638 * reader + i / 8) then 0 else v

/-- Codeword positions of the words `bad` (R468), the codeword beginning at bit `cw`. -/
def wordErasures (bad : List Nat) (cw : Nat) : List Range :=
  bad.filterMap fun w =>
    let i := w % 4638 * 8
    if i + 7 < cw + 16 then none else some ⟨i - (cw + 16), i + 7 - (cw + 16), 0⟩

/-- The first offline work runs to its end over `rs` (R347, R350, R468): whether it delivers, and its decoding. A probe gives its
weight alone. -/
def runOffline (x : Nat) (w : Offline) (rs : List Range) (o : OutcomeObs) (s : State) : (Bool × DecRes) × State :=
  let v := slotOf (med s x).sr w.slot
  let c := w.cfg.getD (offlineCfg s x v w.tgt)
  let cw := (176 + w.off).toNat
  let (words, s) := sampleUpsets x w.slot o.samples s
  let (bad, s) := bufferUpsets (4 + x) (2 + x) o.ldpc s
  let x1 := withoutWords words 0 v.x1
  let x2 := withoutWords words 1 v.x2
  let rs := rs ++ wordErasures words cw
  let d := if w.probe then ⟨false, 1, probeWeight c cw x1 x2 rs o.tie, []⟩ else decodeSector c cw x1 x2 rs o.tie
  ((d.ok && !bad && !(w.distrust = some v.pba), d), s)

/-- The fourth slot is free again: the next offline work starts. -/
def popOffline (x : Nat) (s : State) : State := startOffline x (modSr x (fun r => { r with offline := r.offline.tail }) s)

/-- The offline work of an OREDET ends (R347, R348, R350). -/
def offlineDone (x : Nat) (o : OutcomeObs) (s : State) : State :=
  match (med s x).sr.offline with
  | [] => s
  | w :: _ =>
    let v := slotOf (med s x).sr w.slot
    let ((ok, d), s) := runOffline x w v.ranges o s
    let s := popOffline x (modSr x (fun r => { r with odone := true, ostat := some (ostatWord (if ok then 0 else 1) d.globals d.sw v.ranges) }) s)
    let s := if ok then modRc x (fun r => { r with out := dataBytes d.bits }) (s.bump (Reg.MED_SR_OFFLINE_OK x)) else s
    wakeEft w.eft 26 s

/-- The ranges that an erasure list of a REDETECT job gives (R349). -/
def listedRanges (b : List Byte) : List Range :=
  (List.range 16).filterMap fun i =>
    let f := field b (4 * i) 2
    let l := field b (4 * i + 2) 2
    if l < f || 36863 < f then none else some ⟨f, min 36863 l, 0⟩

/-- A REDETECT job's work ends (R349, R161): its results, and the block at DST where it decoded. -/
def redetectEnd (x q first : Nat) (b : List Byte) (w : Offline) (listed : List Range) (o : OutcomeObs) (s : State) : State :=
  let v := slotOf (med s x).sr w.slot
  let rs := listed ++ (if nbit (field b 16 8) 63 then v.ranges else [])
  let ((ok, d), s) := runOffline x w rs o s
  let s := popOffline x s
  if ok then
    writeOr (2 + x) (field b 24 5) (dataBytes d.bits) (fun r s => failAccess q first r s)
      (fun s => finishJob q first ⟨0, d.sw, d.globals, 1, 0⟩ (s.bump (Reg.MED_SR_OFFLINE_OK x))) s
  else finishJob q first ⟨0, d.sw, d.globals, 0, 0⟩ s

/-- The work of a REDETECT job runs, its erasure list read where it has one (R349). -/
def redetectRun (x q first : Nat) (w : Offline) (o : OutcomeObs) (s : State) : State :=
  match findJob s q first with
  | none => popOffline x s
  | some j =>
    let b := j.entry
    let a := field b 16 5
    if a = 0 then redetectEnd x q first b w [] o s
    else readOr (2 + x) a 64 (fun r s => failAccess q first r (popOffline x s))
      (fun l s => redetectEnd x q first b w (listedRanges l) o s) s

/-- The first offline work ends, an eft's or a job's (R328, R347). -/
def offlineNext (x : Nat) (o : OutcomeObs) (s : State) : State :=
  match (med s x).sr.offline with
  | [] => s
  | w :: _ =>
    match w.job with
    | some (q, first) => redetectRun x q first w o s
    | none => offlineDone x o s

/-- OCSTART by eft `e` (R348, R354): the rebuild engine is cleared and bound to a group of the job's zone. -/
def ocstart (e group : Nat) (s : State) : State :=
  let z := medZone (eftEntry s e)
  withZone z (eftAccessFail e) (fun t s =>
    let sealed? := t.kind = 1 && (group + 1) * 264 ≤ t.wp && group ∉ t.ugroup.take t.ucount
    modSr (e / 2) (fun r => { r with rebuild := some ⟨z, group, t.kind = 1, sealed?, [], false, none, none⟩ }) s) s

/-- OCSTAT (R348). -/
def ocstatWord (b : Rebuild) : Nat :=
  let n := b.have_.length
  n % 512 + b2n (256 ≤ n) * 2 ^ 16 + b2n b.ok * 2 ^ 17 + b2n b.isSealed * 2 ^ 18

/-- OCSOLVE by eft `e` (R348): refused, with OK 0, where READY or SEALED is 0, as they are with no group bound. -/
def ocsolve (e slot : Nat) (s : State) : State :=
  let x := e / 2
  match (med s x).sr.rebuild with
  | some b =>
    if 256 ≤ b.have_.length && b.isSealed then
      modSr x (fun r => { r with ocdone := false, rebuild := some { b with solving := some slot } }) s
    else wakeEft e 27 (modSr x (fun r => { r with ocdone := true, rebuild := some { b with ok := false } }) s)
  | none => wakeEft e 27 (modSr x (fun r => { r with ocdone := true }) s)

/-- The sector of a data slot rebuilt from the sectors a group has (R271, R354): none where it cannot be solved. -/
def rebuildSlot (have_ : List (Nat × List Byte)) (slot : Nat) : Option (List Byte) :=
  match have_.lookup slot with
  | some d => some d
  | none =>
    let lost := (List.range 256).filter fun i => !(have_.any fun h => h.1 = i)
    let pars := ((List.range 8).filter fun j => have_.any fun h => h.1 = 256 + j).take lost.length
    let c (j i : Nat) : Nat := gf16Inv (j ^^^ (8 + i))
    if pars.length < lost.length then none
    else
      match solveMatrix gf16Mul gf16Inv (pars.map fun j => lost.map fun i => c j i), lost.findIdx? fun i => i = slot with
      | some inv, some row =>
        let ws := inv.getD row []
        let syms (d : List Byte) (t : Nat) : Nat := field d (2 * t) 2
        let synd (j t : Nat) : Nat :=
          have_.foldl (fun acc (i, d) => if i < 256 then acc ^^^ gf16Mul (c j i) (syms d t) else acc)
            (syms ((have_.lookup (256 + j)).getD []) t)
        some ((List.range 2080).flatMap fun t =>
          leBytes 2 ((pars.zip ws).foldl (fun acc (j, w) => acc ^^^ gf16Mul w (synd j t)) 0))
      | _, _ => none

/-- An OCSOLVE ends (R348, R354). -/
def ocsolveDone (x : Nat) (s : State) : State :=
  match (med s x).sr.rebuild with
  | some b =>
    match b.solving with
    | some k =>
      let d := rebuildSlot b.have_ k
      let s := modSr x (fun r => { r with ocdone := true, rebuild := some { b with solving := none, ok := d.isSome } }) s
      let s := match d with
        | some d => srEvent x 3 ((modRc x (fun r => { r with out := d }) s).bump (Reg.MED_SR_OC_OK x))
        | none => s
      wakeEft (2 * x + 1) 27 (wakeEft (2 * x) 27 s)
    | none => s
  | none => s

end Sys2Proof.Machine
end

