-- ==== Sys2Proof/Machine/AdcOps.lean ====
section
/-!
DEFINITION. Machine/AdcOps.lean: what a sector gap applies (R314, R315, R331): trims, slice retirement and adaptation.
-/

namespace Sys2Proof.Machine

open Sys2Proof

/-- Key of a slice among the measurements. -/
def sliceKey (x r k : Nat) : Nat := (x * 2 + r) * 34 + k

/-- Slices of the 32 phases of reader `r` (R316). -/
def phaseSlices (s : State) (x r : Nat) : List Nat :=
  (List.range 32).map fun p => s.rf (Reg.MED_ADC_PHASE x r (p / 4)) (p % 4 * 8 + 5) (p % 4 * 8)

/-- A slice's BAD bit. -/
def sliceBad (s : State) (x r k : Nat) : Bool := s.rb (Reg.MED_ADC_TRIM x r k) 31

/-- Slices no phase names: the spares (R316), ascending. -/
def spareSlices (s : State) (x r : Nat) : List Nat :=
  let ps := phaseSlices s x r
  (List.range 34).filter fun k => !ps.contains k

/-- One trim of a slice: its field, the bounds, the measured error, the half step and the limit. -/
structure TrimOf where
  hi : Nat
  lo : Nat
  min : Int
  max : Int
  err : Int
  /-- Least error beyond half a step, in the measurement's unit. -/
  half : Nat
  lim : Nat
  deriving DecidableEq, Repr

/-- The three trims of a slice with their measured errors (Table "Read-channel registers"). -/
def trimsOf (s : State) (x r k : Nat) : List TrimOf :=
  let m := Reg.MED_ADC_MEAS x r k
  let l := Reg.MED_ADC_LIM x
  [⟨5, 0, -32, 31, s.rs m 7 0, 1, s.rf l 7 0⟩, ⟨12, 8, -16, 15, s.rs m 15 8, 3, s.rf l 15 8⟩,
   ⟨20, 16, -16, 15, s.rs m 23 16, 1, s.rf l 23 16⟩]

/-- A trim's value, and whether it stands at the bound its error asks it to pass. -/
def trimVal (s : State) (x r k : Nat) (t : TrimOf) : Int := s.rs (Reg.MED_ADC_TRIM x r k) t.hi t.lo
def trimStuck (s : State) (x r k : Nat) (t : TrimOf) : Bool :=
  let v := trimVal s x r k t
  if 0 < t.err then v = t.min else v = t.max

/-- A slice is to be retired (R314). -/
def mustRetire (s : State) (x r k : Nat) : Bool :=
  s.rb (Reg.MED_RC_CTRL x) 5 && (phaseSlices s x r).contains k
    && (trimsOf s x r k).any fun t => t.lim < t.err.natAbs && (!s.rb (Reg.MED_RC_CTRL x) 4 || trimStuck s x r k t)

/-- Retire a slice, or leave it in use with DEGRADED where no good spare is left (R314, R315). -/
def retireSlice (x r k : Nat) (s : State) : State :=
  match (spareSlices s x r).find? fun j => !sliceBad s x r j, (phaseSlices s x r).findIdx? fun j => j = k with
  | some j, some p =>
    let s := s.setRf (Reg.MED_ADC_PHASE x r (p / 4)) (p % 4 * 8 + 5) (p % 4 * 8) j
    rcEvent x 5 (s.setRb (Reg.MED_ADC_TRIM x r k) 31 true)
  | none, _ =>
    if adcDegraded s x && (if r = 0 then (med s x).rc.degraded1 else (med s x).rc.degraded2) then s
    else rcEvent x 6 (modRc x (fun c => if r = 0 then { c with degraded1 := true } else { c with degraded2 := true }) s)
  | _, none => s

/-- Every trim of a slice moves one step toward zero error (R314). -/
def trimSlice (x r k : Nat) (s : State) : State :=
  if s.rb (Reg.MED_RC_CTRL x) 4 then
    (trimsOf s x r k).foldl (fun s t =>
      if t.half ≤ t.err.natAbs && !trimStuck s x r k t then
        let v := trimVal s x r k t + (if 0 < t.err then -1 else 1)
        s.setRf (Reg.MED_ADC_TRIM x r k) t.hi t.lo (unsigned (t.hi + 1 - t.lo) v)
      else s) s
  else s

/-- The correction that a measurement of a slice feeds (R314, R315, R447): a slice that stays in use for want of a spare is
trimmed as any other. -/
def correctSlice (x r k : Nat) (s : State) : State :=
  let key := sliceKey x r k
  if s.cal.fresh.contains key then
    let s := { s with cal := { s.cal with fresh := s.cal.fresh.filter fun j => j ≠ key } }
    if mustRetire s x r k then
      let s := retireSlice x r k s
      if sliceBad s x r k then s else trimSlice x r k s
    else trimSlice x r k s
  else s

/-- Corrections of both ADCs of an actuator. -/
def correctAdcs (x : Nat) (s : State) : State :=
  [0, 1].foldl (fun s r => (List.range 34).foldl (fun s k => correctSlice x r k s) s) s

/-- Thresholds of the adaptation, 0 acting as 1. -/
def eqThr (s : State) (x : Nat) : Int := orOne (s.rf (Reg.MED_RC_ADAPT x) 15 0)
def npThr (s : State) (x : Nat) : Int := orOne (s.rf (Reg.MED_RC_ADAPT x) 31 16)

/-- Step of a coefficient for a statistic, positive statistics lowering it. -/
def adaptStep (thr g : Int) : Int := if thr ≤ g then -1 else if g ≤ -thr then 1 else 0

/-- The service image has written a word of a store in this gap: its value stands, and the statistics of its taps are discarded
(R332). -/
def wordWritten (s : State) (x a : Nat) : Bool := (med s x).rc.written.contains a

/-- The equaliser update of a head and band (R331), and whether a clamp held a coefficient. -/
def adaptEq (x h b : Nat) (g : List Int) (s : State) : State × Bool :=
  let main := s.rf (Reg.MED_RC_CFG x) 19 16
  let thr := eqThr s x
  (g.zipIdx).foldl (fun (acc : State × Bool) (v, i) =>
    let d := adaptStep thr v
    let a := Reg.MED_EQ x h b (i / 2)
    if d = 0 || (i % 16 = main && (i / 16 = 0 || i / 16 = 3)) || wordWritten s x a then acc
    else
      let lo := 16 * (i % 2)
      let c := acc.1.rs a (lo + 9) lo + d
      let c' := clampI (-512) 511 c
      (acc.1.setRf a (lo + 9) lo (unsigned 10 c'), acc.2 || c ≠ c')) (s, false)

/-- The predictor update of a head (R331). -/
def adaptNp (x h : Nat) (g : List Int) (s : State) : State :=
  let thr := npThr s x
  (g.zipIdx).foldl (fun (acc : State) (v, i) =>
    let d := -adaptStep thr v
    let a := Reg.MED_NP x h (i / 4)
    if d = 0 || wordWritten s x a then acc
    else
      let lo := 8 * (i % 4)
      acc.setRf a (lo + 7) lo (unsigned 8 (clampI (-127) 127 (acc.rs a (lo + 7) lo + d)))) s

/-- The adaptation of a gap (R331): stores updated from the gathered statistics, which are cleared. -/
def adapt (x : Nat) (s : State) : State :=
  let r := (med s x).rc
  match r.statOf with
  | none => s
  | some (h, b) =>
    let (s, held) := if s.rb (Reg.MED_RC_CTRL x) 0 then adaptEq x h b r.statG s else (s, false)
    let s := if s.rb (Reg.MED_RC_CTRL x) 1 then adaptNp x h r.statH s else s
    let s := modRc x (fun r => { r with statG := [], statH := [], statOf := none }) s
    if held && !r.eqLimit then rcEvent x 4 (modRc x (fun r => { r with eqLimit := true }) s) else s

/-- What a sector gap applies (R314, R315, R322, R331, R332): corrections, adaptation, and for a run in progress the stores as
they then stand. -/
def sectorGap (x : Nat) (s : State) : State :=
  let s := modRc x (fun r => { r with written := [] }) (adapt x (correctAdcs x s))
  let r := (med s x).rc
  match r.band with
  | some b => if r.run then loadStores x r.head b s else s
  | none => s

end Sys2Proof.Machine
end

