-- ==== Sys2Proof/Machine/ThermOps.lean ====
section
/-!
DEFINITION. Machine/ThermOps.lean: the thermal model (R421, R422), sensors (R423, R424), quench (R425, R426), derating
(R429), head heat (R433) and calibration triggers (R447).
-/

namespace Sys2Proof.Machine

open Sys2Proof

/-- A result held in 16 bits, two's complement; one that does not fit is a value the spec does not state. -/
def fit16 (v : Int) (s : State) : Nat × State :=
  if -32768 ≤ v && v ≤ 32767 then (unsigned 16 v, s)
  else
    let (b, s) := s.drawBytes 2
    (leNat b, s)

/-- A result held in 16 unsigned bits. -/
def fitU16 (v : Nat) (s : State) : Nat × State :=
  if v < 65536 then (v, s)
  else
    let (b, s) := s.drawBytes 2
    (leNat b, s)

/-- Sensors of a node (Table "Thermal model nodes"). -/
def nodeSensors (i : Nat) : List Nat :=
  match i with
  | 0 => [0] | 1 => [1] | 2 => [2, 3] | 3 => [4] | 4 => [5] | 5 => [6] | 6 => [7] | 7 => [8, 9] | 8 => [10] | 9 => [11]
  | 10 => [12, 13] | 11 => [14, 15] | 12 => [16] | 13 => [17] | 14 => [18] | 15 => [19]
  | _ => []

/-- Node of a sensor. -/
def sensorNode (k : Nat) : Nat := ((List.range 16).find? fun i => (nodeSensors i).contains k).getD 0

/-- Meter of a node. -/
def nodeMeter (i : Nat) : Option Nat :=
  if i ≤ 9 then some i else if 12 ≤ i && i ≤ 16 then some (i - 2) else none

/-- A sensor is usable (R422). -/
def usable (s : State) (k : Nat) : Bool := !s.rb Reg.TH_EXCLUDED k

/-- Last reading of a sensor and the estimate of a node, raw 12.4 °C. -/
def sensorT (s : State) (k : Nat) : Int := s.rs (Reg.TH_SENSOR k) 15 0
def nodeT (s : State) (i : Nat) : Int := s.rs (Reg.TH_NODE i) 15 0

/-- The model runs. -/
def modelOn (s : State) : Bool := s.rb Reg.TH_CTRL 0

/-- A meter averaged over the last ten windows, mW (R421, R435). -/
def meterAvg (s : State) (m : Nat) : Nat := ((s.bud.windows.map fun w => w.meters.getD m 0).foldl (· + ·) 0) / 10

/-- Mean of a node's usable sensors (R422; rounding: DEDUCED, log entry 25). -/
def sensorMean (s : State) (i : Nat) : Option Int :=
  let ks := (nodeSensors i).filter (usable s)
  if ks.isEmpty then none else some (Int.tdiv ((ks.map (sensorT s)).foldl (· + ·) 0) ks.length)

/-- Heat flow into a node from its edges, mW (R421). -/
def edgeFlow (s : State) (i : Nat) : Int :=
  (List.range 48).foldl (fun acc e =>
    let w := s.reg (Reg.TH_EDGE e)
    let a := fld w 4 0
    let b := fld w 12 8
    let g : Int := fld w 31 16
    if a = b || 23 < a || 23 < b then acc
    else if a = i then acc + Int.tdiv (g * (nodeT s b - nodeT s a)) 16
    else if b = i then acc + Int.tdiv (g * (nodeT s a - nodeT s b)) 16
    else acc) 0

/-- The next value of a node: the model's step and the correction toward its sensors (R421, R422). -/
def nodeNext (s : State) (i : Nat) : Int :=
  let amb := s.rs Reg.TH_AMBIENT 15 0
  if modelOn s then
    let t := if i = 23 then amb
      else
        let p : Int := ((nodeMeter i).map (meterAvg s)).getD 0
        nodeT s i + Int.tdiv ((p + edgeFlow s i) * (s.rf (Reg.TH_NODE_KC i) 23 0 : Int)) 65536
    match sensorMean s i with
    | some m => t + (m - t) / (2 ^ (s.rf Reg.TH_CTRL 19 16) : Nat)
    | none => t
  else (sensorMean s i).getD amb

/-- One step of all nodes, each from the values before it (R421). -/
def thermStep (s : State) : State :=
  (List.range 24).foldl (fun acc i =>
    let (v, acc) := fit16 (nodeNext s i) acc
    acc.setReg (Reg.TH_NODE i) (BitVec.ofNat 32 v)) s

/-- WARN and LIMIT of a node, and the hysteresis, raw. -/
def nodeWarn (s : State) (i : Nat) : Int := s.rs (Reg.TH_LIMIT i) 15 0
def nodeLimit (s : State) (i : Nat) : Int := s.rs (Reg.TH_LIMIT i) 31 16
def thHyst (s : State) : Int := s.rf Reg.TH_CTRL 15 8 * 16

/-- CAP in effect (Table "Thermal, budget and AVFS registers"). -/
def capReg (s : State) : Nat := clampN 6000 40000 (s.rf Reg.BA_CAP 15 0)

/-- cap_eff (R429). -/
def capEff (s : State) : Nat := s.rf Reg.BA_STATUS 15 0

/-- Set cap_eff and DERATED, raising CAP_DERATED when it first falls below CAP (R429). -/
def setCapEff (v : Nat) (s : State) : State :=
  let was := s.rb Reg.BA_STATUS 16
  let d := v < capReg s
  let s := s.setReg Reg.BA_STATUS (BitVec.ofNat 32 (v % 65536 + b2n d * 2 ^ 16))
  if d && !was then raise 213 s else s

/-- A node that may warn or derate: one with a usable sensor while MODEL_EN is 0, every one while it is 1 (R422). -/
def nodeJudged (s : State) (i : Nat) : Bool := modelOn s || (sensorMean s i).isSome

/-- THERM_WARN and THERM_LIMIT of a node (R429). -/
def nodeEvents (s : State) (i : Nat) : State :=
  let t := nodeT s i
  let hy := thHyst s
  let w := nodeWarn s i
  let l := nodeLimit s i
  let s := if t < w - hy then { s with bud := { s.bud with warned := s.bud.warned.filter fun k => k ≠ i } } else s
  let s := if t < l - hy then { s with bud := { s.bud with limited := s.bud.limited.filter fun k => k ≠ i } } else s
  let s := if w ≤ t && i ∉ s.bud.warned then raise 208 { s with bud := { s.bud with warned := i :: s.bud.warned } } else s
  if l ≤ t && i ∉ s.bud.limited then raise 209 { s with bud := { s.bud with limited := i :: s.bud.limited } } else s

/-- Derating at a model step (R429); node 23 takes no part. -/
def derateStep (s : State) : State :=
  let nodes := (List.range 23).filter (nodeJudged s)
  let s := nodes.foldl nodeEvents s
  let step := orOne (s.rf Reg.BA_DERATE 15 0)
  if nodes.any fun i => nodeLimit s i ≤ nodeT s i then setCapEff (max 6000 (capEff s - step)) s
  else if nodes.all fun i => nodeT s i ≤ nodeLimit s i - thHyst s then setCapEff (min (capReg s) (capEff s + step)) s
  else s

/-- Heat estimate of every head (R433): `duty` gives each head's share of the millisecond with AEN high, in 1/256, in the
order A 0 to 11, B 0 to 11. -/
def heatStep (duty : List (Fin 257)) (s : State) : State :=
  (List.range 24).foldl (fun s k =>
    let a := k / 12
    let h := k % 12
    let u := (duty.getD k 0).val
    let full := s.rs (Reg.BA_HEAD a h) 31 16
    let now := s.rs (Reg.BA_HEAT a h) 15 0
    let v := now + (Int.tdiv (u * full) 256 - now) / (2 ^ (s.rf Reg.BA_HEAD_CFG 3 0) : Nat)
    let (v, s) := fit16 v s
    s.setReg (Reg.BA_HEAT a h) (BitVec.ofNat 32 v)) s

/-- Quench threshold of a sensor, raw (R425). -/
def quenchAt (k : Nat) : Int := if k < 16 then 2240 else 2160

/-- FAST of TH_STATUS (R423): entered within 10 °C of a limit, left more than 12 °C below every one. -/
def fastMode (s : State) : State :=
  let gaps := (((List.range 20).filter (usable s)).map fun k => quenchAt k - sensorT s k)
    ++ (List.range 23).map fun i => nodeLimit s i - nodeT s i
  if s.rb Reg.TH_STATUS 0 then
    if gaps.all fun g => 192 < g then s.setRb Reg.TH_STATUS 0 false else s
  else if gaps.any fun g => g ≤ 160 then raise 211 (s.setRb Reg.TH_STATUS 0 true) else s

/-- USABLE_LOGIC and USABLE_POWER of TH_STATUS. -/
def countUsable (s : State) : State :=
  let n := ((List.range 16).filter (usable s)).length
  let m := (([16, 17, 18, 19] : List Nat).filter (usable s)).length
  (s.setRf Reg.TH_STATUS 12 8 n).setRf Reg.TH_STATUS 18 16 m

/-- Next usable sensor around the die in a direction, none where only the sensor itself is left (R424). -/
def neighbour (s : State) (k : Nat) (up : Bool) : Option Nat :=
  let n := if k < 16 then 16 else 4
  let base := if k < 16 then 0 else 16
  let order := (List.range (n - 1)).map fun j => base + (if up then (k - base + (j + 1)) % n else (k - base + (n - 1 - j)) % n)
  order.find? (usable s)

/-- A sample of sensor `k` is a mismatch (R424). -/
def mismatch (s : State) (k : Nat) : Bool :=
  let t := sensorT s k
  let far (u : Int) : Bool := 128 < (t - u).natAbs
  let away (n : Option Nat) : Bool := match n with
    | some j => far (sensorT s j)
    | none => true
  modelOn s && s.rb Reg.TH_CTRL 1 && away (neighbour s k false) && away (neighbour s k true) && far (nodeT s (sensorNode k))

/-- Exclude a sensor (R424). -/
def excludeSensor (k : Nat) (s : State) : State :=
  if usable s k then
    let s := (s.setRb Reg.TH_EXCLUDED k true).setRb (Reg.TH_SENSOR k) 16 true
    raise 210 (countUsable s)
  else s

/-- The cross-check of one sample (R424). -/
def crossCheck (s : State) (k : Nat) : State :=
  if !usable s k then s
  else if mismatch s k then
    let n := s.rf (Reg.TH_SENSOR k) 23 20 + 1
    if 16 ≤ n then excludeSensor k (s.setRf (Reg.TH_SENSOR k) 23 20 0) else s.setRf (Reg.TH_SENSOR k) 23 20 n
  else s.setRf (Reg.TH_SENSOR k) 23 20 0

/-- A reading arrives, with the peak (R426), or none does (R424). -/
def takeReading (t : List (Option (BitVec 16))) (s : State) (k : Nat) : State :=
  match t.getD k none with
  | some v =>
    let s := s.setRf (Reg.TH_SENSOR k) 15 0 v.toNat
    if usable s k && (s.rs Reg.TH_PEAK 15 0 < v.toInt) then
      s.setReg Reg.TH_PEAK (BitVec.ofNat 32 (v.toNat + k * 2 ^ 16))
    else s
  | none => if s.rb Reg.TH_CTRL 1 then excludeSensor k s else s

/-- What the quench test reads for a sensor (R425): nothing where it is excluded and no model runs. -/
def quenchHot (s : State) (k : Nat) : Bool :=
  if usable s k then quenchAt k ≤ sensorT s k
  else modelOn s && quenchAt k ≤ nodeT s (sensorNode k)

/-- A quench (R426, R417): gates fall, both actuators park, the spindle coasts, the clocks stop; the code
flash's operation is abandoned (R488). -/
def quench (k : Nat) (s : State) : State :=
  let s := cfAbandon (parkAll s)
  { s with mot := { s.mot with st := if s.mot.st = .holdup then .holdup else .coast, chopOn := false, spinOk := false },
           bud := { s.bud with quenched := some (k, s.rf Reg.TH_PEAK 15 0) } }

/-- The age of a subsystem's last good run advances 1 ms (Table "Calibration registers"). -/
def calAge (s : State) (k : Nat) : State :=
  let ms := s.cal.ageMs.getD k 0 + 1
  if ms < 1000 then { s with cal := { s.cal with ageMs := s.cal.ageMs.set k ms } }
  else { s with cal := { s.cal with ageMs := s.cal.ageMs.set k 0 } }.bump (Reg.CAL_SUB_AGE k)

/-- PENDING of a subsystem. -/
def calPending (s : State) (k : Nat) : Bool := s.rb Reg.CAL_STATUS (8 + k)
/-- ACTIVE of a subsystem. -/
def calActive (s : State) (k : Nat) : Bool := s.rb Reg.CAL_STATUS k

/-- The trigger test of a subsystem (R447). -/
def calTrigger (s : State) (k : Nat) : State :=
  if s.rb Reg.CAL_CTRL 0 && s.rb (Reg.CAL_SUB_CFG k) 7 then
    let t := nodeT s (s.rf (Reg.CAL_SUB_CFG k) 4 0)
    let last := Reg.CAL_SUB_LAST k
    let delta := orOne (s.rf (Reg.CAL_SUB_CFG k) 15 8) * 16
    let max := s.rf (Reg.CAL_SUB_TIME k) 15 0
    let drift := delta < (t - s.rs last 15 0).natAbs
    if s.rf last 15 0 = 0x8000 || drift || (max ≠ 0 && max ≤ (s.reg (Reg.CAL_SUB_AGE k)).toNat) then
      s.setRb Reg.CAL_STATUS (8 + k) true
    else s
  else s

end Sys2Proof.Machine
end

