-- ==== Sys2Proof/Machine/CalOps.lean ====
section
/-!
DEFINITION. Machine/CalOps.lean: runs of the calibration controller (R444 to R452).
-/

namespace Sys2Proof.Machine

open Sys2Proof

/-- Raise bit `k` of CAL_EVENT_STATUS (R453). -/
def calEvent (k : Nat) (s : State) : State := raise (216 + k) s

/-- Function that owns a subsystem (R452). -/
def calOwner (k : Nat) : Nat :=
  match k with
  | 0 => 2 | 2 => 2 | 1 => 3 | 3 => 3 | 4 => 4 | 5 => 8 | _ => 0

/-- Fly-height run of an actuator. -/
def fhRun (s : State) (x : Nat) : Option FhRun := if x = 0 then s.cal.fhA else s.cal.fhB

/-- Set the fly-height run of an actuator. -/
def setFh (x : Nat) (r : Option FhRun) (s : State) : State :=
  if x = 0 then { s with cal := { s.cal with fhA := r } } else { s with cal := { s.cal with fhB := r } }

/-- A run ends with a RESULT (R447, R453): OK and MARGIN set T_LAST and clear the age. -/
def calEnd (k result : Nat) (s : State) : State :=
  let good := result = 1 || result = 4
  let last := Reg.CAL_SUB_LAST k
  let cnt := Reg.CAL_SUB_COUNT k
  let s := (s.setRb Reg.CAL_STATUS k false).setRb Reg.CAL_STATUS (16 + k) (!good)
  let s := (s.setRf last 19 16 result).bumpRf cnt 15 0
  let s := if k = 2 || k = 3 then grantToken (k - 2) (setFh (k - 2) none s) else s
  if good then
    let t := s.rf (Reg.TH_NODE (s.rf (Reg.CAL_SUB_CFG k) 4 0)) 15 0
    let s := (s.setRf last 15 0 t).setReg (Reg.CAL_SUB_AGE k) 0
    { s with cal := { s.cal with ageMs := s.cal.ageMs.set k 0 } }
  else
    let s := s.bumpRf cnt 31 16
    if result = 2 || result = 3 then calEvent 0 s else s

/-- A function reset ends the runs of its subsystems (R452). -/
def calAbort (f : Nat) (s : State) : State :=
  (List.range 8).foldl (fun s k => if calOwner k = f && calActive s k then calEnd k 5 s else s) s

/-- START and MAX of a head's sweep (R449), as a TD_CTRL word. -/
def fhWord (s : State) (x h : Nat) : Word :=
  let w := Reg.CAL_FH_HEAD x h
  let span := orOne (s.rf (Reg.CAL_FH_CFG x) 23 16)
  let c := s.rf w 7 0
  let (a, b) := if s.rb w 15 then (c - span, min 255 (c + span)) else (hbHeatR s x h 0, 255)
  BitVec.ofNat 32 (a + b * 2 ^ 8 + 2 ^ 16 + h * 2 ^ 24)

/-- The next head's sweep starts, where the token is idle and no head is in hand (R448, R449). -/
def fhNext (x : Nat) (s : State) : State :=
  match fhRun s x with
  | none => s
  | some r =>
    match r.cur, r.moving, r.todo with
    | none, none, h :: t =>
      if s.rb (Reg.CAL_FH_HEAD x h) 12 then setFh x (some { r with todo := t }) s
      else if tokenIdle s x then startSweep x (fhWord s x h) (setFh x (some { r with todo := t, cur := some h }) s)
      else s
    | _, _, _ => s

/-- Where the band entries of a head move to for a new code (R450). -/
def fhTargets (s : State) (x h code : Nat) : List (Nat × Nat) :=
  let w := Reg.CAL_FH_HEAD x h
  let cfg := Reg.CAL_FH_CFG x
  let lim (i : Int) : Nat := (clampI 0 255 i).toNat
  (List.range 16).map fun b =>
    if s.rb w 15 then
      let d : Int := (code : Int) - (s.rf w 7 0 : Int)
      (lim (hbHeatW s x h b + d), lim (hbHeatR s x h b + d))
    else (lim ((code : Int) - (s.rf cfg 7 0 : Int)), lim ((code : Int) - (s.rf cfg 15 8 : Int)))

/-- The sweep of a head has ended (R450). -/
def fhSwept (x h : Nat) (r : FhRun) (s : State) : State :=
  let res := s.reg (Reg.MED_TD_RESULT x)
  let w := Reg.CAL_FH_HEAD x h
  if bit res 8 then
    let c := fld res 7 0
    setFh x (some { r with cur := none, moving := some (h, c, fhTargets s x h c) }) s
  else
    let s := calEvent 0 (s.bumpRf w 11 8)
    let s := if orOne (s.rf (Reg.CAL_FH_CFG x) 27 24) ≤ s.rf w 11 8 then calEvent 1 (s.setRb w 12 true) else s
    setFh x (some { r with cur := none, failed := true }) s

/-- One code toward a target. -/
def toward (v t : Nat) : Nat := if v < t then v + 1 else if t < v then v - 1 else v

/-- Every field of a head moves one code at a strobe; the last step records the new code (R450). -/
def fhMove (x h code : Nat) (ts : List (Nat × Nat)) (r : FhRun) (s : State) : State :=
  let s := ts.zipIdx.foldl (fun s (t, b) =>
    let a := Reg.MED_HB x h b 3
    (s.setRf a 7 0 (toward (s.rf a 7 0) t.1)).setRf a 15 8 (toward (s.rf a 15 8) t.2)) s
  if ts.zipIdx.all fun (t, b) => hbHeatW s x h b = t.1 && hbHeatR s x h b = t.2 then
    let w := Reg.CAL_FH_HEAD x h
    setFh x (some { r with moving := none }) (((s.setRf w 7 0 code).setRb w 15 true).setRf w 11 8 0)
  else s

/-- The controller's part of a wedge strobe (R449, R450); held while its function is fenced (R452). -/
def calStrobe (x : Nat) (s : State) : State :=
  if s.fenced (2 + x) then s
  else match fhRun s x with
  | none => s
  | some r =>
    match r.moving, r.cur with
    | some (h, c, ts), _ => fhMove x h c ts r s
    | none, some h => if (med s x).wr.sweep.isNone then fhSwept x h r s else s
    | none, none => fhNext x s

/-- The boundary a subsystem's run starts at has come (R448). -/
def calBoundary (s : State) (k : Nat) : Bool :=
  match k with
  | 0 => (med s 0).rc.run
  | 1 => (med s 1).rc.run
  | 2 => tokenIdle s 0
  | 3 => tokenIdle s 1
  | 4 => (List.range 8).all fun c => (s.eft (4 + c)).unit.isNone && (s.eft (4 + c)).parked.isEmpty && (s.eft (4 + c)).preempted.isEmpty
  | 5 => s.mu.dramReady
  | _ => true

/-- The measurement of every slice of both ADCs has run for 32 periods (R447). -/
def adcRunDone (s : State) (x : Nat) : Bool :=
  (List.range 68).all fun j => 32 ≤ (s.cal.periods.lookup (x * 68 + j)).getD 0

/-- A flash run ends (Table "Calibrated subsystems", R202): a channel whose training no longer passes at its rate steps
down. -/
def calFlashEnd (rates : List (Fin 11)) (s : State) : State × Bool :=
  (List.range 8).foldl (fun (acc : State × Bool) c =>
    let s := acc.1
    let ch := chan s c
    if ch.ready && ch.rate ≠ 0 then
      let r := min ch.rate (rates.getD c 0).val
      if r = ch.rate then acc
      else
        let s := modChan c (fun y => { y with rate := r, ready := r ≠ 0 }) s
        (if r = 0 then stgEvent 0 s else stgEvent 1 s, true)
    else acc) (s, false)

/-- Spares of a lane (R451): one bit slice of each byte lane of DRAM, two ADC slices of each receiver lane of NET. -/
def calSpares (k : Nat) : Nat := if k = 5 then 1 else 2

/-- An element of a subsystem at the end of a run (R451): one below EYE_MIN is retired for a spare in element mode, raising
SPARE_USED; where none is left, or in tap mode a tap is at its bound, the run falls short. -/
def eyeEnd (k : Nat) (acc : State × Bool) (o : EyeObs) : State × Bool :=
  let (s, short) := acc
  if s.rf (Reg.CAL_SUB_TIME k) 31 24 ≤ o.eye.toNat then acc
  else if s.rb (Reg.CAL_SUB_CFG k) 6 then
    if (s.cal.retired.count (k, o.lane.val)) < calSpares k then
      (calEvent 3 { s with cal := { s.cal with retired := (k, o.lane.val) :: s.cal.retired } }, short)
    else (s, true)
  else (s, short || o.bound)

end Sys2Proof.Machine
end

