-- ==== Sys2Proof/Machine/RingCmds.lean ====
section
/-!
DEFINITION. Machine/RingCmds.lean: commands of the ring manager other than the start of a job (spec/05).
-/

namespace Sys2Proof.Machine

open Sys2Proof Host

/-- A command that ends in a next state. -/
abbrev Res := Host.Outcome State Fault Refusal

/-- The answer of a register read carried out by a command of its own. -/
def answer (w : Nat) (s : State) : State := { s with resp := ⟨BitVec.ofNat 64 w, false⟩ }

/-- Checks of R144 for a submission ring. -/
def sqMayEnable (s : State) (q : Nat) : Bool :=
  let f := sqFunc s q
  let c := sqCq s q
  s.rf (Reg.SQ_CFG q) 3 0 ≤ 12 && classListed f (sqClass s q) && cqActive s c
    && arrayPlaced s f (sqBase s q) (64 * 2 ^ sqN s q) && arrayPlaced s f (cqBase s c) (64 * 2 ^ cqN s c)

/-- SQ_ENABLE (R144, R145): ENABLE 1 written to submission ring `q`. -/
def execSqEnable (q : Fin 16384) (s : State) : Res :=
  s.whenLive fun s =>
    if sqState s q ≠ 0 then ringEvent 2 s
    else
      let s := s.setRb (Reg.SQ_CFG q) 31 true
      if sqMayEnable s q then s.setRf (Reg.SQ_STATE q) 25 24 1 else ringEvent 2 s

/-- Checks of R144 for a completion ring: size and placement, the window condition waived; INT_CORE 6 and 7 refused. -/
def cqMayEnable (s : State) (c : Nat) : Bool :=
  let a := cqBase s c
  let n := 64 * 2 ^ cqN s c
  s.rf (Reg.CQ_CFG c) 3 0 ≤ 12 && s.rf (Reg.CQ_CFG c) 11 9 ≤ 5 && (inSram a n || s.inDram a n)

/-- CQ_ENABLE (R144, R145): ENABLE 1 written to completion ring `c`. -/
def execCqEnable (c : Fin 4096) (s : State) : Res :=
  s.whenLive fun s =>
    if cqActive s c then ringEvent 2 s
    else
      let s := s.setRb (Reg.CQ_CFG c) 31 true
      if cqMayEnable s c then s.setRb (Reg.CQ_STATE c) 24 true else ringEvent 2 s

/-- The entries of the ring's next job fetched so far, from SQ_FETCH on, up to its LAST (R153, R156). -/
def collect (s : State) (q : Nat) : Nat → Nat → List (List Byte)
  | 0, _ => []
  | k + 1, i =>
    match s.rings.fetched.find? fun x => x.sq = q && x.idx = i % 2 ^ (sqN s q + 1) with
    | some x => if eLast x.bytes then [x.bytes] else x.bytes :: collect s q k (i + 1)
    | none => []

/-- Entries of the next job fetched so far. -/
def nextEntries (s : State) (q : Nat) : List (List Byte) := collect s q (min 64 (2 ^ sqN s q)) (sqF s q)

/-- Index of the entry that comes into use next (R153). -/
def useIndex (s : State) (q : Nat) : Nat := (sqF s q + (nextEntries s q).length) % 2 ^ (sqN s q + 1)

/-- The next job's LAST entry has not been fetched, and its next entry lies before P (R153, R156). -/
def atUse (s : State) (q : Nat) : Bool :=
  !(nextEntries s q).any eLast && ringCount (sqN s q) (useIndex s q) (sqF s q) < ringCount (sqN s q) (sqP s q) (sqF s q)

/-- Store a fetched entry. -/
def storeFetched (q i : Nat) (bs : List Byte) (s : State) : State :=
  { s with rings := { s.rings with
      fetched := ⟨q, i, bs⟩ :: s.rings.fetched.filter fun x => !(x.sq = q && x.idx = i) } }

/-- Refetches counted for a ring (R153). -/
def tries (s : State) (q : Nat) : Nat := Sparse.get (fun _ => 0) s.rings.phaseTries q
def setTries (q n : Nat) (s : State) : State :=
  { s with rings := { s.rings with phaseTries := Sparse.set (fun _ => 0) s.rings.phaseTries q n } }

/-- A job with a malformed entry (R164): once every earlier job of the ring is completed, its completion is posted with
ERR_IDX and REASON, SQ_DONE stays, and the ring enters ERROR. Without a completion place the ring stalls (R167). -/
def malformedJob (q idx reason : Nat) (entry : List Byte) (s : State) : State :=
  let f := sqFunc s q
  let c := sqCq s q
  if (oldestJob s q).isSome then s
  else match freePlace s f c with
    | none => stallRings f c s
    | some p =>
      if p = .slot && ringSpilled s q then s
      else
        let j : Job := ⟨q, sqF s q, [entry], c, p, true, none, true⟩
        ringError q idx reason (postJob j ⟨1, idx, reason, 0, 0⟩ s)

/-- An entry stays stale for good. -/
def setStale (x : Fetched) (s : State) : State :=
  { s with rings := { s.rings with stale := x :: s.rings.stale.filter fun y => y.sq ≠ x.sq } }

/-- A ring whose entry is stale for good goes to ERROR with REASON PHASE once its earlier jobs are completed (R153,
R164). It posts a MALFORMED completion as other REASONs do, with OP and JOB_ID of the job's first entry, which may be the
stale one (DESIGN CHOICE, log entry 51). -/
def staleJob (q : Nat) (s : State) : State :=
  match s.rings.stale.find? fun x => x.sq = q with
  | some x => if sqState s q = 1 then malformedJob q x.idx 10 ((nextEntries s q).headD x.bytes) s else s
  | none => s

/-- What an entry fetch delivers to ring `q` for index `i` (R153, R154): at use it is used, found stale, or ends the
ring's progress; ahead of use an error has no effect. -/
def entryArrives (q i : Nat) (s : State) : State :=
  let f := sqFunc s q
  let n := sqN s q
  let a := sqAddr s q i
  let use := atUse s q && i = useIndex s q
  if use then
    match busRead f a 64 s with
    | (.ok bs, s) =>
      if ePhase bs = phaseOf n i then setTries q 0 (storeFetched q i bs s)
      else if 16 ≤ tries s q then staleJob q (setStale ⟨q, i, bs⟩ (setTries q 17 s))
      else setTries q (tries s q + 1) s
    | (.window _, s) => ringError q i 12 s
    | (.uncorr _, s) => ringError q i 11 s
  else if s.engineMay f a 64 then
    match eccRead f a 64 s with
    | (.ok bs, s) => if ePhase bs = phaseOf n i then storeFetched q i bs s else s
    | (_, s) => s
  else s

/-- RING_ERR_FIFO_POP (R175): a read of RING_ERR_FIFO answers VALID, OVF, REASON and SQ of the oldest error and removes
it; OVF clears with the read. -/
def execRingErrFifoPop (s : State) : Res :=
  s.whenLive fun s =>
    let ovf := b2n s.rings.errOvf * 2 ^ 30
    match s.rings.errFifo with
    | [] => answer ovf { s with rings := { s.rings with errOvf := false } }
    | (q, r) :: t =>
      answer (2 ^ 31 + ovf + r * 2 ^ 16 + q) { s with rings := { s.rings with errFifo := t, errOvf := false } }

end Sys2Proof.Machine
end

