-- ==== Sys2Proof/Machine/ServoWedge.lean ====
section
/-!
DEFINITION. Machine/ServoWedge.lean: the computation of one wedge (R360 to R382, R385, R389) and the strobe's work for
the write block (R289, R293, R297 to R299, R433).
-/

namespace Sys2Proof.Machine

open Sys2Proof

/-- An integer saturated to `n` bits. -/
def satI (n : Nat) (i : Int) : Int := clampI (-(2 ^ (n - 1) : Nat)) ((2 ^ (n - 1) : Nat) - 1) i

/-- Integer square root of a number below 4^n. -/
def isqrt (n v : Nat) : Nat :=
  (List.range n).foldl (fun r i =>
    let t := r + 2 ^ (n - 1 - i)
    if t * t ≤ v then t else r) 0

/-- Sign of an integer. -/
def sgn (i : Int) : Int := if 0 < i then 1 else if i < 0 then -1 else 0

/-- Linearised fraction of a raw one (R361). -/
def linFrac (s : State) (x h : Nat) (raw : Int) : Int :=
  let c := (raw + 2048).toNat
  let i := c / 128
  let f : Int := c % 128
  let a := s.rs (Reg.MED_SV_LIN x h i) 15 0
  let b := s.rs (Reg.MED_SV_LIN x h (i + 1)) 15 0
  a + Int.tdiv ((b - a) * f) 128

/-- A coefficient word of a bank, Q2.22 (R367). -/
def coef (s : State) (x b w : Nat) : Int := s.rs (Reg.MED_SV_COEF x b w) 23 0

/-- One biquad in transposed direct form II (R367), coefficients from word `w`. The states carry 22 fraction bits (DEDUCED,
log entry 28). -/
def biquad (s : State) (x b w : Nat) (st : Int × Int) (i : Int) : Int × (Int × Int) :=
  let u := satI 16 i
  let out := satI 16 ((coef s x b w * u + st.1) / 2 ^ 22)
  (out, (satI 40 (coef s x b (w + 1) * u - coef s x b (w + 3) * out + st.2),
         satI 40 (coef s x b (w + 2) * u - coef s x b (w + 4) * out)))

/-- `n` biquads in series, the first with its coefficients at word `w`. -/
def biquads (s : State) (x b : Nat) : Nat → Nat → List (Int × Int) → Int → Int × List (Int × Int)
  | 0, _, _, i => (i, [])
  | n + 1, w, sts, i =>
    let (o, st) := biquad s x b w (sts.headD (0, 0)) i
    let (o', rest) := biquads s x b n (w + 5) sts.tail o
    (o', st :: rest)

/-- A limit register where 0 acts as 1. -/
def svLimit (s : State) (a : Nat) : Int := orOne (s.rf a 23 0)

/-- One advance of the reference generator (R377): r, v, a, and whether it landed. -/
def refStep (s : State) (x : Nat) (target p v a : Int) : Int × Int × Int × Bool :=
  let vmax := svLimit s (Reg.MED_SV_VMAX x)
  let amax := svLimit s (Reg.MED_SV_AMAX x)
  let jmax := svLimit s (Reg.MED_SV_JMAX x)
  let tol : Int := s.rf (Reg.MED_SV_SETTLE x) 31 24
  let d := target - p
  let lim := min vmax (min (isqrt 32 (2 * amax.toNat * d.natAbs) : Int) ((d.natAbs / 2 : Nat) : Int))
  let vcmd := sgn d * lim
  let aa : Int := a.natAbs
  let tail := if aa ≤ jmax then 0 else Int.tdiv (sgn a * aa * (aa - jmax)) (2 * jmax)
  let acmd := clampI (-amax) amax (vcmd - v - tail)
  let a := a + clampI (-jmax) jmax (acmd - a)
  let v := clampI (-vmax) vmax (v + a)
  let p := p + v
  if (target - p).natAbs ≤ tol && v.natAbs ≤ tol then (target, 0, 0, true) else (p, v, a, false)

/-- Track of a wedge (R361): the Gray track, or its neighbour where it disagrees with the fraction's sign at a half-track
boundary or the linearised fraction passes 2,048. -/
def wedgeTrack (o : WedgeObs) (frac : Int) : Int :=
  let t : Int := o.track.toNat - (if o.disagree then (if 0 ≤ frac then 1 else -1) else 0)
  if 2048 < frac then t + 1 else if frac < -2048 then t - 1 else t

/-- Position of a good wedge (R361): the fraction belongs to the track before the last of these steps. -/
def wedgePos (s : State) (x h : Nat) (o : WedgeObs) : Int :=
  let f := linFrac s x h o.raw.toInt
  let t := wedgeTrack o f
  t * 4096 + (if 2048 < f then f - 4096 else if f < -2048 then f + 4096 else f)

/-- The wedge is good (R362). `ref`: the reference it is checked against, none where no track is expected. -/
def goodWedge (s : State) (x : Nat) (v : Sv) (o : WedgeObs) (ref : Option Int) : Bool :=
  (match o.sam with
   | some d => d.natAbs ≤ s.rf (Reg.MED_SV_MISS x) 15 8
   | none => false)
    && (match v.wedge with
        | some k => o.index.val = (k + 1) % 512
        | none => true)
    && (match ref with
        | some r => (wedgeTrack o (linFrac s x v.head o.raw.toInt) - r / 4096).natAbs ≤ s.rf (Reg.MED_SV_MISS x) 19 16
        | none => true)

/-- Wedge index after a strobe: the one read with a SAM, else the predicted one. -/
def nextIndex (v : Sv) (o : WedgeObs) : Option Nat :=
  match o.sam, v.wedge with
  | some _, _ => some o.index.val
  | none, some k => some ((k + 1) % 512)
  | none, none => none


/-- The retarget in force at a strobe: in tandem MEDA's with its track shifted by DELTA, as MEDB's own (R388). -/
def strobeTarget (s : State) (x : Nat) : Retarget :=
  if following s x then
    let t := (sv s 0).latest
    { t with track := t.track + s.rs (Reg.MED_SV_TANDEM 1) 23 0 }
  else (sv s x).latest

/-- At cycle 0 the effective target is recomputed (R376): a wedge whose target differs is a regeneration wedge, and moves
SETTLING and TRACKING to SEEKING from the reference at rest at the target it had. Answers the state and the regeneration
flag. -/
def takeTarget (x : Nat) (s : State) : State × Bool :=
  let v := sv s x
  let t := strobeTarget s x
  let (eff, cl) := effTarget s x t v.roffset v.head
  let s := modSv x (fun v =>
    { v with base := t, latest := t, fresh := false, clamped := cl, following := Machine.following s x }) s
  if eff = v.target then
    if v.st = .tracking && v.fresh then (wakeSettled x s, false) else (s, false)
  else
    let s := modSv x (fun w => { w with target := eff }) s
    if v.st = .settling || v.st = .tracking then
      (svEnter x .seeking (modSv x (fun w => { w with r := v.target, v := 0, a := 0 }) s), true)
    else (s, true)

/-- A good wedge, or a missed one with its count and fault (R362). -/
def countWedge (x : Nat) (good : Bool) (s : State) : State :=
  if good then modSv x (fun v => { v with miss := 0 }) s
  else
    let first := (sv s x).miss = 0
    let s := modSv x (fun v => { v with miss := min 15 (v.miss + 1) }) (s.bump (Reg.MED_SV_WEDGE_MISS x))
    let s := if first then svEvent x 2 s else s
    traceOn x 4 s

/-- The write-unsafe decision at the end of stage 1 (R381); the gate falls with an assertion (R302). -/
def wusDecide (x : Nat) (good : Bool) (s : State) : State :=
  let v := sv s x
  let thr := s.rf (Reg.MED_SV_WUS x) 11 0
  if v.st = .tracking && good && v.pes.natAbs ≤ thr then
    let n := v.wusRun + 1
    modSv x (fun v => { v with wusRun := n, wus := if orOne (s.rf (Reg.MED_SV_WUS x) 19 16) ≤ n then false else v.wus }) s
  else
    let s := modSv x (fun v => { v with wusRun := 0 }) (assertWus x s)
    if (med s x).wr.writing then stopNow x 1 s else s

/-- The settle rule of SETTLING (R379). -/
def settleStep (x : Nat) (good : Bool) (s : State) : State :=
  let v := sv s x
  if v.st = .settling then
    let n := if good && v.pes.natAbs ≤ s.rf (Reg.MED_SV_SETTLE x) 11 0 then v.settleRun + 1 else 0
    if orOne (s.rf (Reg.MED_SV_SETTLE x) 19 16) ≤ n then wakeSettled x (svEnter x .tracking s)
    else modSv x (fun v => { v with settleRun := n }) s
  else s

/-- Stage 2 in SEEKING, and in the first part of UNLOADING (R377, R385). -/
def refAdvance (x : Nat) (s : State) : State :=
  let v := sv s x
  if v.st = .seeking || (v.st = .unloading && !v.driving) then
    let t := if v.st = .unloading then (s.rf (Reg.MED_SV_MIN_TRACK x) 23 0 : Int) * 4096 else v.target
    let (r, vel, acc, landed) := refStep s x t v.r v.v v.a
    let s := modSv x (fun v => { v with r := r, v := vel, a := acc }) s
    if landed then
      if v.st = .unloading then modSv x (fun v => { v with driving := true }) s else svEnter x .settling s
    else s
  else s

/-- What stages 3 to 10 give. -/
structure Law where
  ma : Int
  yma : Int
  vcm : Int
  xf : Int
  sts : List (Int × Int)
  /-- A clamp or the slew limit acted. -/
  clamped : Bool
  deriving DecidableEq, Repr

/-- Stages 3 to 10 of the control law (R366, R374). -/
def lawStages (s : State) (x : Nat) (v : Sv) (other : List Int) : Law :=
  let b := v.bank
  let e := satI 16 (-v.pes)
  let (u, c1) := biquads s x b 6 0 v.biquads e
  let xf := if v.xfEn then
      ((List.range 16).foldl (fun acc i => acc + coef s x b (80 + i) * other.getD i 0) 0) / 2 ^ 22 else 0
  let mlim : Int := s.rf (Reg.MED_SV_CLAMP x) 31 16
  let ma := clampI (-mlim) mlim (u + xf)
  let (yma, c2) := biquads s x b 2 30 (v.biquads.drop 6) ma
  let (w, c3) := biquads s x b 6 40 (v.biquads.drop 8) (satI 16 (-v.pes + yma))
  let (w, c4) := biquads s x b 2 70 (v.biquads.drop 14) (satI 16 (w + coef s x b 96 * v.a / 2 ^ 22))
  let vlim : Int := s.rf (Reg.MED_SV_CLAMP x) 15 0
  let slew : Int := s.rf (Reg.MED_SV_SLEW x) 15 0
  let c := clampI (-vlim) vlim w
  let vcm := clampI (v.vcm - slew) (v.vcm + slew) c
  ⟨satI 16 ma, yma, satI 16 vcm, satI 16 xf, c1 ++ c2 ++ c3 ++ c4, ma ≠ u + xf || vcm ≠ w⟩

/-- Output-ready cycle (R366, R370). -/
def readyCycle (v : Sv) (regen : Bool) (writes : Nat) : Nat :=
  1632 + (if regen then 896 else 0) + (if v.xfEn then 256 else 0) + (if v.timing then 0 else 2 * writes)

/-- DEADLINE in effect (Table "Servo registers"). -/
def deadline (s : State) (x : Nat) : Nat := clampN 512 12800 (s.rf (Reg.MED_SV_DEADLINE x) 13 0)

/-- The following-error counter of stage 10 (R382): the count, and whether it faults. -/
def feStep (s : State) (x : Nat) (v : Sv) : Nat × Bool :=
  let n := if s.rf (Reg.MED_SV_FE x) 11 0 < v.pes.natAbs then min 511 (v.fe + 1) else 0
  (n, s.rf (Reg.MED_SV_FE x) 23 16 < n)

/-- A node of the trace (Table "Trace nodes and triggers"). -/
def traceNode (s : State) (x k : Nat) : Int :=
  let v := sv s x
  match k with
  | 0 => v.pes
  | 1 => v.y
  | 2 => v.r
  | 3 => v.vcm
  | 4 => v.ma
  | 5 => v.yma
  | 6 => v.xf
  | 7 => v.v
  | 8 => v.a
  | 9 => (sv s (1 - x)).hist.headD 0
  | 10 => v.fe
  | 11 => v.amp
  | _ => 0

/-- Code of an engine state (R364). -/
def SvSt.code : SvSt → Nat
  | .off => 0 | .loading => 1 | .seeking => 2 | .settling => 3 | .tracking => 4 | .unloading => 5 | .fault => 6
  | .held => 7

/-- Stage 12: one trace record, and the end of the post count (R389). -/
def traceCapture (x : Nat) (miss dl regen : Bool) (s : State) : State :=
  let s := if regen then traceOn x 7 s else s
  let ctl := Reg.MED_SV_TRACE_CTRL x
  let s := if s.rf ctl 19 16 = 6 && (s.reg (Reg.MED_SV_TRACE_THR x)).toNat < (traceNode s x (s.rf ctl 7 4)).natAbs
    then traceTrigger x s else s
  let v := sv s x
  if v.trace = .armed || v.trace = .triggered then
    let w (k : Nat) : Word := BitVec.ofInt 32 (traceNode s x k)
    let w0 := v.wedge.getD 0 + v.st.code * 2 ^ 12 + b2n v.wus * 2 ^ 15 + b2n miss * 2 ^ 16 + b2n dl * 2 ^ 17
      + b2n regen * 2 ^ 18 + b2n v.xfEn * 2 ^ 19 + (if dl then 4095 else min 4095 v.cycles) * 2 ^ 20
    let r := (BitVec.ofNat 32 w0, w (s.rf ctl 7 4), w (s.rf ctl 11 8), w (s.rf ctl 15 12))
    let post := if v.trace = .triggered && v.wptr ≠ v.trigIdx then v.post - 1 else v.post
    let fin := v.trace = .triggered && post = 0
    let s := modSv x (fun v =>
      { v with records := Sparse.set (fun _ => (0, 0, 0, 0)) v.records v.wptr r, wptr := (v.wptr + 1) % 8192,
               wrapped := v.wrapped || v.wptr = 8191, post := post, trace := if fin then .done else v.trace }) s
    if fin then svEvent x 3 s else s
  else s

/-- Stages 3 to 12 of a computing wedge (R366 to R370, R382). -/
def lawStep (x : Nat) (o : WedgeObs) (miss regen : Bool) (s : State) : State :=
  let v := sv s x
  let l := lawStages s x v (sv s (1 - x)).hist
  let ready := readyCycle v regen o.coefWrites
  let late := !v.timing && deadline s x < ready
  let (fe, bad) := feStep s x v
  let sup := v.st ≠ .unloading
  let s := modSv x (fun v => { v with biquads := l.sts, xf := l.xf, cycles := min 4095 ready,
                                      fe := if sup then fe else v.fe }) s
  let s := s.setReg (Reg.MED_SV_MAXCYC x) (BitVec.ofNat 32 (max (s.rf (Reg.MED_SV_MAXCYC x) 11 0) (min 4095 ready)))
  let s := if l.clamped then s.bump (Reg.MED_SV_CLAMPS x) else s
  if sup && bad then servoFault x 1 s
  else
    let s :=
      if late then
        let (yma, m) := biquads s x v.bank 2 30 (v.biquads.drop 6) v.ma
        let s := modSv x (fun w => { w with yma := yma, biquads := l.sts.take 6 ++ m ++ l.sts.drop 8 }) s
        traceOn x 3 (svEvent x 1 (s.bump (Reg.MED_SV_DL_MISS x)))
      else
        modSv x (fun w => { w with vcm := l.vcm, ma := l.ma, yma := l.yma,
                                   hist := if sup then (l.vcm :: w.hist).take 16 else w.hist }) s
    traceCapture x miss late regen s

/-- A computing wedge: stages 1 to 12 in SEEKING, SETTLING, TRACKING, and the seek of UNLOADING (R366, R380, R385). -/
def computeWedge (x : Nat) (o : WedgeObs) (s : State) : State :=
  let (s, regen) := if (sv s x).st = .unloading then (s, false) else takeTarget x s
  let v := sv s x
  let good := goodWedge s x v o (if v.rebase then none else some v.r)
  let y := wedgePos s x v.head o
  let s :=
    if v.rebase && good then
      let s := modSv x (fun v => { v with rebase := false, r := y }) s
      if v.st = .settling || v.st = .tracking then svEnter x .seeking s else s
    else s
  let s := modSv x (fun v =>
    let y := if good then y else v.r + v.pes
    { v with y := y, pes := y - v.r, wedge := nextIndex v o, amp := o.amp.toNat }) s
  let s := countWedge x good s
  if !good && orOne (s.rf (Reg.MED_SV_MISS x) 3 0) ≤ (sv s x).miss then servoFault x 2 (wusDecide x good s)
  else lawStep x o (!good) regen (refAdvance x (settleStep x good (wusDecide x good s)))

/-- A wedge of LOADING (R385): the load drive, and the fourth good wedge in a row. Missed wedges count under either ramp drive,
but only RAMP_TIMEOUT leads from them to FAULT (R362, R364; DEDUCED, log entry 22). -/
def loadWedge (x : Nat) (o : WedgeObs) (s : State) : State :=
  let v := sv s x
  let good := goodWedge s x v o none
  let y := wedgePos s x v.head o
  let n := if good then v.goodRun + 1 else 0
  let s := modSv x (fun v =>
    { v with goodRun := n, vcm := s.rs (Reg.MED_SV_LOAD x) 15 0, ma := 0, wedge := nextIndex v o, amp := o.amp.toNat,
             y := if good then y else v.y }) (countWedge x good s)
  if 4 ≤ n then
    let s := modSv x (fun v => { v with r := y, v := 0, a := 0, pes := 0, rebase := false }) s
    (takeTarget x (svEnter x .seeking s)).1
  else s

/-- The unload drive (R385). -/
def unloadDrive (x : Nat) (o : WedgeObs) (s : State) : State :=
  modSv x (fun v => { v with vcm := s.rs (Reg.MED_SV_UNLOAD x) 15 0, ma := 0, xf := 0, wedge := nextIndex v o,
                             amp := o.amp.toNat }) (countWedge x (goodWedge s x (sv s x) o none) s)

/-- The servo engine's work at a strobe: the settings that take effect there (R371, R372), then the state's work. -/
def servoWedge (x : Nat) (o : WedgeObs) (s : State) : State :=
  let c := Reg.MED_SV_CTRL x
  let h := (med s x).wr.head
  let s := modSv x (fun v => { v with timing := s.rb c 0, xfEn := s.rb c 1, bank := b2n (s.rb c 2),
                                      rebase := v.rebase || v.head ≠ h, head := h }) s
  match (sv s x).st with
  | .loading => loadWedge x o (modSv x (fun v => { v with hist := List.replicate 16 0 }) s)
  | .unloading =>
    let s := modSv x (fun v => { v with hist := List.replicate 16 0 }) s
    if (sv s x).driving then unloadDrive x o s else computeWedge x o s
  | .seeking => computeWedge x o s
  | .settling => computeWedge x o s
  | .tracking => computeWedge x o s
  | _ => s

/-- A transaction of the strobe, its good data handed on (R286). -/
def palRead (x addr : Nat) (o : PalObs) (k : Nat → State → State) (s : State) : State :=
  let s := (palOut x (min 3 (o.fails + 1)) false addr 0 s).bump (Reg.MED_PAL_ERRORS x) o.fails
  if o.fails = 3 then linkError x s else k o.data.toNat (palApply x addr o.data.toNat s)

/-- A head of the actuator is loaded. -/
def headLoaded (s : State) (x : Nat) : Bool :=
  match (sv s x).st with
  | .seeking => true
  | .settling => true
  | .tracking => true
  | .unloading => true
  | _ => false

/-- Touchdown and sweep at a strobe, `e` the energy read (R298, R299). -/
def tdStrobe (x e : Nat) (s : State) : State :=
  if (med s x).wr.sweep.isSome then sweepStep x e s
  else
    let (n, base, hit) := tdStep s x e
    let s := modWr x (fun w => { w with tdStreak := if hit then 0 else n, tdBase := base }) s
    if hit then touchdown x s else s

/-- The head's heat estimate moves halfway toward a measured level (R433). -/
def heatHalf (x code : Nat) (s : State) : State :=
  let h := (med s x).wr.head
  let cur := headHeat s x h
  s.setRf (Reg.BA_HEAT x h) 15 0 (unsigned 16 (cur + (assistLevel s x code - cur) / 2))

/-- The preamp's part of a strobe (R286, R289, R293, R297 to R299, R433). -/
def preampStrobe (x : Nat) (o : WedgeObs) (s : State) : State :=
  if !(med s x).wr.linkUp then palRead x 0 o.id (fun _ s => s) s
  else
    let s := if (med s x).wr.fltSubst || s.rb (Reg.MED_WR_CTRL x) 4 then palRead x 8 o.fault (fun _ s => s) s else s
    let s :=
      if (med s x).wr.aen then
        if o.early || !(med s x).wr.linkUp then s else palRead x 6 o.nft (fun c s => assistStep x (c % 1024) s) s
      else if wrKind s x = 1 && headLoaded s x && (sv s x).wedge = some 0 && (med s x).wr.linkUp then
        palRead x 6 o.nft (fun c s => heatHalf x (c % 1024) s) s
      else s
    let s := if (s.rb (Reg.MED_WR_CTRL x) 3 || (med s x).wr.sweep.isSome) && headLoaded s x && (med s x).wr.linkUp then
        palRead x 7 o.td (tdStrobe x) s else s
    heaterStep x s

end Sys2Proof.Machine
end

