-- ==== Sys2Proof/Machine/CalCmds.lean ====
section
/-!
DEFINITION. Machine/CalCmds.lean: commands of the calibration controller (spec/16), and the wedge strobe, whose last part
is the controller's.
-/

namespace Sys2Proof.Machine

open Sys2Proof Host

/-- WEDGE_STROBE (R289, R291, R293, R297 to R299, R360 to R382, R389, R450): the strobe of one wedge of an actuator; a
sector being written is interrupted for the servo field. -/
def execWedgeStrobe (x : Fin 2) (o : WedgeObs) (s : State) : Res :=
  s.whenLive fun s => modWr x Wr.toField (calStrobe x (preampStrobe x o (servoWedge x o s)))

/-- CAL_REQUEST (R447): `m` is written to CAL_REQ. -/
def execCalRequest (m : BitVec 8) (s : State) : Res :=
  s.whenLive fun s =>
    (List.range 8).foldl (fun s k =>
      if m.getLsbD k && s.rb Reg.CAL_CTRL 0 && s.rb (Reg.CAL_SUB_CFG k) 7 then s.setRb Reg.CAL_STATUS (8 + k) true else s) s

/-- CAL_RUN_START (R448, R449): a pending run starts at its boundary; `heads` are the loaded heads of a fly-height run. -/
def execCalRunStart (k : Fin 8) (heads : BitVec 12) (s : State) : Res :=
  s.whenLive fun s =>
    if calPending s k && !calActive s k && !s.fenced (calOwner k) && calBoundary s k then
      let s := (s.setRb Reg.CAL_STATUS (8 + k) false).setRb Reg.CAL_STATUS k true
      let s := { s with cal := { s.cal with forced := s.cal.forced.filter fun j => j ≠ k.val } }
      if k.val < 2 then
        { s with cal := { s.cal with periods := s.cal.periods.filter fun p => p.1 / 68 ≠ k.val } }
      else if k.val < 4 then
        let x := k.val - 2
        let hs := (List.range 12).filter fun h => heads.getLsbD h && !s.rb (Reg.CAL_FH_HEAD x h) 12
        grantToken x (fhNext x (setFh x (some ⟨hs, none, none, false⟩) s))
      else s
    else s

/-- CAL_DEFER_TIMEOUT (R448): no boundary within DEFER_MS. Subsystems 2 to 4 are forced; the others are never, or need
not be. -/
def execCalDeferTimeout (k : Fin 8) (s : State) : Res :=
  s.whenLive fun s =>
    if calPending s k && !calActive s k && s.rf (Reg.CAL_SUB_CFG k) 31 16 ≠ 0 && 2 ≤ k.val && k.val ≤ 4
        && !s.cal.forced.contains k.val then
      calEvent 2 { s with cal := { s.cal with forced := k.val :: s.cal.forced } }
    else s

/-- CAL_RUN_TIMEOUT (R448): an ADC run has not completed within TMO_MS. -/
def execCalRunTimeout (k : Fin 8) (s : State) : Res :=
  s.whenLive fun s => if k.val < 2 && calActive s k then calEnd k 2 s else s

/-- A measurement of a slice is kept: MEDx_ADC_MEAS, one more period and a fresh error (R314, R447). -/
def adcMeasured (x r k : Nat) (off gain skew : BitVec 8) (s : State) : State :=
  let key := sliceKey x r k
  let s := s.setReg (Reg.MED_ADC_MEAS x r k) (BitVec.ofNat 32 (off.toNat + gain.toNat * 2 ^ 8 + skew.toNat * 2 ^ 16))
  { s with cal := { s.cal with
    periods := (key, (s.cal.periods.lookup key).getD 0 + 1) :: s.cal.periods.filter fun p => p.1 ≠ key
    fresh := key :: s.cal.fresh.filter fun j => j ≠ key } }

/-- ADC_MEAS_PERIOD (R314, R447): a measurement period of slice `k` of reader `r` ends with its measured errors; a good
spare moves its shadow to the next phase. -/
def execAdcMeasPeriod (x : Fin 2) (r : Fin 2) (k : Fin 34) (off gain skew : BitVec 8) (s : State) : Res :=
  s.whenLive fun s =>
    if calActive s x && (med s x).rc.run && !s.fenced (2 + x) then
      let s := adcMeasured x r k off gain skew s
      match (spareSlices s x r).findIdx? fun j => j = k.val with
      | some j =>
        if sliceBad s x r k then s
        else modRc x (fun c => { c with shadow := c.shadow.set (r * 2 + j) ((c.shadow.getD (r * 2 + j) 0 + 1) % 32) }) s
      | none => s
    else s

/-- CAL_RUN_END (R447, R450, R451): a run ends once its measurements are done, `o` what they show. -/
def execCalRunEnd (k : Fin 8) (o : CalObs) (s : State) : Res :=
  s.whenLive fun s =>
    if !calActive s k || s.fenced (calOwner k) then s
    else if k.val < 2 then (if adcRunDone s k then calEnd k 1 s else s)
    else if k.val < 4 then
      match fhRun s (k.val - 2) with
      | some r => if r.todo.isEmpty && r.cur.isNone && r.moving.isNone then calEnd k (if r.failed then 3 else 1) s else s
      | none => s
    else if k.val = 4 then
      let (s, down) := calFlashEnd o.rates s
      calEnd k (if down then 3 else 1) s
    else
      let (s, short) := o.eyes.foldl (eyeEnd k) (s, false)
      if short then calEnd k 4 (calEvent 4 s) else calEnd k 1 s

end Sys2Proof.Machine
end

