-- ==== Sys2Proof/Machine/CfOps.lean ====
section
/-!
DEFINITION. Machine/CfOps.lean: the code-flash array, the checks of the ROM routine, pulses and verifies, and the XIP
controller (R479 to R488), as shared operations.
-/

namespace Sys2Proof.Machine

open Sys2Proof

/-- Bytes of the array (Table "Code-flash geometry"). -/
def cfSize : Nat := 0x4000000

/-- Bank of an offset. -/
def cfBank (off : Nat) : Nat := off / 0x2000000

namespace State

/-- Where a Crucible address lies in the service cores' map, for the memories an access of the core may read (Table
"Crucible address map"); private SRAM keeps its own address, which no other agent can issue. -/
def cruAddr (s : State) (a n : Nat) : Option Nat :=
  if 0x10000000 ≤ a && a + n ≤ 0x11000000 then some a
  else if 0x30000000 ≤ a && a + n ≤ 0x30020000 then some a
  else if 0xC0000000 ≤ a && a + n ≤ 0xD0000000 then
    let p := s.rf Reg.CRU_APERTURE 11 0 * 2 ^ 28 + (a - 0xC0000000)
    if s.inDram p n then some p else none
  else none

end State

/-- A sector range register covers some byte of `off … off + n - 1` (R484, R490). -/
def cfCovers (s : State) (r off n : Nat) : Bool :=
  s.rb r 30 && s.rf r 13 0 * 4096 < off + n && off < (s.rf r 29 16 + 1) * 4096 && s.rf r 13 0 ≤ s.rf r 29 16

/-- Regions of the partition that REMELT still lets Crucible write: recorder, settings copies and spares (R484). -/
def cfFreeInRemelt (off n : Nat) : Bool :=
  let within (lo hi : Nat) : Bool := lo ≤ off && off + n ≤ hi + 1
  within 0x100000 0x1FFFFF || within 0x1E00000 0x1FFFFFF || within 0x2100000 0x21FFFFF || within 0x3A00000 0x3FFFFFF

/-- Protection of a target (R484). -/
def cfProtected (s : State) (off n : Nat) : Bool :=
  ((List.range 4).any fun w => cfCovers s (Reg.CF_WLOCK w) off n)
  || s.lcState = 4 || (s.lcState = 3 && !cfFreeInRemelt off n)

/-- An address of the Crucible map that is an XIP address of a bank (R485). -/
def xipInBank (a b : Nat) : Bool :=
  0x8000000 ≤ a && a < 0xC000000 && cfBank (a - 0x8000000) = b

/-- A call of the routine: kind, offset, bytes, data of a program, FLAGS.STALL, and the banks rule's two addresses. -/
structure CfCall where
  kind : Nat
  off : Nat
  len : Nat
  data : List Byte
  stall : Bool
  ra : Nat
  mtvec : Nat
  deriving DecidableEq, Repr

/-- Checks 2 to 4 of R484: status and a1, or none where the call is accepted. -/
def cfRefused (s : State) (c : CfCall) : Option (Nat × Nat) :=
  if cfProtected s c.off c.len then some (4, 0)
  else if !c.stall && (xipInBank c.ra (cfBank c.off) || xipInBank c.mtvec (cfBank c.off)) then some (3, 0)
  else if c.kind = 1 then
    match (List.range (c.len / 4)).find? fun k => s.flashWord (c.off + 4 * k) ≠ 0xFFFFFFFF with
    | some k => some (1, c.off + 4 * k)
    | none => none
  else none

/-- Record a call's end in CF_LAST and CF_LAST_ADDR, and return (R483, R490). -/
def cfReturn (kind st a1 pulses : Nat) (s : State) : State :=
  let s := s.setReg Reg.CF_LAST (BitVec.ofNat 32 (st + kind * 2 ^ 4 + pulses * 2 ^ 8))
  let s := s.setReg Reg.CF_LAST_ADDR (BitVec.ofNat 32 a1)
  { s with cf := { s.cf with ret := ⟨st, a1, pulses⟩ } }

/-- CF_STATUS and CFX_STATUS while the operation runs (R490, R491). -/
def cfShow (s : State) : State :=
  let fail := if s.rb Reg.CF_STATUS 2 then 4 else 0
  match s.cf.op with
  | some p =>
    let s := s.setReg Reg.CF_STATUS (BitVec.ofNat 32 (1 + cfBank p.off * 2 + fail + p.kind * 2 ^ 4 + p.attempt * 2 ^ 8))
    s.setRf Reg.CFX_STATUS 1 0 (2 ^ cfBank p.off)
  | none => (s.setReg Reg.CF_STATUS (BitVec.ofNat 32 fail)).setRf Reg.CFX_STATUS 1 0 0

/-- Start an accepted call: the page buffer and the controller's registers are loaded, FAIL is clear, and the first pulse
begins (R486). -/
def cfStart (c : CfCall) (s : State) : State :=
  let s := s.setReg Reg.CF_ACTL_CMD (BitVec.ofNat 32 (c.kind + b2n c.stall * 2 ^ 4))
  let s := s.setReg Reg.CF_ACTL_ADDR (BitVec.ofNat 32 c.off)
  let s := if c.kind = 1 then
      let s := s.setReg Reg.CF_ACTL_LEN (BitVec.ofNat 32 c.len)
      (List.range (c.len / 4)).foldl (fun s k =>
        s.setReg (Reg.CF_ACTL_BUF k) (BitVec.ofNat 32 (field c.data (4 * k) 4))) s
    else s
  cfShow { s with cf := { s.cf with op := some ⟨c.kind, c.off, c.len, 1, c.stall, false⟩ } }

/-- Word `k` of the data of an operation: of the page buffer, or all ones. -/
def cfTarget (s : State) (p : CfOp) (k : Nat) : Nat :=
  if p.kind = 1 then (s.reg (Reg.CF_ACTL_BUF k)).toNat else 0xFFFFFFFF

/-- Words of the target that fail: differ from their data (R486). -/
def cfFailing (s : State) (p : CfOp) : List Nat :=
  if p.kind = 1 then (List.range (p.len / 4)).filter fun k => s.flashWord (p.off + 4 * k) ≠ cfTarget s p k
  else s.cf.arr.filterMap fun (a, _) => if p.off ≤ a && a < p.off + p.len then some ((a - p.off) / 4) else none

/-- The first program word that holds a 0 where its data is 1 (R486). -/
def cfOverdone (s : State) (p : CfOp) : Option Nat :=
  if p.kind = 1 then
    (List.range (p.len / 4)).find? fun k =>
      s.flashWord (p.off + 4 * k) &&& cfTarget s p k ≠ cfTarget s p k
  else none

/-- One pulse. `left` gives, for words of the target, what the pulse leaves: without an entry a word comes out right. A
program can only clear bits (Table "Code-flash geometry"). -/
def cfPulse (p : CfOp) (left : List (Nat × Nat)) (s : State) : State :=
  if p.kind = 1 then
    (cfFailing s p).foldl (fun s k =>
      let old := s.flashWord (p.off + 4 * k)
      let v := match left.lookup k with
        | some x => x
        | none => cfTarget s p k
      s.setFlash (p.off + 4 * k) (leBytes 4 (old &&& v))) s
  else
    left.foldl (fun s (k, v) => if 4 * k < p.len then s.setFlash (p.off + 4 * k) (leBytes 4 v) else s)
      (s.eraseFlash p.off p.len)

/-- Invalidation at the end of an operation (R480): the target bank's prefetch lines and branch-cache entries, and the
level-2 lines of the target range. -/
def xipInvalidate (off n : Nat) (s : State) : State :=
  let b := cfBank off
  let f := s.cf
  let f := { f with bc := f.bc.filter fun l => cfBank (32 * l) ≠ b,
                    l2 := f.l2.filter fun l => 32 * l + 32 ≤ off || off + n ≤ 32 * l }
  let f := if b = 0 then { f with pf0 := [] } else { f with pf1 := [] }
  ({ s with cf := f }).bump Reg.CFX_INVAL

/-- The hidden range holds a line (R481). -/
def xipHidden (s : State) (l : Nat) : Bool := cfCovers s Reg.CF_HIDE (32 * l) 32

/-- Deliver a line's bytes: words inside the target of an operation are free values (R487). -/
def xipDeliver (l : Nat) (s : State) : State :=
  let bs := s.flash (32 * l) 32
  let (bs, s) := match s.cf.op with
    | some p =>
      let (fs, s) := s.drawBytes 32
      (bs.mapIdx fun i b => if p.off ≤ 32 * l + i && 32 * l + i < p.off + p.len then fs.getD i 0 else b, s)
    | none => (bs, s)
  { s with cf := { s.cf with line := bs }, resp := ⟨BitVec.ofNat 64 (field bs 0 4), false⟩ }

/-- Serve a read of a line (R479, R481): from the prefetch buffer, the branch cache or the array; then prefetch the next
four lines of the bank. -/
def xipServe (l : Nat) (cru : Bool) (s : State) : State :=
  if !cru && xipHidden s l then { s with resp := ⟨0, true⟩ } else
    let b := cfBank (32 * l)
    let pf := if b = 0 then s.cf.pf0 else s.cf.pf1
    let last := if b = 0 then s.cf.last0 else s.cf.last1
    let inBc := decide (l ∈ s.cf.bc)
    let s := if l ∈ pf then s.bump Reg.CFX_PF_HITS else if inBc then s.bump Reg.CFX_BC_HITS else s.bump Reg.CFX_MISSES
    let jump : Bool := last.map (· + 1) ≠ some l
    let bc := if s.rb Reg.CFX_CTRL 1 && (jump || (inBc && l ∉ pf)) then (l :: s.cf.bc.filter (· ≠ l)).take 64 else s.cf.bc
    let pf := if s.rb Reg.CFX_CTRL 0 then
        (List.range 4).filterMap fun k => if cfBank (32 * (l + 1 + k)) = b then some (l + 1 + k) else none
      else []
    let f := { s.cf with bc := bc, l2 := if cru then s.cf.l2 else l :: s.cf.l2.filter (· ≠ l) }
    let f := if b = 0 then { f with pf0 := pf, last0 := some l } else { f with pf1 := pf, last1 := some l }
    xipDeliver l { s with cf := f }

/-- A read gap: every waiting read is served, but for the Crucible core's under STALL (R485, R487). -/
def readGap (s : State) : State :=
  let stall := match s.cf.op with
    | some p => p.stall
    | none => false
  let (wait, go) := s.cf.waiting.partition fun (_, c) => c && stall
  go.foldl (fun s (l, c) => xipServe l c s) { s with cf := { s.cf with waiting := wait } }

/-- A call ends after its pulses (R480, R486): OK, or VERIFY_FAIL with the word at fault; then every held read is served. -/
def cfFinish (p : CfOp) (fault : Option Nat) (s : State) : State :=
  let s := xipInvalidate p.off p.len { s with cf := { s.cf with op := none } }
  let s := match fault with
    | none => cfReturn p.kind 0 0 p.attempt (s.bump Reg.CF_OPS)
    | some k =>
      raise 248 (cfReturn p.kind 2 (p.off + 4 * k) p.attempt ((s.bump Reg.CF_FAILS).setRb Reg.CF_STATUS 2 true))
  readGap (cfShow s)

/-- The end of a verify (R486): return, fail, or begin the next pulse. -/
def cfVerify (p : CfOp) (s : State) : State :=
  match cfOverdone s p with
  | some k => cfFinish p (some k) s
  | none =>
    match cfFailing s p with
    | [] => cfFinish p none s
    | k :: ks =>
      if p.attempt = 16 then cfFinish p (some (ks.foldl min k)) s
      else
        let q := { p with attempt := p.attempt + 1, verifying := false }
        cfShow (readGap { s with cf := { s.cf with op := some q } })

/-- A whole call that Crucible makes within another command, from private SRAM and with STALL 0: status 0 to 5 and the
state after it. `ok` false: its verify still fails after 16 pulses, and what the target then holds is free. -/
def cfDo (kind off : Nat) (data : List Byte) (ok : Bool) (s : State) : Nat × State :=
  let len := if kind = 1 then data.length else if kind = 2 then 4096 else 65536
  let c : CfCall := ⟨kind, off, len, data, false, 0x30000000, 0x30000000⟩
  let s := s.setRb Reg.CF_STATUS 2 false
  match cfRefused s c with
  | some (st, a1) => (st, cfReturn kind st a1 0 s)
  | none =>
    let s := cfStart c s
    let p : CfOp := ⟨kind, off, len, if ok then 1 else 16, false, true⟩
    if ok then (0, cfFinish p none (cfPulse p [] s))
    else
      let (bs, s) := s.drawBytes len
      (2, cfFinish p (some 0) (s.setFlash off bs))

/-- Program bytes that may pass page ends, a page at a time, stopping at the first status other than OK. `fails` is the
call that does not verify, counted from 0, and the number left is returned for the calls that follow. -/
def cfPages : Nat → Nat → List Byte → Option Nat → State → (Nat × Option Nat) × State
  | 0, _, _, f, s => ((0, f), s)
  | fuel + 1, off, data, f, s =>
    if data.isEmpty then ((0, f), s)
    else
      let n := min data.length (256 - off % 256)
      match cfDo 1 off (data.take n) (f ≠ some 0) s with
      | (0, s) => cfPages fuel (off + n) (data.drop n) (f.map (· - 1)) s
      | (st, s) => ((st, f), s)

/-- Program a run of bytes (whole words). -/
def cfWrite (off : Nat) (data : List Byte) (f : Option Nat) (s : State) : (Nat × Option Nat) × State :=
  cfPages (data.length / 4 + 1) off data f s

end Sys2Proof.Machine
end

