-- ==== Sys2Proof/Machine/CfCmds.lean ====
section
/-!
DEFINITION. Machine/CfCmds.lean: commands of the code flash: the ROM routine's entries, pulse and verify, line reads of
the XIP controller and level-2 invalidation (spec/18).
-/

namespace Sys2Proof.Machine

open Sys2Proof Host

/-- A call of the routine with its arguments checked (R483, R484): BAD_ARGS where they are ill formed or a call is in
progress. FAIL is cleared at the start of a call; an earlier call in progress is unaffected. -/
def cfEntry (kind : Nat) (ok : Bool) (c : CfCall) (s : State) : State :=
  if s.cf.op.isSome then cfReturn kind 5 0 0 s
  else
    let s := s.setRb Reg.CF_STATUS 2 false
    if !ok then cfReturn kind 5 0 0 s
    else
      match cfRefused s c with
      | some (st, a1) => cfReturn kind st a1 0 s
      | none => cfStart c s

/-- CF_PROGRAM (R483, R486): a0 to a3, with the return address and the trap vector of the bank rule (R485). -/
def execCfProgram (off src len flags ra mtvec : BitVec 32) (s : State) : Res :=
  s.whenLive fun s =>
    let o := off.toNat
    let n := len.toNat
    let from_ := s.cruAddr src.toNat n
    let ok := o % 4 = 0 && n % 4 = 0 && 4 ≤ n && n ≤ 256 && o + n ≤ cfSize && o / 256 = (o + n - 1) / 256
      && src.toNat % 4 = 0 && from_.isSome && flags.toNat < 2
    cfEntry 1 ok ⟨1, o, n, s.bytes (from_.getD 0) n, bit flags 0, ra.toNat, mtvec.toNat⟩ s

/-- CF_ERASE (R483, R486). -/
def execCfErase (off kind flags ra mtvec : BitVec 32) (s : State) : Res :=
  s.whenLive fun s =>
    let o := off.toNat
    let n := if kind = 0 then 4096 else 65536
    let k := if kind = 0 then 2 else if kind = 1 then 3 else 0
    let ok := kind.toNat < 2 && o % n = 0 && o + n ≤ cfSize && flags.toNat < 2
    cfEntry k ok ⟨k, o, n, [], bit flags 0, ra.toNat, mtvec.toNat⟩ s

/-- CF_INFO (R483): always CF_OK, the value of CF_STATUS and the routine revision. -/
def execCfInfo (s : State) : Res :=
  s.whenLive fun s => { s with cf := { s.cf with ret := ⟨0, (s.reg Reg.CF_STATUS).toNat, 0x10000⟩ } }

/-- CF_PULSE_END (R486, R487): the pulse leaves the target as the operand says, a read gap opens and the verify begins. -/
def execCfPulseEnd (left : List (Fin 16384 × BitVec 32)) (s : State) : Res :=
  s.whenLive fun s =>
    match s.cf.op with
    | some p =>
      if p.verifying then s
      else
        let s := cfPulse p (left.map fun (k, v) => (k.val, v.toNat)) s
        readGap { s with cf := { s.cf with op := some { p with verifying := true } } }
    | none => s

/-- CF_VERIFY_DONE (R486, R487). -/
def execCfVerifyDone (s : State) : Res :=
  s.whenLive fun s =>
    match s.cf.op with
    | some p => if p.verifying then cfVerify p s else s
    | none => s

/-- XIP_READ (R479, R481, R487): a line fill, by the Crucible core or for the service cores. A read of a bank whose array
works waits for a gap and is counted. -/
def execXipRead (l : Fin 2097152) (cru : Bool) (s : State) : Res :=
  s.whenLive fun s =>
    if !cru && xipHidden s l.val then { s with resp := ⟨0, true⟩ }
    else
      match s.cf.op with
      | some p =>
        if cfBank p.off = cfBank (32 * l.val) then
          ({ s with cf := { s.cf with waiting := s.cf.waiting ++ [(l.val, cru)] } }).bump Reg.CFX_WAITS
        else xipServe l.val cru s
      | none => xipServe l.val cru s

/-- L2_INVALIDATE (R481, R522): CRU_L2_INV is written with the word `v`. -/
def execL2Invalidate (v : BitVec 32) (s : State) : Res :=
  s.whenLive fun s =>
    let s := s.setReg Reg.CRU_L2_INV (v &&& 0x3FFF3FFF)
    if bit v 31 then
      let a := fld v 13 0 * 128
      let b := (fld v 29 16 + 1) * 128
      { s with cf := { s.cf with l2 := s.cf.l2.filter fun l => l < a || b ≤ l } }
    else s

end Sys2Proof.Machine
end

