-- ==== Sys2Proof/Machine/Aes.lean ====
section
/-!
DEFINITION. Machine/Aes.lean: AES-256 (FIPS 197) and AES-256-XTS (IEEE Std 1619), the media cipher of R252.
-/

namespace Sys2Proof.Machine

open Sys2Proof

/-- Product in the field of AES, polynomial 0x11B. -/
def aesMul (a b : Nat) : Nat := polyMod 8 0x11B 8 (clmul 8 a b)

/-- Inverse in that field: the 254th power. -/
def aesInv (a : Nat) : Nat :=
  ((List.range 7).foldl (fun (acc : Nat × Nat) _ =>
    let sq := aesMul acc.2 acc.2
    (aesMul acc.1 sq, sq)) (1, a)).1

/-- Rotate a byte left. -/
def rotl8 (k v : Nat) : Nat := (v * 2 ^ k + v / 2 ^ (8 - k)) % 256

/-- The S-box. -/
def sbox (a : Nat) : Nat :=
  let v := aesInv a
  v ^^^ rotl8 1 v ^^^ rotl8 2 v ^^^ rotl8 3 v ^^^ rotl8 4 v ^^^ 0x63

/-- The inverse S-box. -/
def sboxInv (a : Nat) : Nat := aesInv (rotl8 1 a ^^^ rotl8 3 a ^^^ rotl8 6 a ^^^ 5)

/-- The 60 words of the key schedule of a 32-byte key. -/
def aesKeys (key : List Nat) : List (List Nat) :=
  let w0 : List (List Nat) := (List.range 8).map fun i => (key.drop (4 * i)).take 4
  (List.range 52).foldl (fun (ws : List (List Nat)) k =>
    let i := k + 8
    let t := ws.getD (i - 1) []
    let rc := gfPow2 (i / 8 - 1)
    let t := if i % 8 = 0 then
        match (t.drop 1 ++ t.take 1).map sbox with
        | x :: r => (x ^^^ rc) :: r
        | [] => []
      else if i % 8 = 4 then t.map sbox
      else t
    ws ++ [List.zipWith (· ^^^ ·) (ws.getD (i - 8) []) t]) w0
where
  /-- A power of 2 in the field. -/
  gfPow2 : Nat → Nat
    | 0 => 1
    | n + 1 => aesMul 2 (gfPow2 n)

/-- Exclusive-or two byte lists. -/
def xorL (a b : List Nat) : List Nat := List.zipWith (· ^^^ ·) a b

/-- Round key `r`. -/
def roundKey (ws : List (List Nat)) (r : Nat) : List Nat := ((ws.drop (4 * r)).take 4).flatten

/-- ShiftRows: byte at row `r`, column `c` from column `c + r`. -/
def shiftRows (st : List Nat) : List Nat :=
  (List.range 16).map fun i => st.getD ((i / 4 + i % 4) % 4 * 4 + i % 4) 0
def shiftRowsInv (st : List Nat) : List Nat :=
  (List.range 16).map fun i => st.getD ((i / 4 + 4 - i % 4) % 4 * 4 + i % 4) 0

/-- MixColumns with a row of coefficients. -/
def mixWith (co : List Nat) (st : List Nat) : List Nat :=
  (List.range 16).map fun i =>
    let c := i / 4
    let r := i % 4
    (List.range 4).foldl (fun acc j => acc ^^^ aesMul (co.getD ((j + 4 - r) % 4) 0) (st.getD (4 * c + j) 0)) 0

/-- Encrypt one block of 16 bytes. -/
def aesEnc (ws : List (List Nat)) (blk : List Nat) : List Nat :=
  let st := xorL blk (roundKey ws 0)
  let st := (List.range 13).foldl (fun st r =>
    xorL (mixWith [2, 3, 1, 1] (shiftRows (st.map sbox))) (roundKey ws (r + 1))) st
  xorL (shiftRows (st.map sbox)) (roundKey ws 14)

/-- Decrypt one block of 16 bytes. -/
def aesDec (ws : List (List Nat)) (blk : List Nat) : List Nat :=
  let st := (shiftRowsInv (xorL blk (roundKey ws 14))).map sboxInv
  let st := (List.range 13).foldl (fun st r =>
    (shiftRowsInv (mixWith [14, 11, 13, 9] (xorL st (roundKey ws (13 - r))))).map sboxInv) st
  xorL st (roundKey ws 0)

/-- The tweak times α (IEEE Std 1619): little-endian, polynomial 0x87. -/
def xtsNext (t : List Nat) : List Nat :=
  let v := t.foldr (fun b acc => b + 256 * acc) 0 * 2
  let v := if 2 ^ 128 ≤ v then (v - 2 ^ 128) ^^^ 0x87 else v
  (List.range 16).map fun i => v / 256 ^ i % 256

/-- Blocks of a data unit under a tweak. -/
def xtsBlocks (f : List Nat → List Nat) : Nat → List Nat → List Nat → List Nat
  | 0, _, _ => []
  | k + 1, t, bs => xorL (f (xorL (bs.take 16) t)) t ++ xtsBlocks f k (xtsNext t) (bs.drop 16)

/-- Encrypt or decrypt a data unit of whole blocks with a 64-byte key and a data-unit number (R252). -/
def xts (enc : Bool) (key : List Byte) (tweak : Nat) (data : List Byte) : List Byte :=
  let k := key.map fun b => b.toNat
  let k1 := aesKeys (k.take 32)
  let k2 := aesKeys (k.drop 32)
  let t0 := aesEnc k2 ((List.range 16).map fun i => tweak / 256 ^ i % 256)
  let bs := data.map fun b => b.toNat
  (xtsBlocks (if enc then aesEnc k1 else aesDec k1) (bs.length / 16) t0 bs).map fun v => BitVec.ofNat 8 v

end Sys2Proof.Machine
end

