-- ==== Sys2Proof/Machine/Hash.lean ====
section
/-!
DEFINITION. Machine/Hash.lean: SHAKE256 (FIPS 202), used by Crucible's images, key slots and hash engine (R504, R515, R522),
and AES-256 key wrap (NIST SP 800-38F, KW), the form of band keys outside XFM (R501).
-/

namespace Sys2Proof.Machine

open Sys2Proof

/-- Rotate a 64-bit lane left. -/
def rotl64 (k v : Nat) : Nat := (v * 2 ^ k + v / 2 ^ (64 - k)) % 2 ^ 64

/-- Lane `x, y` of the state; both coordinates count modulo 5. -/
def lane (a : List Nat) (x y : Nat) : Nat := a.getD (x % 5 + 5 * (y % 5)) 0

/-- A state built lane by lane. -/
def lanes (f : Nat → Nat → Nat) : List Nat := (List.range 25).map fun i => f (i % 5) (i / 5)

/-- Step θ. -/
def keccakTheta (a : List Nat) : List Nat :=
  let c := (List.range 5).map fun x => (List.range 5).foldl (fun acc y => acc ^^^ lane a x y) 0
  let d := (List.range 5).map fun x => c.getD ((x + 4) % 5) 0 ^^^ rotl64 1 (c.getD ((x + 1) % 5) 0)
  lanes fun x y => lane a x y ^^^ d.getD x 0

/-- Rotation of lane `x, y` in step ρ: the triangular numbers along the walk (x, y) ← (y, 2x + 3y). -/
def keccakOffsets : List Nat :=
  let go := (List.range 24).foldl (fun (acc : (Nat × Nat) × List (Nat × Nat)) t =>
    let (x, y) := acc.1
    ((y, (2 * x + 3 * y) % 5), (x + 5 * y, (t + 1) * (t + 2) / 2 % 64) :: acc.2)) ((1, 0), [])
  (List.range 25).map fun i => (go.2.lookup i).getD 0

/-- Steps ρ and π. -/
def keccakRhoPi (a : List Nat) : List Nat :=
  let off := keccakOffsets
  lanes fun x y =>
    let x' := (x + 3 * y) % 5
    rotl64 (off.getD (x' + 5 * x) 0) (lane a x' x)

/-- Step χ. -/
def keccakChi (a : List Nat) : List Nat :=
  lanes fun x y => lane a x y ^^^ ((2 ^ 64 - 1 - lane a (x + 1) y) &&& lane a (x + 2) y)

/-- Bits of the round-constant register: x^8 + x^6 + x^5 + x^4 + 1. -/
def keccakRc : List Bool :=
  ((List.range 168).foldl (fun (acc : Nat × List Bool) _ =>
    let r := acc.1
    let n := r * 2
    (if 256 ≤ n then (n - 256) ^^^ 0x71 else n, (r % 2 == 1) :: acc.2)) (1, [])).2.reverse

/-- Round constant of round `r`. -/
def keccakIota (rc : List Bool) (r : Nat) : Nat :=
  (List.range 7).foldl (fun acc j => if rc.getD (7 * r + j) false then acc + 2 ^ (2 ^ j - 1) else acc) 0

/-- Keccak-f[1600]. -/
def keccakF (a : List Nat) : List Nat :=
  let rc := keccakRc
  (List.range 24).foldl (fun a r =>
    let b := keccakChi (keccakRhoPi (keccakTheta a))
    (lane b 0 0 ^^^ keccakIota rc r) :: b.drop 1) a

/-- Absorb whole blocks of 136 bytes. -/
def absorb : Nat → List Nat → List Byte → List Nat
  | 0, a, _ => a
  | n + 1, a, m =>
    let blk := (List.range 17).map fun i => leNat ((m.drop (8 * i)).take 8)
    absorb n (keccakF (a.mapIdx fun i v => v ^^^ blk.getD i 0)) (m.drop 136)

/-- SHAKE256 with at most 136 bytes of output. -/
def shake256 (n : Nat) (m : List Byte) : List Byte :=
  let pad := 136 - m.length % 136
  let tail : List Byte := if pad = 1 then [0x9F] else 0x1F :: (List.replicate (pad - 2) 0 ++ [0x80])
  let a := absorb (m.length / 136 + 1) (List.replicate 25 0) (m ++ tail)
  (a.flatMap (leBytes 8)).take n

/-- Exclusive-or the big-endian step counter of KW into a semiblock. -/
def kwCount (a : List Nat) (t : Nat) : List Nat := xorL a ((beBytes 8 t).map BitVec.toNat)

/-- The initial value of KW. -/
def kwIv : List Nat := List.replicate 8 0xA6

/-- Wrap a key of whole semiblocks under a 32-byte KEK: eight bytes longer. -/
def kwWrap (kek key : List Byte) : List Byte :=
  let ws := aesKeys (kek.map BitVec.toNat)
  let k := key.map BitVec.toNat
  let n := k.length / 8
  let r0 : List (List Nat) := (List.range n).map fun i => (k.drop (8 * i)).take 8
  let res := (List.range (6 * n)).foldl (fun (acc : List Nat × List (List Nat)) t =>
    let i := t % n
    let b := aesEnc ws (acc.1 ++ acc.2.getD i [])
    (kwCount (b.take 8) (t + 1), acc.2.set i (b.drop 8))) (kwIv, r0)
  (res.1 ++ res.2.flatten).map fun x => BitVec.ofNat 8 x

/-- Unwrap: the key, or nothing where the integrity check fails. -/
def kwUnwrap (kek wrapped : List Byte) : Option (List Byte) :=
  let ws := aesKeys (kek.map BitVec.toNat)
  let k := wrapped.map BitVec.toNat
  let n := k.length / 8 - 1
  let r0 : List (List Nat) := (List.range n).map fun i => (k.drop (8 * (i + 1))).take 8
  let res := (List.range (6 * n)).foldl (fun (acc : List Nat × List (List Nat)) u =>
    let t := 6 * n - 1 - u
    let i := t % n
    let b := aesDec ws (kwCount acc.1 (t + 1) ++ acc.2.getD i [])
    (b.take 8, acc.2.set i (b.drop 8))) (k.take 8, r0)
  if res.1 = kwIv then some (res.2.flatten.map fun x => BitVec.ofNat 8 x) else none

end Sys2Proof.Machine
end

