-- ==== Sys2Proof/Machine/SvcBase.lean ====
section
/-!
DEFINITION. Machine/SvcBase.lean: what happens to the connections and outstanding commands of queue pairs when they leave
RTS or NET or SVC resets (R133).
-/

namespace Sys2Proof.Machine

open Sys2Proof

/-- Change the service image's state. -/
def modSvc (f : Svc → Svc) (s : State) : State := { s with svc := f s.svc }

/-- Queue pairs named by `p` are unconnected: their error logs go, started commands run on unanswered, the others are
dropped (R133). -/
def dropConns (p : Nat → Bool) (s : State) : State :=
  modSvc (fun v =>
    { v with conns := v.conns.filter fun c => !p c.qp,
             cmds := v.cmds.filterMap fun c =>
               if p c.qp then (if c.started then some { c with mute := true } else none) else some c }) s

/-- Opcode of a capsule (Table "Capsule header"). -/
def capOp (c : List Byte) : Nat := (byteAt c 0).toNat

/-- A started command goes on over SVC's function reset: a sanitize from its pending record (R502), and a live activation
that has reached Crucible. -/
def goesOn (s : State) (c : Cmd) : Bool := capOp c.cap = 0x61 || (capOp c.cap = 0x41 && s.cru.activation.isSome)

/-- SVC's function reset: what has not committed starts again from its capsule, a live activation that has not reached
Crucible included (R133). On a queue pair that is not frozen such a command counts as started before a later freeze. -/
def restartCmds (s : State) : State :=
  modSvc (fun v => { v with
    cmds := v.cmds.map fun c =>
      if c.committed.isNone && !goesOn s c then
        { c with
          started := false
          before := c.before || (c.started && !(v.conns.any fun k => k.qp = c.qp && k.frozen.isSome))
          due := none, acts := [], next := 0, advs := [], counts := (0, 0, 0, 0) }
      else c,
    entering := if v.entering.any (·.cmd.isSome) then none else v.entering,
    paused := v.paused && s.cru.activation.isSome }) s

/-- The entry of a locator index no longer names an object (R278). -/
def clearLoc (i : Nat) (s : State) : State :=
  match s.svc.locBase with
  | some b => s.setBytes (b + 64 * i) (List.replicate 64 0)
  | none => s

/-- The objects of some bands are gone, and for ACTION 3 the staging tier's blocks are erased (R104, R278, R502). -/
def destroyBands (gone : List Nat) (all : Bool) (s : State) : State :=
  let keep (o : Option Obj) : Bool := !(o.any fun o => o.band ∈ gone)
  let s := (s.svc.objs.filter fun o => o.band ∈ gone).foldl (fun s o => clearLoc o.loc s) s
  let s := modSvc (fun v => { v with
    objs := v.objs.filter fun o => keep (some o),
    durable := v.durable.filter fun d => keep d.new,
    unacked := v.unacked.filter fun u => keep u.new,
    staged := if all then [] else v.staged,
    fill := if all then none else v.fill }) s
  if all then { s with stg := { s.stg with nand := [] } } else s

end Sys2Proof.Machine
end

