-- ==== Sys2Proof/Machine/Deflate.lean ====
section
/-!
DEFINITION. Machine/Deflate.lean: the DEFLATE encoder of the compress lanes (R241 to R243) and the decoder of the
decompress lanes (R247), over the stream format of RFC 1951.
-/

namespace Sys2Proof.Machine

open Sys2Proof

/-- A token of a block. -/
inductive Tok where
  | lit (b : Nat)
  | run (len dist : Nat)
  deriving DecidableEq, Repr

/-- Length symbols 257 to 285: base length and extra bits. -/
def lenTable : List (Nat × Nat) :=
  [(3, 0), (4, 0), (5, 0), (6, 0), (7, 0), (8, 0), (9, 0), (10, 0), (11, 1), (13, 1), (15, 1), (17, 1), (19, 2), (23, 2),
   (27, 2), (31, 2), (35, 3), (43, 3), (51, 3), (59, 3), (67, 4), (83, 4), (99, 4), (115, 4), (131, 5), (163, 5), (195, 5),
   (227, 5), (258, 0)]

/-- Distance symbols 0 to 29: base distance and extra bits. -/
def distTable : List (Nat × Nat) :=
  [(1, 0), (2, 0), (3, 0), (4, 0), (5, 1), (7, 1), (9, 2), (13, 2), (17, 3), (25, 3), (33, 4), (49, 4), (65, 5), (97, 5),
   (129, 6), (193, 6), (257, 7), (385, 7), (513, 8), (769, 8), (1025, 9), (1537, 9), (2049, 10), (3073, 10), (4097, 11),
   (6145, 11), (8193, 12), (12289, 12), (16385, 13), (24577, 13)]

/-- Order of the code-length code lengths in a dynamic header. -/
def clOrder : List Nat := [16, 17, 18, 0, 8, 7, 9, 6, 10, 5, 11, 4, 12, 3, 13, 2, 14, 1, 15]

/-- Index of the last table row whose base is at most `v`. -/
def lastRow (t : List (Nat × Nat)) (v : Nat) : Nat := (t.filter fun r => r.1 ≤ v).length - 1

/-- The low `n` bits of a number, least significant first. -/
def lowBits (n v : Nat) : List Bool := (List.range n).map fun i => nbit v i

/-- The low `n` bits of a code, most significant first. -/
def codeBits (n v : Nat) : List Bool := (lowBits n v).reverse

/-- Canonical codes of a list of lengths: for each symbol its length and code. -/
def canonical (lens : List Nat) : List (Nat × Nat) :=
  let count (n : Nat) : Nat := if n = 0 then 0 else (lens.filter fun l => l = n).length
  let first (n : Nat) : Nat := (List.range n).foldl (fun c b => (c + count b) * 2) 0
  lens.mapIdx fun i l => (l, if l = 0 then 0 else first l + ((lens.take i).filter fun k => k = l).length)

/-- Fixed code lengths. -/
def fixLit : List Nat := List.replicate 144 8 ++ List.replicate 112 9 ++ List.replicate 24 7 ++ List.replicate 8 8
def fixDist : List Nat := List.replicate 32 5

/-- Hash of three bytes (R242). -/
def hash3 (b : Array Byte) (p : Nat) : Nat :=
  ((b.getD p 0).toNat * 2 ^ 10 ^^^ (b.getD (p + 1) 0).toNat * 2 ^ 5 ^^^ (b.getD (p + 2) 0).toNat) % 2 ^ 15

/-- Common run of the bytes from `q` and from `p`, at most `n`. -/
def commonRun (b : Array Byte) (q p : Nat) : Nat → Nat
  | 0 => 0
  | n + 1 => if b.getD q 0 = b.getD p 0 then commonRun b (q + 1) (p + 1) n + 1 else 0

/-- Hash candidates of a position, newest first, at most `depth` (R242). -/
def cands (b : Array Byte) (p depth : Nat) : List Nat :=
  (((List.range (min p 32768)).map fun k => p - 1 - k).filter fun q => hash3 b q = hash3 b p).take depth

/-- The usable match at a position: length and distance (R242). -/
def matchAt (b : Array Byte) (depth p : Nat) : Option (Nat × Nat) :=
  let n := b.size
  if n < p + 3 then none
  else
    let cap := min 258 (min n ((p / 32768 + 1) * 32768) - p)
    let best := (cands b p depth).foldl (fun (acc : Nat × Nat) q =>
      let l := commonRun b q p cap
      if acc.1 < l then (l, p - q) else acc) (0, 0)
    if best.1 < 3 || (best.1 = 3 && 4096 < best.2) then none else some best

/-- Tokens from `p` to the end of its block; `lazy` defers a match while the next position's is longer (R242). -/
def tokens (b : Array Byte) (depth : Nat) (lazy : Bool) (stop : Nat) : Nat → Nat → List Tok
  | 0, _ => []
  | k + 1, p =>
    if stop ≤ p then []
    else
      let defer (l : Nat) : Bool := lazy && (match matchAt b depth (p + 1) with
        | some (l', _) => l < l'
        | none => false)
      match (matchAt b depth p).filter fun m => !defer m.1 with
      | none => Tok.lit (b.getD p 0).toNat :: tokens b depth lazy stop k (p + 1)
      | some (l, d) => Tok.run l d :: tokens b depth lazy stop k (p + l)

/-- Literal/length symbol of a token. -/
def Tok.sym : Tok → Nat
  | .lit b => b
  | .run l _ => 257 + lastRow lenTable l

/-- Bits of a token under two codes. -/
def Tok.bits (lit dist : List (Nat × Nat)) : Tok → List Bool
  | .lit b => let c := lit.getD b (0, 0); codeBits c.1 c.2
  | .run l d =>
    let i := lastRow lenTable l
    let j := lastRow distTable d
    let le := lenTable.getD i (0, 0)
    let de := distTable.getD j (0, 0)
    let c := lit.getD (257 + i) (0, 0)
    let k := dist.getD j (0, 0)
    codeBits c.1 c.2 ++ lowBits le.2 (l - le.1) ++ codeBits k.1 k.2 ++ lowBits de.2 (d - de.1)

/-- Bits of a block's tokens and its end under two lists of lengths. -/
def bodyBits (litLens distLens : List Nat) (ts : List Tok) : List Bool :=
  let lit := canonical litLens
  let dist := canonical distLens
  let e := lit.getD 256 (0, 0)
  ts.flatMap (Tok.bits lit dist) ++ codeBits e.1 e.2

/-- Frequencies of the `n` symbols that a function reads from tokens. -/
def freqs (n : Nat) (l : List Nat) : List Nat := (List.range n).map fun i => (l.filter fun x => x = i).length

/-- A package of the package-merge method: weight and symbols. -/
abbrev Pack := Nat × List Nat

/-- Merge two lists sorted by weight. -/
def mergePacks : Nat → List Pack → List Pack → List Pack
  | 0, _, _ => []
  | _, [], r => r
  | _, l, [] => l
  | k + 1, x :: l, y :: r => if x.1 ≤ y.1 then x :: mergePacks k l (y :: r) else y :: mergePacks k (x :: l) r

/-- Join neighbours of a list of packages. -/
def pairPacks : List Pack → List Pack
  | x :: y :: t => (x.1 + y.1, x.2 ++ y.2) :: pairPacks t
  | _ => []

/-- Insert by weight. -/
def insPack (x : Pack) : List Pack → List Pack
  | [] => [x]
  | y :: t => if x.1 ≤ y.1 then x :: y :: t else y :: insPack x t

/-- Optimal length-limited code lengths by package-merge (R242). -/
def packageMerge (fs : List Nat) (limit : Nat) : List Nat :=
  let items : List Pack := fs.zipIdx.foldl (fun acc (f, i) => if f = 0 then acc else insPack (f, [i]) acc) []
  let n := items.length
  if n ≤ 1 then fs.map fun f => if f = 0 then 0 else 1
  else
    let top := (List.range (limit - 1)).foldl (fun l _ => mergePacks (4 * n + 4) items (pairPacks l)) items
    let used := (top.take (2 * (n - 1))).flatMap fun p => p.2
    (List.range fs.length).map fun i => (used.filter fun x => x = i).length

/-- Bits of the symbols under code lengths. -/
def codeCost (fs lens : List Nat) : Nat := (fs.zip lens).foldl (fun a (f, l) => a + f * l) 0

/-- Sum of 2^(15 − length) over the codes: 2^15 for a complete code. -/
def kraft (lens : List Nat) : Nat := lens.foldl (fun a l => if l = 0 then a else a + 2 ^ (15 - l)) 0

/-- Code lengths of the silicon (R242): its own choice where that is an optimal prefix code within the limit. -/
def chooseLens (fs : List Nat) (limit : Nat) : List Nat :=
  let best := packageMerge fs limit
  let c := Config.codeLengths fs limit
  let ok := c.length = fs.length && (c.zip fs).all (fun (l, f) => (l = 0) == (f = 0)) && c.all (fun l => l ≤ limit)
    && kraft c ≤ 2 ^ 15 && codeCost fs c = codeCost fs best
  if ok then c else best

/-- Lengths that a run-length form stands for. -/
def expandRuns : List (Nat × Nat) → List Nat → List Nat
  | [], acc => acc
  | (x, e) :: t, acc =>
    let add := match x with
      | 16 => List.replicate (3 + e % 4) (acc.getLastD 0)
      | 17 => List.replicate (3 + e % 8) 0
      | 18 => List.replicate (11 + e % 128) 0
      | l => [l]
    expandRuns t (acc ++ add)

/-- Leading equal elements. -/
def leadRun (x : Nat) : List Nat → Nat
  | y :: t => if x = y then leadRun x t + 1 else 0
  | [] => 0

/-- A greedy run-length form of code lengths. -/
def greedyRuns : Nat → Option Nat → List Nat → List (Nat × Nat)
  | 0, _, _ => []
  | _, _, [] => []
  | k + 1, prev, x :: t =>
    let n := leadRun x t + 1
    if x = 0 && 11 ≤ n then
      let m := min n 138
      (18, m - 11) :: greedyRuns k (some 0) ((x :: t).drop m)
    else if x = 0 && 3 ≤ n then (17, n - 3) :: greedyRuns k (some 0) ((x :: t).drop n)
    else if prev = some x && 3 ≤ n then
      let m := min n 6
      (16, m - 3) :: greedyRuns k prev ((x :: t).drop m)
    else (x, 0) :: greedyRuns k (some x) t

/-- Extra bits of a code-length symbol. -/
def clExtra (x : Nat) : Nat := if x = 16 then 2 else if x = 17 then 3 else if x = 18 then 7 else 0

/-- A list without its trailing zeros, but at least `n` long. -/
def trimZeros (n : Nat) (l : List Nat) : List Nat :=
  let m := ((l.reverse.dropWhile fun x => x = 0)).length
  l.take (max n m)

/-- Code lengths of the code-length alphabet for a run-length form. -/
def runLens (runs : List (Nat × Nat)) : List Nat := chooseLens (freqs 19 (runs.map Prod.fst)) 7

/-- Code lengths of that alphabet in the order of the header. -/
def orderedLens (cl : List Nat) : List Nat := trimZeros 4 (clOrder.map fun i => cl.getD i 0)

/-- Bits that a run-length form takes in a header. -/
def runsCost (runs : List (Nat × Nat)) : Nat :=
  let cl := runLens runs
  3 * (orderedLens cl).length + runs.foldl (fun a r => a + cl.getD r.1 0 + clExtra r.1) 0

/-- The run-length form of the silicon (R242): its own where it stands for the lengths and saves at least the bits that a
greedy form saves. That `wherever they save bits` is judged on the header's bits is DESIGN CHOICE, log entry 51. -/
def chooseRuns (lens : List Nat) : List (Nat × Nat) :=
  let c := Config.headerRuns lens
  let greedy := greedyRuns (lens.length + 1) none lens
  let plain := lens.map fun l => (l, 0)
  let best := if runsCost greedy ≤ runsCost plain then greedy else plain
  let ok := c.all (fun (x, e) => x ≤ 18 && e < 2 ^ clExtra x) && (c.head?.map Prod.fst) ≠ some 16 && expandRuns c [] = lens
    && runsCost c ≤ runsCost best
  if ok then c else best

/-- Header and body of a dynamic block, without its three leading bits. -/
def dynamicBits (ts : List Tok) : List Bool :=
  let dists := ts.filterMap fun t => match t with
    | .lit _ => none
    | .run _ d => some (lastRow distTable d)
  let lit := chooseLens (freqs 286 (256 :: ts.map Tok.sym)) 15
  let dist := chooseLens (freqs 30 dists) 15
  let hl := trimZeros 257 lit
  let hd := trimZeros 1 dist
  let runs := chooseRuns (hl ++ hd)
  let cl := runLens runs
  let ordered := orderedLens cl
  let codes := canonical cl
  lowBits 5 (hl.length - 257) ++ lowBits 5 (hd.length - 1) ++ lowBits 4 (ordered.length - 4)
    ++ ordered.flatMap (lowBits 3)
    ++ runs.flatMap (fun (x, e) => let c := codes.getD x (0, 0); codeBits c.1 c.2 ++ lowBits (clExtra x) e)
    ++ bodyBits hl hd ts

/-- Bits of a stored block that begins at bit `pos` of the stream. -/
def storedBits (pos : Nat) (final : Bool) (bs : List Byte) : List Bool :=
  let pad := (8 - (pos + 3) % 8) % 8
  [final, false, false] ++ List.replicate pad false ++ lowBits 16 bs.length ++ lowBits 16 (65535 - bs.length) ++ bitsOf bs

/-- One block from `start`, at bit `pos` of the stream: its bits, and whether it is stored (R241 to R243). -/
def blockBits_ (b : Array Byte) (mode depth pos start : Nat) : List Bool × Bool :=
  let stop := min b.size (start + 32768)
  let final : Bool := stop = b.size
  let bs := (b.extract start stop).toList
  let st := storedBits pos final bs
  if mode = 1 then (st, true)
  else
    let ts := tokens b (if mode = 2 then 1 else depth + 1) (mode = 3) stop (stop - start) start
    let fixed := [final, true, false] ++ bodyBits fixLit fixDist ts
    let coded :=
      if mode = 2 then fixed
      else
        let dyn := [final, false, true] ++ dynamicBits ts
        if fixed.length ≤ dyn.length then fixed else dyn
    if st.length ≤ coded.length then (st, true) else (coded, false)

/-- Blocks from `start` on: the bits of the stream, and the stored blocks among them. -/
def deflateFrom (b : Array Byte) (mode depth : Nat) : Nat → Nat → Nat → List Bool × Nat
  | 0, _, _ => ([], 0)
  | k + 1, pos, start =>
    if b.size ≤ start then ([], 0)
    else
      let (x, st) := blockBits_ b mode depth pos start
      let (y, n) := deflateFrom b mode depth k (pos + x.length) (start + 32768)
      (x ++ y, n + b2n st)

/-- Bytes of a bit stream, the last one padded with zeros. -/
def packBits : Nat → List Bool → List Byte
  | 0, _ => []
  | _, [] => []
  | k + 1, bs => BitVec.ofNat 8 (bitsNat (bs.take 8)) :: packBits k (bs.drop 8)

/-- Output of a compression run, and how many of its blocks are stored (R241 to R243). -/
def deflate (data : List Byte) (mode depth : Nat) : List Byte × Nat :=
  let b := data.toArray
  let (bs, n) := deflateFrom b mode depth (b.size / 32768 + 1) 0 0
  (packBits (bs.length / 8 + 1) bs, n)

/-- Why a decoder stops (R247, Table "XFM detail codes"). -/
inductive InfErr where
  | invalid | distance | truncated | overflow
  deriving DecidableEq, Repr

/-- Detail code of a decoder's error. -/
def InfErr.code : InfErr → Nat
  | .invalid => 0x9101
  | .distance => 0x9102
  | .truncated => 0x9103
  | .overflow => 0

/-- The decoder: input bytes, bit position, output. -/
structure Inf where
  src : Array Byte
  pos : Nat
  out : Array Byte
  cap : Nat

/-- A step of the decoder: a value, or an error with the output so far. -/
abbrev InfRes (α : Type) := Except (InfErr × Array Byte) (α × Inf)

/-- Read one bit. -/
def Inf.bit (d : Inf) : InfRes Bool :=
  if d.src.size * 8 ≤ d.pos then .error (.truncated, d.out)
  else .ok ((d.src.getD (d.pos / 8) 0).getLsbD (d.pos % 8), { d with pos := d.pos + 1 })

/-- Read a number of `n` bits, least significant first. -/
def Inf.bits : Nat → Inf → InfRes Nat
  | 0, d => .ok (0, d)
  | n + 1, d =>
    match d.bit with
    | .error e => .error e
    | .ok (b, d) =>
      match Inf.bits n d with
      | .error e => .error e
      | .ok (v, d) => .ok (b2n b + 2 * v, d)

/-- Read a symbol of a canonical code, bit by bit; a code that stands for none is invalid. -/
def Inf.symbol (codes : List (Nat × Nat)) : Nat → Nat → Nat → Inf → InfRes Nat
  | 0, _, _, d => .error (.invalid, d.out)
  | k + 1, len, code, d =>
    if !(codes.any fun c => len < c.1 && c.2 / 2 ^ (c.1 - len) = code) then .error (.invalid, d.out)
    else
      match d.bit with
      | .error e => .error e
      | .ok (b, d) =>
        let len := len + 1
        let code := code * 2 + b2n b
        match codes.findIdx? fun c => c.1 = len && c.2 = code with
        | some i => .ok (i, d)
        | none => Inf.symbol codes k len code d

/-- Write one byte. -/
def Inf.put (d : Inf) (b : Byte) : InfRes Unit :=
  if d.cap ≤ d.out.size then .error (.overflow, d.out) else .ok ((), { d with out := d.out.push b })

/-- Copy `n` bytes from a distance. -/
def Inf.copy (dist : Nat) : Nat → Inf → InfRes Unit
  | 0, d => .ok ((), d)
  | n + 1, d =>
    match d.put (d.out.getD (d.out.size - dist) 0) with
    | .error e => .error e
    | .ok (_, d) => Inf.copy dist n d

/-- A stored block's bytes. -/
def Inf.stored : Nat → Inf → InfRes Unit
  | 0, d => .ok ((), d)
  | n + 1, d =>
    match d.bits 8 with
    | .error e => .error e
    | .ok (v, d) =>
      match d.put (BitVec.ofNat 8 v) with
      | .error e => .error e
      | .ok (_, d) => Inf.stored n d

/-- The coded bytes of a block up to its end, with fuel. -/
def Inf.body (lit dist : List (Nat × Nat)) : Nat → Inf → InfRes Unit
  | 0, d => .error (.truncated, d.out)
  | k + 1, d =>
    match Inf.symbol lit 15 0 0 d with
    | .error e => .error e
    | .ok (x, d) =>
      if x < 256 then
        match d.put (BitVec.ofNat 8 x) with
        | .error e => .error e
        | .ok (_, d) => Inf.body lit dist k d
      else if x = 256 then .ok ((), d)
      else
        match lenTable[x - 257]? with
        | none => .error (.invalid, d.out)
        | some (lb, le) =>
          match d.bits le with
          | .error e => .error e
          | .ok (lx, d) =>
            match Inf.symbol dist 15 0 0 d with
            | .error e => .error e
            | .ok (y, d) =>
              match distTable[y]? with
              | none => .error (.invalid, d.out)
              | some (db, de) =>
                match d.bits de with
                | .error e => .error e
                | .ok (dx, d) =>
                  if d.out.size < db + dx then .error (.distance, d.out)
                  else
                    match Inf.copy (db + dx) (lb + lx) d with
                    | .error e => .error e
                    | .ok (_, d) => Inf.body lit dist k d

/-- The code lengths of a dynamic header, `n` of them, with fuel. -/
def Inf.lengths (cl : List (Nat × Nat)) (n : Nat) : Nat → List Nat → Inf → InfRes (List Nat)
  | 0, _, d => .error (.invalid, d.out)
  | k + 1, acc, d =>
    if n < acc.length then .error (.invalid, d.out)
    else if acc.length = n then .ok (acc, d)
    else
      match Inf.symbol cl 7 0 0 d with
      | .error e => .error e
      | .ok (x, d) =>
        if x = 16 && acc.isEmpty then .error (.invalid, d.out)
        else
          match d.bits (clExtra x) with
          | .error e => .error e
          | .ok (e, d) => Inf.lengths cl n k (expandRuns [(x, e)] acc) d

/-- A header's code is accepted (R247): complete, or the allowed incomplete ones. -/
def codeOk (lens : List Nat) (noneOk oneOk : Bool) : Bool :=
  let n := (lens.filter fun l => l ≠ 0).length
  kraft lens = 2 ^ 15 || (noneOk && n = 0) || (oneOk && n = 1 && lens.contains 1)

/-- Code lengths of the code-length alphabet, in the order of the header. -/
def Inf.clLens : List Nat → Inf → List (Nat × Nat) → InfRes (List (Nat × Nat))
  | [], d, acc => .ok (acc, d)
  | i :: t, d, acc =>
    match d.bits 3 with
    | .error e => .error e
    | .ok (v, d) => Inf.clLens t d ((i, v) :: acc)

/-- A dynamic block. -/
def Inf.dynamic (fuel : Nat) (d : Inf) : InfRes Unit :=
  match d.bits 14 with
  | .error e => .error e
  | .ok (h, d) =>
    let hlit := h % 32 + 257
    let hdist := h / 32 % 32 + 1
    let hclen := h / 1024 + 4
    if 286 < hlit then .error (.invalid, d.out)
    else
      match Inf.clLens (clOrder.take hclen) d [] with
      | .error e => .error e
      | .ok (ls, d) =>
        let cl := (List.range 19).map fun i => (ls.lookup i).getD 0
        if !codeOk cl false false then .error (.invalid, d.out)
        else
          match Inf.lengths (canonical cl) (hlit + hdist) (hlit + hdist + 1) [] d with
          | .error e => .error e
          | .ok (lens, d) =>
            let lit := lens.take hlit
            let dist := lens.drop hlit
            if !codeOk lit false true || !codeOk dist true true then .error (.invalid, d.out)
            else Inf.body (canonical lit) (canonical dist) fuel d

/-- Blocks up to the final one, with fuel. -/
def Inf.blocks : Nat → Inf → InfRes Unit
  | 0, d => .error (.truncated, d.out)
  | k + 1, d =>
    let fuel := d.src.size * 8 + 1
    match d.bits 3 with
    | .error e => .error e
    | .ok (h, d) =>
      let r : InfRes Unit := match h / 2 with
        | 0 =>
          match ({ d with pos := (d.pos + 7) / 8 * 8 } : Inf).bits 32 with
          | .error e => .error e
          | .ok (v, d) =>
            if v / 65536 + v % 65536 ≠ 65535 then .error (.invalid, d.out) else Inf.stored (v % 65536) d
        | 1 => Inf.body (canonical fixLit) (canonical fixDist) fuel d
        | 2 => Inf.dynamic fuel d
        | _ => .error (.invalid, d.out)
      match r with
      | .error e => .error e
      | .ok (_, d) => if h % 2 = 1 then .ok ((), d) else Inf.blocks k d

/-- How a decompression ends (R247): output, and 0, a detail code, or 1 for DST_OVERFLOW. -/
def inflate (src : List Byte) (cap : Nat) : List Byte × Nat :=
  let a := src.toArray
  match Inf.blocks (a.size * 8 + 1) ⟨a, 0, #[], cap⟩ with
  | .error (.overflow, out) => (out.toList, 1)
  | .error (e, out) => (out.toList, e.code)
  | .ok (_, d) => (d.out.toList, if (d.pos + 7) / 8 < a.size then 0x9104 else 0)

end Sys2Proof.Machine
end

