-- ==== Sys2Proof/Machine/StgCmds.lean ====
section
/-!
DEFINITION. Machine/StgCmds.lean: commands of the staging tier (spec/07): channels and rates, the STG macro-operations
as the shipped routines run them, events of the LUNs, parking, and block commands.
-/

namespace Sys2Proof.Machine

open Sys2Proof Host

/-- R205: what CHc_MAP and CHc_GEOM must hold for EN to be taken. -/
def geomOk (s : State) (c : Nat) : Bool :=
  let pb := pageBits s c
  let bb := blockBits s c
  1 ≤ pb && pb ≤ 16 && 1 ≤ bb && bb ≤ 13 && planeBits s c < 3 && lunBits s c < 3
    && s.rf (Reg.CH_GEOM c) 25 24 ≠ 0 && s.rf (Reg.CH_GEOM c) 29 28 < 3 && s.rf (Reg.CH_MAP c) 9 8 < 3
    && pb + bb + lunBits s c ≤ 24 && ceCount s c * lunsPerCe s c ≤ 8 && lunsPerCe s c ≤ 2 ^ lunBits s c

/-- CHANNEL_ENABLE (R200, R205): EN of channel `c` is written. A channel that starts is in SDR timing mode 0. -/
def execChannelEnable (c : Fin 8) (en : Bool) (s : State) : Res :=
  s.whenLive fun s =>
    if en then
      if s.rb (Reg.CH_MODE c) 0 then s
      else if geomOk s c then
        modChan c (fun x => { x with ready := true, rate := 0 }) (s.setRb (Reg.CH_MODE c) 0 true)
      else stgEvent 13 s
    else modChan c (fun x => { x with ready := false, rate := 0, switchPending := false })
      ((s.setRb (Reg.CH_MODE c) 0 false).setRb (Reg.CH_MODE c) 8 false)

/-- No job of a channel is running or parked (R201). -/
def chanIdle (s : State) (c : Nat) : Bool :=
  let x := s.eft (4 + c)
  x.unit.isNone && x.parked.isEmpty && x.preempted.isEmpty

/-- RATE_SWITCH (R201): SWITCH 1 written to channel `c`; RATE 11 to 15 is ignored with CFG_REJECT. -/
def execRateSwitch (c : Fin 8) (s : State) : Res :=
  s.whenLive fun s =>
    if 11 ≤ s.rf (Reg.CH_MODE c) 7 4 then stgEvent 13 s
    else if s.rb (Reg.CH_MODE c) 0 then
      modChan c (fun x => { x with switchPending := true }) (s.setRb (Reg.CH_MODE c) 8 true)
    else s

/-- The SET FEATURES sequences of a rate switch on every present die (R201). -/
def setRate (c r : Nat) (s : State) : State :=
  (List.range (min 8 (dieCount s c))).foldl (fun s d =>
    setFeat c d 2 (Config.onfiMode r 2) (setFeat c d 1 (Config.onfiMode r 1) s)) s

/-- RATE_SWITCH_DONE (R201, R202): the switch of an idle channel ends, `passed` the highest RATE at or below the requested
one at which training passed, 0 where none did. The dies are left in the rate that results. -/
def execRateSwitchDone (c : Fin 8) (passed : Fin 11) (s : State) : Res :=
  s.whenLive fun s =>
    if (chan s c).switchPending && chanIdle s c then
      let target := s.rf (Reg.CH_MODE c) 7 4
      let r := min target passed
      let s := s.setRb (Reg.CH_MODE c) 8 false
      let s := setRate c r s
      let s := modChan c (fun x => { x with switchPending := false, rate := r, ready := target = 0 || r ≠ 0 }) s
      if target = 0 then s
      else if r = 0 then stgEvent 0 s
      else if r < target then stgEvent 1 s
      else s
    else s

/-- The unit of an STG eft that stands at the start of a macro-operation `op`: running, uncommitted. -/
def stgUnit (c op : Nat) (s : State) : Option EftUnit :=
  let x := s.eft (4 + c)
  match x.unit with
  | some u => if x.st = .running && x.wait = .none && x.xfer.isNone && !u.committed && eOp u.job.entry = op then some u
              else none
  | none => none

/-- End a macro-operation with an outcome. -/
def stgEnd (c bad status r0 r1 r2 r3 : Nat) (s : State) : State :=
  eftJobDone (4 + c) (if status = 0 then 1 else 0) bad ⟨status, r0, r1, r2, r3⟩ s

/-- An array time ran past its limit (R213, R229): the LUN is reset and the job ends with ARRAY_TIMEOUT. -/
def stgTimeout (c d : Nat) (s : State) : State :=
  stgEnd c 0 4 0 0 0 (engineDetail 0x8007 (lastCause s (4 + c)) (lastPc s (4 + c))) (lunReset c d s)

/-- The read ladder's state (R220). -/
structure Ladder where
  /-- Codewords still failing, in transfer order. -/
  failing : List Nat
  /-- Entry applied last, steps taken, entry of lowest summed weight and that weight, entry of the last success. -/
  r : Nat
  steps : Nat
  best : Nat
  bestW : Nat
  last : Nat
  /-- Corrected bits of each codeword decoded. -/
  bits : List Nat
  /-- Entries applied, newest first. -/
  used : List Nat
  /-- Upsets of the words of the LDPC buffer that the codewords met. -/
  upsets : List (Nat × BitVec 80)
  deriving DecidableEq, Repr

/-- What is observed of codeword `t` in a read; a codeword without an observation fails. -/
def cwObs (l : List CwObs) (t : Nat) : CwObs := l.getD t ⟨32768, false, 0, 3584, 0, []⟩

/-- One read of the failing codewords at entry `r` and its decode in at most `most` iterations. -/
def ladRead (most : Nat) (obs : List CwObs) (r : Nat) (l : Ladder) : Ladder :=
  let w := (l.failing.map fun t => (cwObs obs t).weight).foldl (· + ·) 0
  let got := l.failing.filter fun t => cwDecodes most (cwObs obs t)
  { l with failing := l.failing.filter fun t => !cwDecodes most (cwObs obs t), r := r, used := r :: l.used,
           upsets := l.upsets ++ l.failing.flatMap fun t => (cwObs obs t).upsets,
           best := if w < l.bestW then r else l.best, bestW := min w l.bestW,
           last := if got.isEmpty then l.last else r, bits := l.bits ++ got.map fun t => (cwObs obs t).bits }

/-- The retry steps of R220: at most `n`, over the observations of the re-reads. -/
def ladSteps (most len : Nat) : Nat → List (List CwObs) → Ladder → Ladder
  | 0, _, l => l
  | n + 1, obs, l =>
    if l.failing.isEmpty then l
    else
      let r := if len ≤ l.r + 1 then 1 else l.r + 1
      ladSteps most len n obs.tail { ladRead most (obs.headD []) r l with steps := l.steps + 1 }

/-- The whole ladder of R220 up to the soft decode. -/
def ladRun (s : State) (b : List Byte) (reads : List (List CwObs)) : Ladder :=
  let n := entLen b / 4096
  let len := retryLen s
  let r := stgRetry b
  let most := iterMax s 0
  let l0 := ladRead most (reads.headD []) r ⟨List.range n, r, 0, r, 2 ^ 40, r, [], [], []⟩
  let untried := if r = 0 then len - 1 else len - 2
  ladSteps most len (min untried (s.rf Reg.STG_RETRY_CFG 13 8)) reads.tail l0

/-- The soft decode of the failing codewords about entry `best` (R219, R220). -/
def ladSoft (most : Nat) (obs : List CwObs) (l : Ladder) : Ladder :=
  let got := l.failing.filter fun t => cwDecodes most (cwObs obs t)
  { l with failing := l.failing.filter fun t => !cwDecodes most (cwObs obs t), last := if got.isEmpty then l.last else l.best,
           upsets := l.upsets ++ l.failing.flatMap fun t => (cwObs obs t).upsets,
           bits := l.bits ++ got.map fun t => (cwObs obs t).bits }

/-- Apply read offsets before a read of entry `r` (R212 APPLY, R221): entry 0 is the block's tracked offsets. -/
def applyOffsets (c d block r : Nat) (bad : BusRes → State → State) (k : State → State) (s : State) : State :=
  match (if r = 0 then tabRead (recAddr s c d block) 32 s else retryEntry r s) with
  | (.ok e, s) => k (modLun c d (fun l => { l with offsets := e.take 15 }) s)
  | (x, s) => bad x s

/-- Apply the offsets of several entries in turn. -/
def applyAll (c d block : Nat) (bad : BusRes → State → State) (k : State → State) : List Nat → State → State
  | [], s => k s
  | r :: rs, s => applyOffsets c d block r bad (applyAll c d block bad k rs) s

/-- Shift read offsets by some DAC steps, within a signed byte. -/
def shiftOffsets (k : Int) (offs : List Byte) : List Byte :=
  offs.map fun o => BitVec.ofNat 8 (unsigned 8 (clampI (-128) 127 (signed 8 o.toNat + k)))

/-- The reads of a soft decode about entry `best` (R219): at −DELTA and +DELTA, and for a three-read decode at the entry
itself. The order, that of the rule's text, and an end of an offset's range are DESIGN CHOICE, log entry 51. -/
def softReads (c d block best mode : Nat) (bad : BusRes → State → State) (k : State → State) (s : State) : State :=
  let delta : Int := s.rf Reg.STG_LDPC_CFG 19 16
  applyOffsets c d block best bad (fun s =>
    let at_ := (lun s c d).offsets
    let go (o : List Byte) (s : State) : State := modLun c d (fun l => { l with offsets := o }) s
    let s := go (shiftOffsets delta at_) (go (shiftOffsets (-delta) at_) s)
    k (modChan c (fun x => { x with llr := llrOf s mode }) (if mode = 2 then go at_ s else s))) s

/-- Data of the first `n` codewords of a read, in ascending plane and codeword order (R207); an erased page that decodes
all the same, and the block of a suspended program or erase (R218), give free bytes. -/
def readData (b : List Byte) : Nat → State → List Byte × State
  | 0, s => ([], s)
  | n + 1, s =>
    let (front, s) := readData b n s
    let c := stgCh b
    let block := (jobBlocks s b).getD (n / cwPerPage s c) 0
    let d := jobDie s b
    if nandHas s c d block (stgPage b) && !suspBlock s c d block then
      (front ++ cwData s c (stgCe b) (stgLun b) block (stgPage b) (n % cwPerPage s c) (nandPage s c d block (stgPage b)), s)
    else
      let (x, s) := s.drawBytes 4096
      (front ++ x, s)

/-- Mask of a list of codeword numbers. -/
def maskOf (l : List Nat) : Nat := l.foldl (fun m t => m ||| 2 ^ t) 0

/-- READ_PAGE (R207, R211, R220 to R226): the page read of the job on channel `c`. `reads` gives what is observed of
each codeword in the first read and in each re-read, `soft` in the soft decode; `tmo` says that an array time passed
CHc_TMO_RD. -/
def execReadPage (c : Fin 8) (reads : List (List CwObs)) (soft : List CwObs) (tmo : Bool) (s : State) : Res :=
  s.whenLive fun s =>
    match stgUnit c 1 s with
    | none => s
    | some u =>
      let b := u.job.entry
      let d := jobDie s b
      let block := (jobBlocks s b).headD 0
      let n := entLen b / 4096
      let bad := eftAccessFail (4 + c)
      if tmo then applyOffsets c d block (stgRetry b) bad (stgTimeout c d) s
      else if (List.range n).all fun t => looksErased s (cwObs (reads.headD []) t) then
        applyOffsets c d block (stgRetry b) bad (fun s =>
          stgEnd c 0 8 0 0 0 (0x8001 + maskOf (List.range n) * 2 ^ 32) (s.bump (Reg.CH_CW_FAIL c) n)) s
      else
        let l := ladRun s b reads
        let isSoft := !l.failing.isEmpty && 0 < stgLdpc b
        let best := l.best
        let l := if isSoft then ladSoft (iterMax s (stgLdpc b)) soft l else l
        let after (s : State) : State :=
          let s := (bufferUpsets 8 4 l.upsets s).2.bump (Reg.CH_CW_OK c) (n - l.failing.length)
          let s := s.bump (Reg.CH_CW_FAIL c) l.failing.length
          let s := s.bump (Reg.CH_RETRIES c) l.steps
          let s := s.bump (Reg.CH_CORR_BITS c) (l.bits.foldl (· + ·) 0)
          let s := if isSoft then advise 5 c d block (s.bump (Reg.CH_SOFT c)) else s
          let corr := l.bits.foldl max 0
          if l.failing.isEmpty then
            let (data, s) := readData b n s
            writeOr 4 (entBuf b) data bad (fun s => stgEnd c 0 0 (entLen b) corr l.last 0 s) s
          else stgEnd c 0 8 0 corr 0 (0x8002 + maskOf l.failing * 2 ^ 32) s
        applyAll c d block bad (if isSoft then softReads c d block best (stgLdpc b) bad after else after) l.used.reverse
          (modChan c (fun x => { x with llr := llrOf s 0 }) s)

/-- An STG job has just started: a PROGRAM_PAGE or ERASE_BLOCK that its block records bar ends before its first microword
(R225). -/
def stgAdmit (c : Nat) (s : State) : State :=
  match (s.eft (4 + c)).unit with
  | none => s
  | some u =>
    let b := u.job.entry
    let page := if eOp b = 2 then some (stgPage b) else none
    if eOp b = 2 || eOp b = 3 then
      checkBlocks c (jobDie s b) page (eftAccessFail (4 + c)) (fun code s => stgEnd c 0 8 0 0 0 code s) (fun s => s)
        (jobBlocks s b) false false s
    else s

/-- Program the planes of a job that pass, `data` the job's whole buffer (R207, R209). -/
def programPlanes (b : List Byte) (data : List Byte) (failed : Nat) (s : State) : State :=
  let c := stgCh b
  let d := jobDie s b
  let per := cwPerPage s c * 4096
  (jobBlocks s b).zipIdx.foldl (fun s (block, i) =>
    if nbit failed (block % 2 ^ planeBits s c) then s
    else nandProgram c d block (stgPage b)
      (pageRaw s c (stgCe b) (stgLun b) block (stgPage b) ((data.drop (i * per)).take per)) s) s

/-- PROGRAM_PAGE (R207, R225, R226): `failed` is the mask of planes whose status reports failure. -/
def execProgramPage (c : Fin 8) (failed : BitVec 4) (tmo : Bool) (s : State) : Res :=
  s.whenLive fun s =>
    match stgUnit c 2 s with
    | none => s
    | some u =>
      let b := u.job.entry
      let d := jobDie s b
      let bad := eftAccessFail (4 + c)
      let f := failed.toNat &&& stgPlanes b
      checkBlocks c d (some (stgPage b)) bad (fun code s => stgEnd c 0 8 0 0 0 code s) (fun s =>
        readOr 4 (entBuf b) (entLen b) bad (fun data s =>
          if tmo then stgTimeout c d s
          else
            let s := programPlanes b data f s
            if f = 0 then stgEnd c 0 0 (entLen b) 0 0 0 s else stgEnd c f 8 0 0 0 0x8003 s) s) (jobBlocks s b) false false s

/-- ERASE_BLOCK (R225, R226). -/
def execEraseBlock (c : Fin 8) (failed : BitVec 4) (tmo : Bool) (s : State) : Res :=
  s.whenLive fun s =>
    match stgUnit c 3 s with
    | none => s
    | some u =>
      let b := u.job.entry
      let d := jobDie s b
      let f := failed.toNat &&& stgPlanes b
      if s.stg.pwrLoss then s
      else
        checkBlocks c d none (eftAccessFail (4 + c)) (fun code s => stgEnd c 0 8 0 0 0 code s) (fun s =>
          if tmo then stgTimeout c d s
          else
            let s := (jobBlocks s b).foldl (fun s k => if nbit f (k % 2 ^ planeBits s c) then s else nandErase c d k s) s
            if f = 0 then stgEnd c 0 0 0 0 0 0 s else stgEnd c f 8 0 0 0 0x8004 s) (jobBlocks s b) false false s

/-- Key of a die for its maker's data. -/
def dieKey (c d : Nat) : Nat := c * 8 + d

/-- The four bytes of a feature (R206). -/
def getFeat (s : State) (c d a : Nat) : List Byte :=
  leBytes 4 (((lun s c d).feats.lookup a).getD (Config.nandFeature (dieKey c d) a))

/-- STG_SET_FEATURE (R206). -/
def execStgSetFeature (c : Fin 8) (s : State) : Res :=
  s.whenLive fun s =>
    match stgUnit c 4 s with
    | none => s
    | some u =>
      let b := u.job.entry
      readOr 4 (entBuf b) 4 (eftAccessFail (4 + c)) (fun data s =>
        stgEnd c 0 0 4 0 0 0 (setFeat c (jobDie s b) (stgBlock b) (leNat data) s)) s

/-- STG_GET_FEATURE (R206). -/
def execStgGetFeature (c : Fin 8) (s : State) : Res :=
  s.whenLive fun s =>
    match stgUnit c 5 s with
    | none => s
    | some u =>
      let b := u.job.entry
      writeOr 4 (entBuf b) (getFeat s c (jobDie s b) (stgBlock b)) (eftAccessFail (4 + c)) (stgEnd c 0 0 4 0 0 0) s

/-- RESET_LUN (R206, R212). -/
def execResetLun (c : Fin 8) (s : State) : Res :=
  s.whenLive fun s =>
    match stgUnit c 6 s with
    | none => s
    | some u => stgEnd c 0 0 0 0 0 0 (lunReset c (jobDie s u.job.entry) s)

/-- The bytes of a parameter page or of READ ID (R206): the die maker's. -/
def paramData (c d : Nat) (b : List Byte) : List Byte :=
  (List.range (entLen b)).map fun i => Config.nandParam (dieKey c d) (stgPage b) i

/-- READ_PARAM (R206). -/
def execReadParam (c : Fin 8) (tmo : Bool) (s : State) : Res :=
  s.whenLive fun s =>
    match stgUnit c 7 s with
    | none => s
    | some u =>
      let b := u.job.entry
      if tmo then stgTimeout c (jobDie s b) s
      else writeOr 4 (entBuf b) (paramData c (jobDie s b) b) (eftAccessFail (4 + c)) (stgEnd c 0 0 (entLen b) 0 0 0) s

/-- Wake the parked jobs of a die that a predicate names; woken jobs stand first, in the order they woke (R213, R214). -/
def wakeParked (c d : Nat) (p : Parked → Bool) (timedOut : Bool) (s : State) : State :=
  modEft (4 + c) (fun x =>
    let hit (k : Parked) : Bool := k.die = d && !k.woken && p k
    let woke := (x.parked.filter hit).map fun k => { k with woken := true, wokeTo := timedOut }
    let rest := x.parked.filter fun k => !hit k
    { x with parked := rest.filter Parked.woken ++ woke ++ rest.filter fun k => !k.woken }) s

/-- What a finished array operation leaves (R212, R226): pages programmed or read, blocks erased. A failed erase leaves the
pages readable; a read of a suspended operation's block gives free bytes (R218). -/
def arrayEnd (c d : Nat) (fail : Bool) (s : State) : State :=
  let l := lun s c d
  let b := l.entry
  let s := match l.op with
    | .program =>
      if fail then lunLost c d s
      else (jobBlocks s b).foldl (fun s k =>
        nandProgram c d k (stgPage b) ((l.data.lookup (k % 2 ^ planeBits s c)).getD []) s) s
    | .erase => if fail then s else (jobBlocks s b).foldl (fun s k => nandErase c d k s) s
    | .read =>
      let (pages, s) := (jobBlocks s b).foldl (fun (acc : List (Nat × List Byte) × State) k =>
        let page := nandPage acc.2 c d k (stgPage b)
        let (bs, s) := if suspBlock acc.2 c d k then acc.2.drawBytes page.length else (page, acc.2)
        (acc.1 ++ [(k % 2 ^ planeBits s c, bs)], s)) ([], s)
      modLun c d (fun l => { l with data := pages }) s
    | .other =>
      let bs := if eOp b = 5 then getFeat s c d (stgBlock b) else paramData c d b
      modLun c d (fun l => { l with data := [(0, bs)] }) s
    | .none => s
  modLun c d (fun l => { l with op := .none, fail := fail && (l.op = .program || l.op = .erase) }) s

/-- LUN_READY (R212, R213, R217): die `d` of channel `c` reports ready, `fail` the FAIL bit of its status. -/
def execLunReady (c : Fin 8) (d : Fin 8) (fail : Bool) (s : State) : Res :=
  s.whenLive fun s =>
    let l := lun s c d
    if l.busy then
      let s := if l.susp = .entering then
          modLun c d (fun l =>
              { l with susp := .yes, heldOp := l.op, heldEntry := l.entry, heldData := l.data, op := .none })
            (s.bump (Reg.CH_SUSPENDS c))
        else arrayEnd c d fail s
      let s := modLun c d (fun l => { l with busy := false }) s
      let s := wakeParked c d (fun k => k.kind = .ready) false s
      match (s.eft (4 + c)).unit with
      | some u => if jobDie s u.job.entry = d then wakeEft (4 + c) 2 s else s
      | none => s
    else s

/-- ARRAY_TIMEOUT (R213): the array time of the job parked on die `d` has passed its limit. -/
def execArrayTimeout (c : Fin 8) (d : Fin 8) (s : State) : Res :=
  s.whenLive fun s => if (lun s c d).busy then wakeParked c d (fun k => k.kind = .ready) true s else s

/-- PARKED_JOB_RESUME (R214): the eft of channel `c` is free, and the parked job that woke first goes on after its
YIELD. -/
def execParkedJobResume (c : Fin 8) (s : State) : Res :=
  s.whenLive fun s =>
    let x := s.eft (4 + c)
    match x.unit, x.parked with
    | none, k :: rest =>
      if k.woken && x.st = .idle then
        modEft (4 + c) (fun x => { x with st := .running, wait := .none, xfer := none, parked := rest,
                                          unit := some { k.unit with timedOut := k.wokeTo } }) s
      else s
    | _, _ => s

/-- BLK_CMD (R228): a write of STG_BLK_CMD with GO; ignored while one waits. -/
def execBlkCmd (v : BitVec 32) (s : State) : Res :=
  s.whenLive fun s =>
    if s.stg.blkCmd.isSome then s
    else
      let w := v &&& 0x077FFFFF
      let s := s.setReg Reg.STG_BLK_CMD w
      { s with stg := { s.stg with blkCmd := some w } }

/-- BLK_CMD_APPLY (R228): the named channel is at an idle boundary, and STG sets or clears the flags of the block's
record. -/
def execBlkCmdApply (s : State) : Res :=
  s.whenLive fun s =>
    match s.stg.blkCmd with
    | none => s
    | some w =>
      let c := fld w 20 18
      if (s.eft (4 + c)).unit.isNone then
        let s := { s with stg := { s.stg with blkCmd := none } }
        let m : Byte := BitVec.ofNat 8 (fld w 26 24)
        let d := dieIndex s c (fld w 17 15) (fld w 14 13)
        match fld w 22 21 with
        | 1 => (recUpdate c d (fun r => patch r 15 [byteAt r 15 ||| m]) (fun _ _ => []) (fld w 12 0) s).2
        | 2 => (recUpdate c d (fun r => patch r 15 [byteAt r 15 &&& ~~~m]) (fun _ _ => []) (fld w 12 0) s).2
        | _ => s
      else s

/-- ADVISE_FIFO_POP (R227): a read of STG_ADVISE_FIFO answers and removes the oldest entry. -/
def execAdviseFifoPop (s : State) : Res :=
  s.whenLive fun s =>
    match s.stg.advise with
    | [] => answer 0 s
    | w :: t => answer w { s with stg := { s.stg with advise := t } }

end Sys2Proof.Machine
end

