-- ==== Sys2Proof/Machine/JobOps.lean ====
section
/-!
DEFINITION. Machine/JobOps.lean: the checks of a job's entries (R155 to R159, R164, R166, R183, R206, R240), and the
start of a job (R152, R156, R167).
-/

namespace Sys2Proof.Machine

open Sys2Proof

/-- A named field of a first entry: byte offset, bytes, mask (R158, Table "First-entry bodies"). -/
abbrev NamedField := Nat × Nat × Nat

/-- Mask of a 40-bit address in an 8-byte field. -/
def adr40 : Nat := 2 ^ 40 - 1

/-- The named fields of a class and OP. -/
def namedFields (f c op : Nat) : List NamedField :=
  match f, c with
  | 0, 0 =>
    if op ≤ 6 then
      [(8, 2, 0x3FFF), (10, 1, 7), (11, 1, 15), (12, 4, 0xFFFFFF), (16, 16, 2 ^ 128 - 1), (32, 6, 2 ^ 48 - 1), (38, 1, 31),
       (39, 1, 0x77), (40, 1, 31), (41, 1, 31), (44, 4, 0xFFFFFF), (48, 4, 0xFFFFFF)]
    else if op = 7 then [(8, 2, 0x3FFF), (10, 1, 255)]
    else [(8, 2, 0xFFF), (10, 2, 0x3FFF), (16, 8, adr40), (24, 8, 2 ^ 64 - 1), (32, 4, 2 ^ 32 - 1)]
  | 0, 1 => [(8, 2, 0x3FFF), (16, 8, adr40), (24, 4, 2 ^ 32 - 1), (32, 8, 2 ^ 64 - 1), (40, 4, 2 ^ 32 - 1)]
  | 0, 2 => [(8, 1, 1), (16, 8, adr40), (24, 2, 65535)]
  | 2, 0 => [(8, 6, 2 ^ 48 - 1), (14, 1, 31), (15, 1, 3), (16, 4, 2 ^ 32 - 1), (24, 8, adr40), (32, 4, 2 ^ 32 - 1),
             (36, 2, 65535), (40, 4, 0x7FFFF)]
  | 2, 1 => [(8, 1, 1), (9, 1, 255), (10, 1, 15), (16, 8, 2 ^ 63 + adr40), (24, 8, adr40)]
  | 4, 0 => [(8, 1, 7), (9, 1, 7), (10, 1, 3), (11, 1, 15), (12, 4, 2 ^ 32 - 1), (16, 4, 2 ^ 32 - 1), (24, 8, adr40),
             (32, 4, 2 ^ 32 - 1), (36, 1, 3), (37, 1, 255)]
  | 5, 0 => [(16, 8, adr40), (24, 4, 2 ^ 32 - 1), (32, 8, adr40), (40, 4, 2 ^ 32 - 1), (44, 1, 3), (45, 1, 255)]
  | 5, 1 => [(16, 8, adr40), (24, 4, 2 ^ 32 - 1), (32, 8, adr40), (40, 4, 2 ^ 32 - 1)]
  | 5, 5 => [(16, 8, adr40), (24, 4, 2 ^ 32 - 1), (32, 8, adr40), (40, 4, 2 ^ 32 - 1)]
  | 5, 2 => [(8, 1, 255), (9, 1, 255), (12, 4, 2 ^ 32 - 1)]
  | 5, 3 => [(8, 1, 255), (9, 1, 255), (12, 4, 2 ^ 32 - 1), (16, 8, 2 ^ 64 - 1), (24, 8, 2 ^ 64 - 1)]
  | 5, 4 => [(8, 1, 255), (16, 8, adr40), (24, 8, adr40), (32, 8, 2 ^ 64 - 1), (40, 4, 2 ^ 32 - 1)]
  | 3, c => if c = 0 then
      [(8, 6, 2 ^ 48 - 1), (14, 1, 31), (15, 1, 3), (16, 4, 2 ^ 32 - 1), (24, 8, adr40), (32, 4, 2 ^ 32 - 1), (36, 2, 65535),
       (40, 4, 0x7FFFF)]
    else [(8, 1, 1), (9, 1, 255), (10, 1, 15), (16, 8, 2 ^ 63 + adr40), (24, 8, adr40)]
  | _, _ => []

/-- The bits of the 64 bytes of a first entry that are not reserved: header and named fields. -/
def namedMask (f c op : Nat) : Nat :=
  (namedFields f c op).foldl (fun m (o, _, k) => m ||| k * 2 ^ (8 * o)) 0xFFFFFFF7

/-- A reserved bit of a first entry is set (REASON RSV). -/
def firstRsv (f c op : Nat) (b : List Byte) : Bool :=
  let v := leNat (fit 64 b)
  (v &&& namedMask f c op) ≠ v

/-- Segments of a continuation entry: ADDR, LENGTH and the flag word (R159). -/
def segsOf (b : List Byte) : List (Nat × Nat × Nat) := [8, 24, 40].map fun o => (field b o 8, field b (o + 8) 4, field b (o + 12) 4)

/-- A reserved bit of a continuation entry is set: header, address bits 63:40, flag bits 31:1, bytes 56 to 63. -/
def contRsv (b : List Byte) : Bool :=
  (byteAt b 0).getLsbD 3 || field b 4 4 ≠ 0 || field b 56 8 ≠ 0
    || (segsOf b).any fun (a, _, w) => 2 ^ 40 ≤ a || 1 < w

/-- A used segment follows an unused one. -/
def contGap (b : List Byte) : Bool :=
  match segsOf b with
  | [(_, l0, _), (_, l1, _), (_, l2, _)] => (l0 = 0 && (l1 ≠ 0 || l2 ≠ 0)) || (l1 = 0 && l2 ≠ 0)
  | _ => false

/-- Used segments of a job, in entry and segment order. -/
def jobSegs (es : List (List Byte)) : List (Nat × Nat × Nat) := (es.tail.flatMap segsOf).filter fun (_, l, _) => l ≠ 0

/-- Source and destination addresses of an XFM 2 or 3 job. -/
def segSrcs (es : List (List Byte)) : List Nat := ((jobSegs es).filter fun (_, _, w) => w = 0).map fun (a, _, _) => a
def segDsts (es : List (List Byte)) : List Nat := ((jobSegs es).filter fun (_, _, w) => w ≠ 0).map fun (a, _, _) => a

/-- Set bits of a number below 64. -/
def bitsOf64 (v : Nat) : List Nat := (List.range 64).filter fun i => nbit v i

/-- Two ranges do not overlap. -/
def apart (a n b m : Nat) : Bool := a + n ≤ b || b + m ≤ a

/-- Fields of XFM entries. -/
def xSrc (b : List Byte) : Nat := field b 16 5
def xSrcLen (b : List Byte) : Nat := field b 24 4
def xDst (b : List Byte) : Nat := field b 32 5
def xCap (b : List Byte) : Nat := field b 40 4
def xK (b : List Byte) : Nat := field b 8 1
def xM (b : List Byte) : Nat := field b 9 1
def xFrag (b : List Byte) : Nat := field b 12 4
def xPresent (b : List Byte) : Nat := field b 16 8
def xWant (b : List Byte) : Nat := field b 24 8
def xBand (b : List Byte) : Nat := field b 8 1
def xDst4 (b : List Byte) : Nat := field b 24 5
def xTweak (b : List Byte) : Nat := field b 32 8
def xMode (b : List Byte) : Nat := field b 44 1
def xDepth (b : List Byte) : Nat := field b 45 1

/-- The first entry of an XFM job holds values Table "XFM entry validity" allows; the counts of segments are judged
with it. -/
def xfmEntryOk (c : Nat) (es : List (List Byte)) : Bool :=
  let b := es.headD []
  let ecOk := 1 ≤ xK b && xK b ≤ 63 && 1 ≤ xM b && xM b ≤ 16 && xK b + xM b ≤ 64
    && xFrag b % 64 = 0 && 64 ≤ xFrag b && xFrag b ≤ 16777216
  match c with
  | 0 =>
    1 ≤ xSrcLen b && xSrcLen b ≤ 16777216 && xMode b ≠ 0 && (xMode b = 3 || xDepth b = 0) && 1 ≤ xCap b
      && apart (xSrc b) (xSrcLen b) (xDst b) (xCap b)
  | 1 => 1 ≤ xSrcLen b && xSrcLen b ≤ 16777216 && 1 ≤ xCap b && apart (xSrc b) (xSrcLen b) (xDst b) (xCap b)
  | 2 => ecOk && (segSrcs es).length = xK b && (segDsts es).length = xM b
  | 3 =>
    let n := (bitsOf64 (xPresent b)).length
    let w := (bitsOf64 (xWant b)).length
    ecOk && xPresent b < 2 ^ (xK b + xM b) && xWant b < 2 ^ (xK b + xM b) && xPresent b &&& xWant b = 0
      && xK b ≤ n && n ≤ xK b + xM b - 1 && 1 ≤ w && w ≤ 16 && (segSrcs es).length = n && (segDsts es).length = w
  | 4 =>
    let n := field b 40 4
    xBand b < 64 && 1 ≤ n && n ≤ 4096 && xTweak b + n ≤ 2 ^ 64
      && (xSrc b = xDst4 b || apart (xSrc b) (n * 4160) (xDst4 b) (n * 4160))
  | _ => 1 ≤ xSrcLen b && 1 ≤ xCap b

/-- The first entry of a NET job holds values in range (R158, R50, R54). TARGET is looked at only in CREATE and MODIFY, and
MAX_RD only in CREATE and in a MODIFY to RTR or RTS (DESIGN CHOICE, log entry 51). -/
def netEntryOk (c : Nat) (b : List Byte) : Bool :=
  let op := eOp b
  let qp (o : Nat) : Bool := 2 ≤ field b o 2
  let timeoutOk := field b 38 1 ≤ 20
  let rdOk := 1 ≤ field b 41 1 && field b 41 1 ≤ 16
  let target := field b 10 1
  match c with
  | 0 =>
    match op with
    | 1 => qp 8 && target ≤ 4 && timeoutOk && rdOk
    | 2 => qp 8 && target ≤ 4 && timeoutOk && ((target ≠ 2 && target ≠ 3) || rdOk)
    | 7 => qp 8
    | 8 => qp 10
    | 9 => true
    | _ => qp 8 && timeoutOk
  | 1 => qp 8 && field b 24 4 ≤ 2 ^ 31
  | _ => 60 ≤ field b 24 2 && field b 24 2 ≤ 9216

/-- The first entry of a MEDx job holds values in range (R158, R183, R267): EFT, COUNT by OP, SYNC_OFF, and the fields
that name the slot. -/
def medEntryOk (s : State) (c : Nat) (b : List Byte) : Bool :=
  if c = 0 then
    let n := medCount b
    medEftSel b ≠ 2
      && (match eOp b with
          | 1 | 2 | 3 => 1 ≤ n && n ≤ 65536
          | 4 => 1 ≤ n && n ≤ 2
          | _ => n = 0)
      && (4 < eOp b || zonePbaOk s b)
  else signed 8 (field b 9 1) ≠ -8 && -7 ≤ signed 8 (field b 9 1) && signed 8 (field b 9 1) ≤ 7

/-- The fields of a first entry hold allowed values (REASON VALUE). -/
def firstValueOk (s : State) (f c : Nat) (es : List (List Byte)) : Bool :=
  let b := es.headD []
  match f with
  | 0 => netEntryOk c b
  | 2 => medEntryOk s c b
  | 3 => medEntryOk s c b
  | 4 => stgEntryOk s b
  | _ => xfmEntryOk c es

/-- Reasons the first entry of a job meets, lowest first (Table "ERROR reasons"); `long`: the chain has no LAST. -/
def firstReasons (s : State) (q : Nat) (es : List (List Byte)) (long : Bool) : List Nat :=
  let b := es.headD []
  let f := sqFunc s q
  let c := sqClass s q
  (if eClass b ≠ c then [1] else []) ++ (if !opListed f c (eOp b) then [2] else [])
    ++ (if firstRsv f c (eOp b) b then [3] else []) ++ (if !firstValueOk s f c es then [4] else [])
    ++ (if !eFirst b then [5] else []) ++ (if long then [7] else [])
    ++ (if classSingle f c && !(eFirst b && eLast b) then [9] else [])

/-- Reasons a continuation entry meets, lowest first. -/
def contReasons (s : State) (q : Nat) (first b : List Byte) : List Nat :=
  let c := sqClass s q
  let ec := sqFunc s q = 5 && (c = 2 || c = 3)
  let badLen := ec && ((segsOf b).any fun (_, l, _) => l ≠ 0 && l ≠ xFrag first)
  (if eClass b ≠ c then [1] else []) ++ (if eOp b ≠ eOp first then [2] else []) ++ (if contRsv b then [3] else [])
    ++ (if contGap b || badLen then [4] else []) ++ (if eFirst b then [6] else [])
    ++ (if eJobId b ≠ eJobId first then [8] else [])

/-- The first malformed entry of a job, as an offset from its first entry, and the lowest reason it meets (R164,
R166). -/
def malformedAt (s : State) (q : Nat) (es : List (List Byte)) (long : Bool) : Option (Nat × Nat) :=
  let b := es.headD []
  match firstReasons s q es long with
  | r :: _ => some (0, r)
  | [] =>
    (es.zipIdx.filterMap fun (e, k) =>
      if k = 0 then none
      else match contReasons s q b e with
        | r :: _ => some (k, r)
        | [] => none).head?

/-- Most entries a job of a ring can have (R156, R166). -/
def chainLimit (s : State) (q : Nat) : Nat := min 64 (2 ^ sqN s q)

/-- The next job of an ACTIVE, unstalled ring, wholly fetched and below P, and whether it lacks a LAST (R153, R156). The
checks of R164 judge a job once it stands here, so a malformed entry of a longer job is reported when the job's LAST entry,
or the chain limit, has been fetched (DESIGN CHOICE, log entry 51). -/
def readyJob (s : State) (q : Nat) : Option (List (List Byte) × Bool) :=
  let es := nextEntries s q
  let have_ := ringCount (sqN s q) (sqP s q) (sqF s q)
  if sqState s q ≠ 1 || s.rb (Reg.SQ_STATE q) 26 || es.isEmpty || have_ < es.length then none
  else if es.any eLast then some (es, false)
  else if chainLimit s q ≤ es.length then some (es, true)
  else none

/-- A ready job without fault. -/
def goodJob (s : State) (q : Nat) : Option (List (List Byte)) :=
  match readyJob s q with
  | some (es, long) => if (malformedAt s q es long).isNone then some es else none
  | none => none

/-- A READ_PAGE for a die stands ready for dispatch: the good next job of an ACTIVE, unstalled STG ring, before P (R216). -/
def readReady (s : State) (c d : Nat) : Bool :=
  (ringsOf s 4).any fun q =>
    match goodJob s q with
    | some (b :: _) => eOp b = 1 && stgCh b = c && jobDie s b = d
    | _ => false

/-- Start a job: it leaves the fetched entries, SQ_FETCH moves past it, and its place is reserved (R156, R167). -/
def startJob (q : Nat) (es : List (List Byte)) (p : Place) (s : State) : State :=
  let n := sqN s q
  let first := sqF s q
  let j : Job := ⟨q, first, es, sqCq s q, p, false, none, false⟩
  let used (x : Fetched) : Bool := x.sq = q && ringCount n x.idx first < es.length
  let key := sqFunc s q * 64 + sqClass s q * 4 + sqPrio s q
  let s := s.setRf (Reg.SQ_FETCH q) 16 0 ((first + es.length) % 2 ^ (n + 1))
  { s with rings := { s.rings with
      jobs := s.rings.jobs ++ [j], fetched := s.rings.fetched.filter fun x => !used x,
      lastStart := Sparse.set (fun _ => 0) s.rings.lastStart key (q + 1) } }

/-- With a place free, start the job and go on; with none the rings that name the completion ring stall (R167). -/
def withPlace (q : Nat) (es : List (List Byte)) (k : State → State) (s : State) : State :=
  match freePlace s (sqFunc s q) (sqCq s q) with
  | none => stallRings (sqFunc s q) (sqCq s q) s
  | some p => k (startJob q es p s)

end Sys2Proof.Machine
end

