-- ==== Sys2Proof/Machine/XfmOps.lean ====
section
/-!
DEFINITION. Machine/XfmOps.lean: shared operations of the data transforms (spec/08): lanes (R238), the fallback state
(R244), the end of a job, and the erasure code (R249, R250).
-/

namespace Sys2Proof.Machine

open Sys2Proof

/-- Change XFM. -/
def modXfm (f : Xfm → Xfm) (s : State) : State := { s with xfm := f s.xfm }

/-- Raise bit `k` of XFM_EVENT_STATUS (R258). -/
def xfmEvent (k : Nat) (s : State) : State := raise (160 + k) s

/-- Lanes are shared by the two erasure classes (R238). -/
def laneClass (c : Nat) : Nat := if c = 3 then 2 else c

/-- A lane of a class is fit for use: of the cipher lanes, those that passed the known-answer test (R256). -/
def laneFit (s : State) (c l : Nat) : Bool := c ≠ 4 || nbit s.xfm.ciph l

/-- Lanes of a class. -/
def laneNumber (c : Nat) : Nat := match c with
  | 0 => 8
  | 1 => 8
  | 4 => 4
  | _ => 1

/-- The lowest free lane of a class (R238). -/
def freeLane (s : State) (c : Nat) : Option Nat :=
  (List.range (laneNumber c)).find? fun l =>
    laneFit s c l && !(s.xfm.lanes.any fun x => x.cls = laneClass c && x.lane = l)

/-- The lane that runs a job. -/
def laneOf (s : State) (c l : Nat) : Option Lane := s.xfm.lanes.find? fun x => x.cls = laneClass c && x.lane = l

/-- Thresholds in effect, bytes (R260): OFF not less than ON acts as ON − 1, and ON 0 as 1 and 0. -/
def fbOn (s : State) : Nat := orOne (s.rf Reg.XFM_FB_THR 15 0) * 2 ^ 20
def fbOff (s : State) : Nat := min (s.rf Reg.XFM_FB_THR 31 16) (orOne (s.rf Reg.XFM_FB_THR 15 0) - 1) * 2 ^ 20

/-- Input bytes of the XFM 0 jobs started and not completed, and of those ready for start (R244). -/
def fbBytes (s : State) : Nat :=
  let started := (s.rings.jobs.filter fun j => sqFunc s j.sq = 5 && sqClass s j.sq = 0 && j.done.isNone && !j.malformed).map
    fun j => xSrcLen j.entry
  let ready := (ringsOf s 5).filterMap fun q =>
    if sqClass s q = 0 then (goodJob s q).map fun es => xSrcLen (es.headD []) else none
  (started ++ ready).foldl (· + ·) 0

/-- The fallback state is evaluated (R244). -/
def fbEval (s : State) : State :=
  if !s.rb Reg.XFM_CTRL 0 then modXfm (fun x => { x with fallback := false }) s
  else
    let n := fbBytes s
    if s.xfm.fallback then
      if n ≤ fbOff s then modXfm (fun x => { x with fallback := false }) s else s
    else if fbOn s ≤ n then xfmEvent 6 (modXfm (fun x => { x with fallback := true }) s)
    else s

/-- A lane is free again. -/
def dropLane (q first : Nat) (s : State) : State :=
  modXfm (fun x => { x with lanes := x.lanes.filter (fun l => !(l.sq = q && l.first = first)),
                            fbJobs := x.fbJobs.filter (fun j => j ≠ (q, first)),
                            units := x.units.filter fun p => p.1 ≠ q || p.2.1 ≠ first }) s

/-- A job of a lane ends with an outcome. -/
def xfmEnd (l : Lane) (o : Outcome) (s : State) : State := fbEval (dropLane l.sq l.first (finishJob l.sq l.first o s))

/-- The job of a lane runs as MODE 2 because of the fallback state (R244). -/
def isFallback (s : State) (l : Lane) : Bool := s.xfm.fbJobs.contains (l.sq, l.first)

/-- A job of a lane ends because a data access failed (R165): RESULT1 carries FALLBACK (R243, R244). -/
def xfmBad (l : Lane) (r : BusRes) (s : State) : State :=
  fbEval (dropLane l.sq l.first (failAccessWith (b2n (isFallback s l) * 2) l.sq l.first r s))

/-- A started job takes a lane (R238); a MODE 3 job that starts while the fallback state holds runs as MODE 2 (R244);
with no cipher lane left a cipher job ends with CIPHER_DOWN (R256). -/
def xfmDispatch (q first c : Nat) (es : List (List Byte)) (s : State) : State :=
  let b := es.headD []
  match freeLane s c with
  | none => finishJob q first ⟨4, 0, 0, 0, 0x9303⟩ s
  | some l =>
    let s := takeJob q first (modXfm (fun x => { x with lanes := ⟨laneClass c, l, q, first⟩ :: x.lanes }) s)
    if c = 0 && xMode b = 3 && s.xfm.fallback then
      modXfm (fun x => { x with fbJobs := (q, first) :: x.fbJobs }) (s.bump Reg.XFM_FALLBACK_JOBS)
    else s

/-- A job of class `c` can have a lane now, or needs none. -/
def laneReady (s : State) (c : Nat) : Bool := (freeLane s c).isSome || (c = 4 && s.xfm.ciph % 16 = 0)

/-- Charge of an XFM job (Table "Charges"). -/
def xfmCharge (s : State) (c : Nat) (b : List Byte) : Nat :=
  let n := match c with
    | 2 => xK b * xFrag b
    | 3 => xK b * xFrag b
    | 4 => field b 40 4 * 4160
    | _ => xSrcLen b
  s.rf Reg.BA_COST_XFM 15 0 * ((n + 65535) / 65536)

/-- A combination of fragments. -/
def ecCombine (cs : List Nat) (fs : List (List Nat)) (n : Nat) : List Nat :=
  (cs.zip fs).foldl (fun acc (c, f) => List.zipWith (fun a v => a ^^^ gf8Mul c v) acc f) (List.replicate n 0)

/-- Coefficients of fragment `i` over the K data fragments (R249). -/
def ecRow (k i : Nat) : List Nat :=
  if i < k then (List.range k).map fun j => b2n (i = j) else (List.range k).map fun j => gf8Inv ((0x40 + (i - k)) ^^^ j)

/-- Read ranges of `n` bytes in turn, or the first failure. -/
def readAll (n : Nat) (bad : BusRes → State → State) (k : List (List Byte) → State → State) :
    List Nat → List (List Byte) → State → State
  | [], acc, s => k acc s
  | a :: t, acc, s => readOr 5 a n bad (fun bs s => readAll n bad k t (acc ++ [bs]) s) s

/-- Write ranges in turn, or the first failure. -/
def writeAll (bad : BusRes → State → State) (k : State → State) : List (Nat × List Byte) → State → State
  | [], s => k s
  | (a, bs) :: t, s => writeOr 5 a bs bad (writeAll bad k t) s

/-- Bytes of a fragment as numbers and back. -/
def natsOf (bs : List Byte) : List Nat := bs.map fun b => b.toNat
def bytesOf (l : List Nat) : List Byte := l.map fun v => BitVec.ofNat 8 v

end Sys2Proof.Machine
end

