-- ==== Sys2Proof/Machine/CruOps.lean ====
section
/-!
DEFINITION. Machine/CruOps.lean: shared operations of Crucible: fuses, retained settings (R562 to R564), band keys (R501),
images and slots (R504 to R507), authorisations (R516) and the mailbox reply (R519).
-/

namespace Sys2Proof.Machine

open Sys2Proof

/-- Change Crucible. -/
def modCru (f : Cru → Cru) (s : State) : State := { s with cru := f s.cru }

/-- Change the fuses. -/
def modFuses (f : Fuses → Fuses) (s : State) : State := modCru (fun c => { c with fuses := f c.fuses }) s

/-- Raise bit `k` of CRU_EVENT_STATUS (R521). -/
def cruEvent (k : Nat) (s : State) : State := raise (240 + k) s

/-- ASCII bytes of a context or a name. -/
def asciiBytes (t : String) : List Byte := t.toList.map fun c => BitVec.ofNat 8 c.toNat

/-- Outcome of a run of flash calls: ROM status, the calls left before the one that does not verify, and the state. -/
structure Fl where
  st : Nat
  left : Option Nat
  s : State

/-- Go on after a flash call that returned OK. -/
def Fl.go (x : Fl) (k : Option Nat → State → Fl) : Fl := if x.st = 0 then k x.left x.s else x

/-- Program bytes. -/
def flWrite (off : Nat) (data : List Byte) (f : Option Nat) (s : State) : Fl :=
  let ((st, f), s) := cfWrite off data f s
  ⟨st, f, s⟩

/-- Erase `n` consecutive blocks of 64 KiB. -/
def flErase : Nat → Nat → Option Nat → State → Fl
  | 0, _, f, s => ⟨0, f, s⟩
  | n + 1, off, f, s =>
    let (st, s) := cfDo 3 off [] (f ≠ some 0) s
    (⟨st, f.map (· - 1), s⟩ : Fl).go fun f s => flErase n (off + 65536) f s

/-! Retained settings. -/

/-- A record of a settings log: TAG, GEN, offset in the copy and LEN (R562). -/
structure SetRec where
  tag : Nat
  gen : Nat
  off : Nat
  len : Nat
  deriving DecidableEq, Repr

/-- First offset of a settings copy (R478). -/
def setBase (c : Nat) : Nat := if c = 0 then 0x100000 else 0x2100000

/-- Bytes a record takes. -/
def recSize (len : Nat) : Nat := 16 + (len + 15) / 16 * 16

/-- Read a copy's log (R563): its records in order, where it ends, and whether it ends at an erased word. -/
def scanSettings (s : State) (base : Nat) : Nat → Nat → List SetRec × Nat × Bool
  | 0, off => ([], off, true)
  | fuel + 1, off =>
    if 262144 ≤ off then ([], off, true)
    else if s.flashWord (base + off) = 0xFFFFFFFF then ([], off, true)
    else
      let h := s.flash (base + off) 16
      let len := field h 2 2
      if 4080 < len || 262144 < off + recSize len then ([], off, false)
      else if (crc32c (h.take 8 ++ s.flash (base + off + 16) len)).toNat ≠ field h 8 4 then ([], off, false)
      else
        let (rs, e, ok) := scanSettings s base fuel (off + recSize len)
        (⟨field h 0 2, field h 4 4, off, len⟩ :: rs, e, ok)

/-- The log of copy `c`. -/
def settingsLog (s : State) (c : Nat) : List SetRec × Nat × Bool := scanSettings s (setBase c) 16384 0

/-- The newest record of a tag in a log. -/
def newestIn (rs : List SetRec) (tag : Nat) : Option SetRec :=
  rs.foldl (fun acc r => if r.tag ≠ tag then acc else
    match acc with
    | some b => if b.gen < r.gen then some r else acc
    | none => some r) none

/-- The kept record of a tag: its generation and payload; copy 0 on equal generations (R563). -/
def settingOf (s : State) (tag : Nat) : Option (Nat × List Byte) :=
  let at_ (c : Nat) : Option (Nat × List Byte) :=
    (newestIn (settingsLog s c).1 tag).map fun r => (r.gen, s.flash (setBase c + r.off + 16) r.len)
  match at_ 0, at_ 1 with
  | some a, some b => if a.1 < b.1 then some b else some a
  | some a, none => some a
  | none, b => b

/-- Payload of a tag, empty where it has no record. -/
def setting (s : State) (tag : Nat) : List Byte := ((settingOf s tag).map (·.2)).getD []

/-- A settings record (Table "Settings record"). -/
def settingsRecord (tag gen : Nat) (payload : List Byte) : List Byte :=
  let h := leBytes 2 tag ++ leBytes 2 payload.length ++ leBytes 4 gen
  h ++ leBytes 4 (crc32c (h ++ payload)).toNat ++ leBytes 4 0 ++ fit ((payload.length + 15) / 16 * 16) payload

/-- The bytes of the newest record of every tag of a copy. -/
def newestRecords (s : State) (c : Nat) : List Byte :=
  let rs := (settingsLog s c).1
  (rs.filter fun r => newestIn rs r.tag = some r).flatMap fun r => s.flash (setBase c + r.off) (recSize r.len)

/-- Compact a copy from the other one, and append `extra` (R564). -/
def compactSettings (c : Nat) (extra : List Byte) (f : Option Nat) (s : State) : Fl :=
  let keep := newestRecords s (1 - c)
  (flErase 4 (setBase c) f s).go fun f s => flWrite (setBase c) (keep ++ extra) f s

/-- Append a record to a copy, compacted first where it lacks room or ends in a bad record (R564). -/
def appendSettings (c : Nat) (bs : List Byte) (f : Option Nat) (s : State) : Fl :=
  let (_, e, ok) := settingsLog s c
  if ok && e + bs.length ≤ 262144 then flWrite (setBase c + e) bs f s else compactSettings c bs f s

/-- Write a settings record to both copies in turn (R564). -/
def writeSetting (tag : Nat) (payload : List Byte) (f : Option Nat) (s : State) : Fl :=
  let gen := 1 + (((settingOf s tag).map (·.1)).getD 0)
  let bs := settingsRecord tag gen payload
  (appendSettings 0 bs f s).go fun f s => appendSettings 1 bs f s

/-! Vault and band keys. -/

/-- KEK_KILL of the vault control word (R501). -/
def kekKilled (s : State) : Bool := bit s.vaultWord 9

/-- Burn bits of the vault control word: all three fuse copies and the triplicated word (R499). -/
def burnVault (w : Nat) (s : State) : State :=
  let v : Word := BitVec.ofNat 32 w
  let t (t : Trip) : Trip := ⟨t.c0 ||| v, t.c1 ||| v, t.c2 ||| v⟩
  let s := modFuses (fun u => { u with vault := t u.vault }) s
  { s with mu := { s.mu with trip1 := Trip.of (s.mu.trip1.vote ||| v) } }

/-- Burn bits of the life-cycle word, all three copies in one operation (R494). -/
def burnLc (w : Nat) (s : State) : State :=
  let v : Word := BitVec.ofNat 32 w
  modFuses (fun u => { u with lc := ⟨u.lc.c0 ||| v, u.lc.c1 ||| v, u.lc.c2 ||| v⟩ }) s

/-- Key slot `i`'s digest. -/
def slotDigest (s : State) (i : Nat) : List Byte :=
  match i with
  | 0 => s.cru.fuses.slot0
  | 1 => s.cru.fuses.slot1
  | 2 => s.cru.fuses.slot2
  | _ => s.cru.fuses.slot3

/-- Slot `i` is set and not revoked. -/
def slotUsable (s : State) (i : Nat) : Bool := i < 4 && bit s.vaultWord (1 + i) && !bit s.vaultWord (5 + i)

/-- The KEK of an epoch (R499). -/
def kekOf (e : Nat) : List Byte := (List.range 32).map (Config.kek e)

/-- A key wrapped under the KEK of an epoch (R501). -/
def wrapKey (e : Nat) (key : List Byte) : List Byte := kwWrap (kekOf e) key

/-- Entropy has failed: no fresh keys (R500). -/
def entropyFailed (s : State) : Bool := s.rb Reg.CRU_RNG_STATUS 1

/-- One generate request of the DRBG for `n` bytes (R500): reseeds after every 65,536. -/
def drbg (n : Nat) (s : State) : List Byte × State :=
  let (bs, s) := s.drawBytes n
  if 65536 ≤ s.cru.generated + 1 then
    (bs, modCru (fun c => { c with generated := 0 }) (s.bumpRf Reg.CRU_RNG_STATUS 31 16))
  else (bs, modCru (fun c => { c with generated := c.generated + 1 }) s)

/-- The wrapped key of a band that is provisioned: its record carries the present epoch (R501). -/
def bandRecord (s : State) (b : Nat) : Option (List Byte) :=
  let p := setting s (0x40 + b)
  if p.length = 76 && field p 72 4 = s.cru.fuses.kek then some (p.take 72) else none

/-- Bands that are provisioned. -/
def provisioned (s : State) : List Nat := (List.range 64).filter fun b => (bandRecord s b).isSome

/-- Put a band's key into XFM (R254). -/
def setBandKey (b : Nat) (key : List Byte) (s : State) : State :=
  modXfm (fun x => { x with keys := (b, key) :: x.keys.filter fun e => e.1 ≠ b }) s

/-- Clear a band's key from XFM; BAND_DESTROYED where a job was using it (R255). -/
def unloadBand (b : Nat) (s : State) : State :=
  let had := (s.xfm.keys.lookup b).isSome
  let used := s.rings.jobs.any fun j =>
    j.done.isNone && j.taken && sqFunc s j.sq = 5 && sqClass s j.sq = 4 && xBand j.entry = b
  let s := modXfm (fun x => { x with keys := x.keys.filter fun e => e.1 ≠ b }) s
  if had && used then xfmEvent 5 s else s

/-- Load a provisioned band (R501): nothing where the unwrap fails. -/
def loadBand (b : Nat) (s : State) : State :=
  match bandRecord s b with
  | some w =>
    match kwUnwrap (kekOf s.cru.fuses.kek) w with
    | some k => setBandKey b k s
    | none => s.setRb Reg.CRU_BAND_STAT 1 true
  | none => s

/-- Load every provisioned band. -/
def loadBands (s : State) : State := if kekKilled s then s else (provisioned s).foldl (fun s b => loadBand b s) s

/-- Draw a band key (R252, R501): 64 free bytes whose two AES-256 keys differ. -/
def drawKey (s : State) : List Byte × State :=
  let (k, s) := drbg 64 s
  (if k.take 32 = k.drop 32 then k.take 32 ++ (k.drop 32).map fun b => ~~~b else k, s)

/-- Draw a key for a band and store its record under the present epoch (R501). -/
def createBand (b : Nat) (f : Option Nat) (s : State) : Fl :=
  let (k, s) := drawKey s
  let e := s.cru.fuses.kek
  writeSetting (0x40 + b) (wrapKey e k ++ leBytes 4 e) f s

/-- Run a flash step for each of a list. -/
def flEach (l : List Nat) (k : Nat → Option Nat → State → Fl) (f : Option Nat) (s : State) : Fl :=
  l.foldl (fun x b => x.go (k b)) ⟨0, f, s⟩

/-- Re-wrap a surviving band under the next epoch (R502). -/
def rewrapBand (b : Nat) (f : Option Nat) (s : State) : Fl :=
  let e := s.cru.fuses.kek + 1
  match (bandRecord s b).bind (kwUnwrap (kekOf s.cru.fuses.kek)) with
  | some k => writeSetting (0x40 + b) (wrapKey e k ++ leBytes 4 e) f s
  | none => ⟨0, f, s⟩

/-- Steps 4 and 5 of a sanitize (R502): records of earlier epochs go with a compaction of both copies, new keys are made
for the bands destroyed, every band is loaded, and the pending record is cleared. -/
def sanitizeEnd (gone : List Nat) (f : Option Nat) (s : State) : Fl :=
  (flEach gone createBand f s).go fun f s =>
  (compactSettings 0 [] f s).go fun f s =>
  (compactSettings 1 [] f s).go fun f s =>
  (writeSetting 0x11 [] f (loadBands s)).go fun f s => ⟨0, f, cruEvent 11 s⟩

/-- Bands that an action destroys (R104). -/
def doomed (s : State) (action band : Nat) : List Nat :=
  if action = 2 then (provisioned s).filter (· = band) else provisioned s

/-- Steps 1 to 5 of a sanitize (R502), after its pending record: action, band and the bands it destroys. -/
def sanitizeRun (action band : Nat) (f : Option Nat) (s : State) : Fl :=
  let gone := doomed s action band
  let s := gone.foldl (fun s b => unloadBand b s) s
  let stay := (provisioned s).filter fun b => b ∉ gone
  (flEach (if action = 2 then stay else []) rewrapBand f s).go fun f s =>
  sanitizeEnd gone f (modFuses (fun u => { u with kek := u.kek + 1 }) s)

/-- The pending record of a sanitize: action, band, the epoch it started under and the bands it destroys. -/
def pendingRecord (s : State) (action band : Nat) : List Byte :=
  let mask := (doomed s action band).foldl (fun acc b => acc + 2 ^ b) 0
  [BitVec.ofNat 8 action, BitVec.ofNat 8 band] ++ leBytes 2 s.cru.fuses.kek ++ leBytes 8 mask

/-- A pending sanitize goes on (R502): at step 1, or at step 4 where the epoch has advanced. -/
def goOnSanitize (f : Option Nat) (s : State) : Fl :=
  let p := setting s 0x11
  if p.length = 12 then
    let gone := (List.range 64).filter fun b => nbit (field p 4 8) b
    let x := if field p 2 2 = s.cru.fuses.kek then sanitizeRun (field p 0 1) (field p 1 1) f s else sanitizeEnd gone f s
    { x with s := destroyBands gone (field p 0 1 = 3) x.s }
  else ⟨0, f, s⟩

/-- A pending sanitize resumes at a boot (R104, R502). -/
def resumeSanitize (s : State) : State := (goOnSanitize none s).s

/-! Images. -/

/-- First offset and size of a slot of a kind: 1 Crucible, 2 service image (R478). -/
def slotBase (kind i : Nat) : Nat := (if kind = 1 then 0 else 0x200000) + i * 0x2000000
def slotSize (kind : Nat) : Nat := if kind = 1 then 0x100000 else 0x1800000

/-- Address of a mark in a slot's state sector (R506). -/
def markAt (kind i m : Nat) : Nat := slotBase kind i + slotSize kind - 4096 + m

/-- A mark is set (R506). -/
def markSet (s : State) (kind i m : Nat) : Bool := s.flashWord (markAt kind i m) ≠ 0xFFFFFFFF

/-- Write a mark. -/
def setMark (kind i m v : Nat) (s : State) : State := (cfDo 1 (markAt kind i m) (leBytes 4 v) true s).2

/-- Offset of a place of the media-profile region (R510). -/
def profBase (p : Nat) : Nat := 0x1A00000 + p * 65536

/-- Key slots that may sign a kind (Table "Image kinds"). -/
def signers (kind : Nat) : List Nat :=
  match kind with
  | 2 => [0, 1, 2, 3]
  | 5 => [1, 2, 3]
  | _ => [0]

/-- SVN counter of a kind (Table "Image kinds"). -/
def svnOf (s : State) (kind : Nat) : Nat :=
  match kind with
  | 2 => s.cru.fuses.svnSvc
  | 5 => s.cru.fuses.svnProf
  | _ => s.cru.fuses.svnCru

/-- A public key suits a slot: set, not revoked, and the digest matches (R505 check 3). -/
def keyMatches (s : State) (slot : Nat) (pub : List Byte) : Bool :=
  slotUsable s slot && shake256 32 pub = slotDigest s slot

/-- Verification of an image at an offset, in a place of `size` bytes for images of the kinds named (R505): 0, or
SIGNATURE_INVALID 4, or ROLLBACK 5. -/
def imageCheck (s : State) (off size : Nat) (kinds : List Nat) (staged : Option Nat) : Nat :=
  let h := s.flash off 5389
  let kind := field h 6 1
  let len := field h 20 4
  let signer := field h 7 1
  let pub := (h.drop 128).take 1952
  if !(field h 0 4 = 0x314D4B42 && field h 4 2 = 1 && decide (kind ∈ kinds)) then 4
  else if size < 8192 + len || (match staged with | some n => n ≠ 8192 + len | none => false) then 4
  else if !(decide (signer ∈ signers kind) && keyMatches s signer pub) then 4
  else if shake256 64 (s.flash (off + 8192) len) ≠ (h.drop 40).take 64 then 4
  else if !Config.mldsaVerify pub (asciiBytes "MBK960-IMAGE") (h.take 128) ((h.drop 2080).take 3309) then 4
  else if field h 16 1 < svnOf s kind || (kind = 2 && field h 18 2 < s.cru.epoch) then 5
  else 0

/-- The manifest of an image as a running image. -/
def runImg (s : State) (off : Nat) : RunImg :=
  let h := s.flash off 128
  ⟨field h 6 1, off, field h 16 1, field h 8 8⟩

/-- A slot is bootable (R507). -/
def bootable (s : State) (kind i : Nat) : Bool :=
  markSet s kind i 0 && markSet s kind i 4 && !markSet s kind i 12
    && imageCheck s (slotBase kind i) (slotSize kind - 4096) [kind] none = 0
    && (kind = 1 || (1 ≤ s.lcState && s.lcState ≤ 3))

/-- The slot that a boot runs, and whether on trial (R507). -/
def chooseSlot (kind : Nat) : Nat → State → Option (Nat × Bool) × State
  | 0, s => (none, s)
  | fuel + 1, s =>
    let b0 := bootable s kind 0
    let b1 := bootable s kind 1
    if !b0 && !b1 then (none, s)
    else
      let i := if b0 && b1 then (if s.flashWord (markAt kind 0 4) < s.flashWord (markAt kind 1 4) then 1 else 0)
        else if b0 then 0 else 1
      if markSet s kind i 8 then (some (i, false), s)
      else if markSet s kind i 0x18 then chooseSlot kind fuel (cruEvent 3 (setMark kind i 12 0 s))
      else
        let m := if markSet s kind i 0x14 then 0x18 else if markSet s kind i 0x10 then 0x14 else 0x10
        (some (i, true), setMark kind i m 0 s)

/-- The media-profile image of a kind that Crucible uses (R510): the one that passes with the highest VERSION. -/
def chooseProf (s : State) (kind : Nat) : Option RunImg :=
  (List.range 64).foldl (fun acc p =>
    if imageCheck s (profBase p) (0x400000 - p * 65536) [kind] none = 0 then
      let r := runImg s (profBase p)
      match acc with
      | some b => if b.version < r.version then some r else acc
      | none => some r
    else acc) none

/-- Measurement of an image (R505). -/
def measure (s : State) (r : RunImg) : List Byte := shake256 64 (s.flash r.off 128)

/-- Note a running image and its measurement at place `k` of the report (R517). -/
def setRun (k : Nat) (r : RunImg) (s : State) : State :=
  let m := measure s r
  modCru (fun c => { c with run := r :: c.run.filter (fun x => x.kind ≠ r.kind), meas := c.meas.set k m }) s

/-- Copy the service image of a slot to its SRAM region (R509). -/
def copyService (i : Nat) (s : State) : State :=
  let off := slotBase 2 i
  s.setBytes (sramBase + i * 0x400000) (s.flash (off + 8192) (min (field (s.flash off 40) 24 4) 0x400000))

/-- Restart service cores at an address (R522). -/
def restartCores (mask pc a0 : Nat) (s : State) : State :=
  let s := modCru (fun c => { c with cores := c.cores.mapIdx fun i e => if nbit mask i then (pc, a0) else e }) s
  s.setReg Reg.CRU_CORE_CTRL (s.reg Reg.CRU_CORE_CTRL ||| BitVec.ofNat 32 (mask % 64))

/-- The 256 bytes at offset `o` of the service SRAM lie outside every mailbox ring's slots and descriptors (R59, R63). -/
def offMailboxes (s : State) (o : Nat) : Bool :=
  (List.range 256).all fun m =>
    let n := 2 ^ (s.rf (Reg.NET_MBX_CONS m) 19 16 + 4)
    let b := (s.reg (Reg.NET_MBX_BASE m)).toNat
    let d := (s.reg (Reg.NET_MBX_DESC m)).toNat
    (o + 256 ≤ b || b + n * 512 ≤ o) && (o + 256 ≤ d || d + n * 16 ≤ o)

/-- The hand-off block of R513: its place in service SRAM and its bytes are Crucible's, and the spec gives neither, but
that no mailbox ring is changed (R63). -/
def handOff (s : State) : Nat × State :=
  let (p, s) := s.drawBytes 3
  let (bs, s) := s.drawBytes 256
  let o := leNat p % (0x1000000 - 256)
  let o := if offMailboxes s o then o else ((List.range 65536).find? fun k => offMailboxes s (256 * k)).elim o (256 * ·)
  (sramBase + o, s.setBytes (sramBase + o) bs)

/-- Address of an entry of the service image in its SRAM region: ENTRY at 28, RESUME at 32 (R504, R509). -/
def serviceEntry (s : State) (i at_ : Nat) : Nat :=
  sramBase + i * 0x400000 + field (s.flash (slotBase 2 i) 40) at_ 4

/-! Authorisations, requests and replies. -/

/-- The identity public key (R499). -/
def identityKey (s : State) : List Byte := (List.range 1952).map (Config.mldsaKey s.cru.fuses.seed)

/-- DEVICE: first 32 bytes of SHAKE256 of the identity public key (R515). -/
def deviceId (s : State) : List Byte := shake256 32 (identityKey s)

/-- The authorisation counter (R516). -/
def authCounter (s : State) : Nat := field (setting s 0x10) 0 8

/-- An authorisation's contents hold for an action and an argument (R515, R516). -/
def authOk (s : State) (a : List Byte) (action arg : Nat) : Bool :=
  let pub := (a.drop 64).take 1952
  let signer := field a 6 1
  a.length = 5376 && field a 0 4 = 0x31485541 && field a 4 1 = action && field a 5 1 = arg
    && 1 ≤ signer && signer ≤ 3 && keyMatches s signer pub && (a.drop 16).take 32 = deviceId s
    && authCounter s < field a 8 8
    && Config.mldsaVerify pub (asciiBytes "MBK960-AUTH") (a.take 64) ((a.drop 2016).take 3309)

/-- Accept an authorisation (R516): status 0 with its counter stored, or AUTH_FAILED with AUTH_FAIL raised, or FLASH. -/
def acceptAuth (a : List Byte) (action arg : Nat) (f : Option Nat) (s : State) : Fl :=
  if authOk s a action arg then
    let c := (a.drop 8).take 8
    let x := writeSetting 0x10 (c ++ (List.range 32).map (Config.kmac c)) f s
    if x.st = 0 then x else { x with st := 8 }
  else ⟨3, f, cruEvent 4 s⟩

/-- A range that a mailbox argument may name: service SRAM or a service window (R519). -/
def cruMay (s : State) (a n : Nat) : Bool := inSram a n || (s.inDram a n && s.grantedSvc a n)

/-- Crucible composes the reply to a request (R519, R520): OP, SEQ, STATUS and bytes from 4 on. -/
def cruReply (op : Nat) (seq : BitVec 8) (status : Nat) (extra : List Byte) (s : State) : State :=
  let m := fit 32 ([BitVec.ofNat 8 op, seq] ++ leBytes 2 status ++ extra)
  (List.range 8).foldl (fun s w => s.setReg (Reg.CRU_MBX_TX w) (BitVec.ofNat 32 (field m (4 * w) 4))) s

/-- A message as MCTP packets: the baseline unit of 64 bytes, marked first and last, numbered modulo 4 (R71). -/
def mctpPackets (msg : List Byte) : List MctpPkt :=
  let n := (msg.length + 63) / 64
  (List.range n).map fun k => ⟨k = 0, k + 1 = n, k % 4, (msg.drop (64 * k)).take 64⟩

/-- Crucible sends a message on the sideband. -/
def sbSend (msg : List Byte) (s : State) : State := modCru (fun c => { c with sideband := mctpPackets msg }) s

/-- Crucible answers on the sideband (R518): type, vendor number, COMMAND, status and the payload from byte 8. -/
def sbReply (vendor : BitVec 32) (cmd status : Nat) (payload : List Byte) (s : State) : State :=
  sbSend ([0x7F] ++ leBytes 4 vendor.toNat ++ [BitVec.ofNat 8 cmd, BitVec.ofNat 8 status, 0] ++ payload) s

/-- Vendor number of the retained settings (R518, tag 0x0002). -/
def vendorNumber (s : State) : Nat := field (setting s 2) 20 4

/-- Answer a vendor-defined sideband message: dropped where its vendor number differs (R518), DENIED in a state that does
not allow the command, else as the command says. -/
def sideband (vendor : BitVec 32) (cmd lo hi : Nat) (k : State → Nat × List Byte × State) (s : State) : State :=
  if vendor.toNat ≠ vendorNumber s then s
  else if s.lcState < lo || hi < s.lcState then sbReply vendor cmd 2 [] s
  else
    let (st, p, s) := k s
    sbReply vendor cmd st p s

/-- The attestation report (Table "Attestation report"). -/
def report (nonce : List Byte) (s : State) : List Byte :=
  let version (k : Nat) : Nat := ((s.cru.run.find? fun r => r.kind = k).map (·.version)).getD 0
  let bands := s.xfm.keys.foldl (fun acc e => acc + 2 ^ e.1) 0
  let u := s.cru.fuses
  let v := s.vaultWord
  let flags := b2n (s.rb Reg.CRU_LC 3) + b2n s.cru.debugOpen * 2 + b2n s.cru.trial * 4 + b2n s.ramOnly * 8
  let time := leBytes 8 (s.evc.timeMs + b2n s.evc.unsync * 2 ^ 63)
  let body := leBytes 4 0x31544541 ++ leBytes 2 1 ++ leBytes 2 5773 ++ fit 32 nonce ++ deviceId s
    ++ [BitVec.ofNat 8 s.lcState, BitVec.ofNat 8 flags] ++ leBytes 2 s.cru.epoch ++ leBytes 4 s.mu.trip4.vote.toNat
    ++ leBytes 8 (version 1) ++ leBytes 8 (version 2) ++ (s.cru.meas.flatMap (fit 64)) ++ leBytes 8 bands
    ++ [BitVec.ofNat 8 u.svnCru, BitVec.ofNat 8 u.svnSvc, BitVec.ofNat 8 u.svnProf, 0] ++ leBytes 4 u.kek ++ time
    ++ leBytes 4 (fld v 4 1 + fld v 8 5 * 16)
  let body := fit 512 body ++ identityKey s
  body ++ (List.range 3309).map (Config.mldsaSign u.seed (asciiBytes "MBK960-ATTEST") body)

end Sys2Proof.Machine
end

