-- ==== Sys2Proof/Machine/MotOps.lean ====
section
/-!
DEFINITION. Machine/MotOps.lean: shared operations of MOT (spec/14): states, starts, the set point and Hall faults.
-/

namespace Sys2Proof.Machine

open Sys2Proof

/-- Raise bit `k` of MOT_EVENT_STATUS (R419); where it leads to MOT's tail drop, the engines park (R20). -/
def motEvent (k : Nat) (s : State) : State := parkDropped (raise (184 + k) s)

/-- Change MOT's state. -/
def modMot (f : Mot → Mot) (s : State) : State := { s with mot := f s.mot }

/-- Set SPIN_OK, raising SPIN_OK on a change (R400). -/
def setSpinOk (b : Bool) (s : State) : State :=
  if s.mot.spinOk = b then s
  else motEvent 0 (modMot (fun m => { m with spinOk := b, okRevs := if b then m.okRevs else 0 }) s)

/-- Enter a spindle state (R394); SPIN_OK falls when STATE leaves SINE (R400). -/
def enterSpin (st : Spin) (s : State) : State :=
  let s := modMot (fun m => { m with st := st, lockEdges := 0, lossEdges := 0, aligning := false }) s
  if st = .sine then s else setSpinOk false s

/-- The spindle faults (R396, R398, R401): the event bit is START_FAIL 3 or RELOCK_FAIL 2. -/
def spinFault (bit : Nat) (s : State) : State :=
  motEvent bit (enterSpin .fault (modMot (fun m => { m with starting := false, integ := 0, iqRef := 0 }) s))

/-- TARGET, rpm. -/
def spdTarget (s : State) : Nat := s.rf Reg.MOT_SPD_CMD 12 0

/-- Drive from the Halls, or what takes its place while they are faulty (R401). -/
def hallDrive (s : State) : State :=
  if !s.mot.hallSubst then enterSpin .hall6 s
  else if s.rb Reg.MOT_CTRL 2 then enterSpin .openLoop s
  else spinFault 2 s

/-- A start from rest (R395, R401). -/
def startRest (s : State) : State :=
  let s := modMot (fun m => { m with speedRef := 0, remUp := 0, remDn := 0, integ := 0, starting := true, act := 0 }) s
  if !s.mot.hallSubst then enterSpin .hall6 s
  else if s.rb Reg.MOT_CTRL 2 then modMot (fun m => { m with aligning := true }) (enterSpin .openLoop s)
  else spinFault 3 s

/-- The motor is driven: the speed loop and the reference act. -/
def spinDriven (m : Mot) : Bool :=
  match m.st with
  | .hall6 => true
  | .sine => true
  | .relock => true
  | .openLoop => true
  | _ => false

/-- Speeds of the hand-offs, 1/16 rpm: 600 and 540 rpm. -/
def rpm600 : Int := 9600
def rpm540 : Int := 8640

/-- A new achieved speed (R397): SINE falls back to the Halls below 540 rpm while TARGET is non-zero, and a start ends at
600 rpm (R396). -/
def newSpeed (v : Int) (s : State) : State :=
  let s := modMot (fun m => { m with act := v, starting := m.starting && v < rpm600 }) s
  if s.mot.st = .sine && v < rpm540 && spdTarget s ≠ 0 then hallDrive s else s

/-- The Halls are declared faulty (R401). -/
def hallFault (counted : Bool) (s : State) : State :=
  let s := if counted then s.bump Reg.MOT_HALL_ERR else s
  if s.mot.hallSubst then s
  else
    let s := motEvent 5 (modMot (fun m => { m with hallSubst := true, jumps := 0, badCodes := 0 }) s)
    match s.mot.st with
    | .hall6 => hallDrive s
    | .relock => hallDrive s
    | _ => s

/-- A Hall input of the slow-input filter is faulty (R568). -/
def hallFiltered (s : State) : Bool :=
  [0, 1, 2].any fun n => s.rb Reg.SIF_FAULT n || s.rb Reg.SIF_FAULT (8 + n)

/-- DETECT begins (R394); the Halls are used again once the filter has re-armed them (R401). -/
def beginDetect (s : State) : State :=
  enterSpin .detect (modMot (fun m => { m with hallSubst := m.hallSubst && hallFiltered s, jumps := 0, edges := 0 }) s)

/-- The rotor is lost (R398). -/
def rotorLost (s : State) : State :=
  let s := motEvent 1 (s.bump Reg.MOT_LOST_CNT)
  if s.mot.hallSubst then spinFault 2 s else enterSpin .relock s

/-- A servo engine is in LOADING, SEEKING, SETTLING, TRACKING or UNLOADING (R399). -/
def engineUp (s : State) (x : Nat) : Bool :=
  let st := (sv s x).st
  st = .loading || st = .seeking || st = .settling || st = .tracking || st = .unloading

/-- A chopper fault (R406). -/
def chopperFault (s : State) : State :=
  let s := modMot (fun m => { m with lowSides := true, chopOn := false, chopFault := true, regenRefused := true }) s
  motEvent 7 (motEvent 6 s)

/-- A lane error of an actuator (R408): its retract starts and its engine takes cause LANE. -/
def laneFault (x : Nat) (s : State) : State :=
  let s := modAct x (fun a => { a with lastBad := false, armed := false }) s
  servoFault x 3 (parkDrive x (motEvent (11 + x) s))

/-- A change of the set point (R399, R400); the spindle of a fenced MOT goes on coasting (R20). -/
def newTarget (t : Nat) (s : State) : State :=
  let s := s.setReg Reg.MOT_SPD_CMD (BitVec.ofNat 32 t)
  if s.fenced 6 then s
  else match s.mot.st with
  | .stopped => if t ≠ 0 then beginDetect s else s
  | .coast => if t ≠ 0 then beginDetect s else s
  | .brake =>
    if t ≠ 0 then hallDrive (modMot (fun m => { m with speedRef := m.act.toNat, integ := 0 }) s) else s
  | .fault => if t = 0 then enterSpin (if s.mot.act = 0 then .stopped else .coast) s else s
  | _ => s

/-- A command of the spindle's speed (R396, R399): one out of range, one that leaves FAULT for another speed than 0, or one
below 5,400 rpm with an actuator's engine up is refused. -/
def speedCommand (t : Nat) (s : State) : State :=
  let bad := (1 ≤ t && t ≤ 599) || 7200 < t || (t ≠ 0 && s.mot.st = .fault) || (t < 5400 && (engineUp s 0 || engineUp s 1))
  if bad then motEvent 14 s else newTarget t s

/-- Index of a Hall code among the forward codes of MAP (R395). -/
def hallIndex (s : State) (code : Nat) : Option Nat :=
  (List.range 6).find? fun i => s.rf Reg.MOT_HALL (3 * i + 2) (3 * i) = code

/-- Steps from one Hall code to the next (R395, R401): 1 forward, −1 reverse, 0 for a code not adjacent. -/
def hallDir (s : State) (from_ code : Nat) : Int :=
  match hallIndex s from_, hallIndex s code with
  | some a, some b => if b = (a + 1) % 6 then 1 else if b = (a + 5) % 6 then -1 else 0
  | _, _ => 0

/-- Hall result of DETECT (R395), signed 1/16 rpm, 0 where no edge was seen: `n` edges in DET_MS, 36 of them a revolution, in
the direction of most steps; of the last step, then of the back-EMF, where that does not decide (DESIGN CHOICE, log entry 26). -/
def hallSpeed (s : State) (bemf : Int) (codes : List Nat) : Int :=
  let steps := (codes.zip codes.tail).filter fun (a, b) => a ≠ b
  let dirs := steps.map fun (a, b) => hallDir s a b
  let last : Int := (dirs.filter (· ≠ 0)).getLastD (if bemf < 0 then -1 else 1)
  let sum : Int := dirs.foldl (· + ·) 0
  let mag : Int := max 1 (steps.length * 80000 / (3 * orOne (s.rf Reg.MOT_START 7 0)) : Nat)
  if steps.isEmpty then 0 else if 0 < sum then mag else if sum < 0 then -mag else last * mag

/-- Back-EMF constant KE, µV per rpm. -/
def motKe (s : State) : Nat := s.rf Reg.MOT_OBS 15 0

/-- What DETECT makes of its measurements (R395), signed 1/16 rpm, 0 for STILL: above 100 rpm, or with the Halls faulty (R401),
the back-EMF governs, below it the Halls; back-EMF below KE × 30 rpm shows nothing. -/
def detectSpeed (s : State) (o : DetectObs) : Int :=
  let b := o.bemf.toInt
  let e := if o.amp.toNat < motKe s * 30 then 0 else b
  let h := hallSpeed s b (o.codes.map (·.toNat))
  if 1600 < b.natAbs then b else if s.mot.hallSubst || h = 0 then e else h

/-- Hall edge of MAP between the last code and the next (R397): edge n leads forward to the n-th code; none for a code that is
not in MAP. -/
def edgeIndex (s : State) (code : Nat) : Option Nat :=
  match hallIndex s s.mot.hall, hallIndex s code with
  | some a, some b => some (if b = (a + 5) % 6 then a else b)
  | _, b => b

/-- Distance of the observer's angle from that of Hall edge `n`, OFFSET + n × 60° (R397), in 60/256 degrees. -/
def edgeErr (s : State) (n angle : Nat) : Nat :=
  let d := (angle * 6 + 3072 - s.rf Reg.MOT_HALL 31 24 * 6 - n * 256) % 1536
  min d (1536 - d)

/-- Advance a reference toward a goal by a rate with its remainder carried (R399). -/
def refRate (rate rem : Nat) : Nat × Nat :=
  let v := rem + orOne rate * 16
  (v / 1000, v % 1000)

/-- Limit of the speed loop's current command, mA (R398, R400): RELOCK_I in RELOCK, RUN_I elsewhere. -/
def motLimit (s : State) : Int :=
  if s.mot.st = .relock then s.rf Reg.MOT_ILIM 31 16 else s.rf Reg.MOT_ILIM 15 0

/-- The speed loop's current command is at its limit (R399); OPEN_LOOP drives with RUN_I and runs no speed loop (R401). -/
def atLimit (s : State) : Bool := s.mot.st ≠ .openLoop && s.mot.iqRef.natAbs = (motLimit s).natAbs

/-- The reference's 1 ms step (R399, R401, R407). -/
def refTick (s : State) : State :=
  let m := s.mot
  let goal := spdTarget s * 16
  let up := if m.st = .openLoop then s.rf Reg.MOT_OPENLOOP 23 8 else s.rf Reg.MOT_RAMP 15 0
  let (ref, ru, rd) :=
    if m.speedRef < goal then
      let (d, r) := refRate up m.remUp
      (min goal (m.speedRef + d), r, m.remDn)
    else if goal < m.speedRef then
      let (d, r) := refRate (s.rf Reg.MOT_RAMP 31 16) m.remDn
      (max goal (m.speedRef - d), m.remUp, r)
    else (m.speedRef, m.remUp, m.remDn)
  let short := (m.regenRefused || !s.rb Reg.MOT_CTRL 1) && goal < m.speedRef
  let near : Int := if atLimit s || short then clampI (m.act - 960) (m.act + 960) ref else ref
  let held := if m.speedRef ≤ goal then min (goal : Int) near else max (goal : Int) near
  modMot (fun m => { m with speedRef := held.toNat, remUp := ru, remDn := rd }) s

/-- The 1 ms check of SPIN_OK (R400); `rev`: a revolution has ended since the last check. -/
def spinCheck (rev : Bool) (s : State) : State :=
  let m := s.mot
  let err := (m.act - (m.speedRef : Int)).natAbs
  let win := s.rf Reg.MOT_SPD_OK 15 0
  let at_ := m.st = .sine && spdTarget s ≠ 0 && m.speedRef = spdTarget s * 16
  if m.spinOk then
    if at_ && err ≤ 2 * win then s else setSpinOk false s
  else if at_ && err ≤ win then
    let n := m.okRevs + b2n rev
    let s := modMot (fun m => { m with okRevs := n }) s
    if orOne (s.rf Reg.MOT_SPD_OK 23 16) ≤ n then setSpinOk true s else s
  else modMot (fun m => { m with okRevs := 0 }) s

/-- With TARGET 0 the driven spindle ends at 540 rpm in BRAKE or COAST (R400). -/
def spinDown (s : State) : State :=
  if spinDriven s.mot && spdTarget s = 0 && (s.mot.speedRef : Int) < rpm540 then
    enterSpin (if s.rb Reg.MOT_CTRL 0 then .coast else .brake) (modMot (fun m => { m with iqRef := 0, integ := 0 }) s)
  else s

/-- The self-test of the chopper shows no current (R406). -/
def selfTest (ok : Bool) (s : State) : State := if ok then s else chopperFault s

end Sys2Proof.Machine
end

