-- ==== Sys2Proof/Machine/FuncReset.lean ====
section
/-!
DEFINITION. Machine/FuncReset.lean: the function resets (R533): what each returns to its reset value, function by function.
-/

namespace Sys2Proof.Machine

open Sys2Proof

/-- Rings, jobs and spill of a function at its reset (R172). -/
def resetRings (f : Nat) (s : State) : State :=
  let qs := ringsOf s f
  let mine (q : Nat) : Bool := decide (q ∈ qs)
  let jobs := s.rings.jobs.filter fun (j : Job) => !mine j.sq
  let fetched := s.rings.fetched.filter fun (x : Fetched) => !mine x.sq
  let spill := s.rings.spill.map fun (x : Spilled) => if mine x.sq then { x with live := false } else x
  let s := { s with rings := { s.rings with
      jobs := jobs, fetched := fetched, spill := spill, phaseTries := Sparse.clear s.rings.phaseTries mine,
      stale := s.rings.stale.filter fun (x : Fetched) => !mine x.sq } }
  refreshStalls (s.resetRegs fun a => qs.any fun q => Reg.SQ_BASE_LO q ≤ a && a ≤ Reg.SQ_DONE q)

/-- The efts of a function at its reset (R192, R196, R197). -/
def resetEfts (f : Nat) (s : State) : State :=
  let s := (eftsOf f).foldl (fun s e => s.setEft e (s.eft e).afterReset) s
  s.resetRegs fun a => (eftsOf f).any fun e => Reg.EFT_ID e ≤ a && a ≤ Reg.EFT_ATTN e && a ≠ Reg.EFT_LOAD_CRC e

/-- A queue pair that returns to RESET (R64, R158): its transport state is cleared. -/
def Qp.toReset (q : Qp) : Qp :=
  { q with st := .reset, lastDec := Option.none, incFrom := Option.none, lastCnp := Option.none, triesLeft := 0, rnrLeft := 0, rnrWait := false,
           readDone := 0 }

/-- NET registers that its function reset keeps, NET_CTRL's own fields apart (R64). -/
def keptNet (a : Nat) : Bool :=
  a = Reg.NET_QPN_BASE || a = Reg.NET_QPC_BASE_LO || a = Reg.NET_QPC_BASE_HI || a = Reg.NET_RAW_BASE || a = Reg.NET_RAW_SIZE
  || ((List.range 2).any fun p => a = Reg.NET_P_CFG p || a = Reg.NET_P_MAC_LO p || a = Reg.NET_P_MAC_HI p)
  || (Reg.NET_GID 0 0 0 ≤ a && a ≤ Reg.NET_GID 1 15 3)

/-- NET's function reset (R64, R133): queue pairs return to RESET, enabled ports retrain. -/
def resetNet (s : State) : State :=
  let ctrl := s.reg Reg.NET_CTRL &&& 0x33
  let on (p : Nat) : Bool := bit ctrl (4 + p) && (p = 0 || fld ctrl 1 0 = 0)
  let port (p : Nat) : Port := { Port.reset with training := on p, neg := on p && s.rb (Reg.NET_P_CFG p) 0 }
  let n := s.net
  let s := { s with net := { Net.reset with qps := n.qps.map (fun (e : Nat × Qp) => (e.1, e.2.toReset)), adv := n.adv,
                                            port0 := port 0, port1 := port 1 } }
  let s := s.resetRegs fun a => inWindow 0 a && !keptNet a
  dropConns (fun _ => true) (s.setReg Reg.NET_CTRL ctrl)

/-- Every context of an actuator is lost with MEDx's reset (R272). -/
def loseCtxs (x : Nat) (s : State) : State :=
  let s := { s with zone := { s.zone with writes := s.zone.writes.filter fun w => w.act ≠ x } }
  (ctxs s x).foldl (fun s c => match c with
    | some c =>
      withZoneOwn c.zone keeperBad (fun e s =>
        let (e', b) := closeEnt e
        zonePut c.zone e' true keeperBad (unsealed b) (releaseCtx x c.zone s)) (releaseCtx x c.zone s)
    | none => s) s

/-- STG registers its function reset keeps (R196, R235). -/
def keptStg (a : Nat) : Bool :=
  a = Reg.STG_BLKTAB_BASE_LO || a = Reg.STG_BLKTAB_BASE_HI || a = Reg.STG_RETRY_BASE_LO || a = Reg.STG_RETRY_BASE_HI
  || a = Reg.STG_RAND_KEY || ((List.range 8).any fun c => a = Reg.CH_MAP c || a = Reg.CH_GEOM c)
  || (List.range 8).any fun c => a = Reg.EFT_LOAD_CRC (4 + c)

/-- A LUN had a job running, parked or suspended (R235). -/
def lunUsed (s : State) (c d : Nat) : Bool :=
  let x := s.eft (4 + c)
  let l := lun s c d
  l.busy || l.heldOp ≠ .none || x.unit.any (fun u => jobDie s u.job.entry = d) || x.parked.any fun k => k.die = d

/-- STG's function reset (R235). -/
def resetStg (s : State) : State :=
  let s := (List.range 64).foldl (fun s i => if lunUsed s (i / 8) (i % 8) then lunReset (i / 8) (i % 8) s else s) s
  let loss := s.stg.pwrLoss
  let s := { s with stg := { s.stg.afterReset with pwrLoss := loss } }
  s.resetRegs fun a => inWindow 4 a && !keptStg a

/-- Ranges that a job of an XFM lane may have been writing (R259). -/
def laneDsts (cls : Nat) (j : Job) : List (Nat × Nat) :=
  let b := j.entry
  match cls with
  | 2 => (segDsts j.entries).map fun a => (a, xFrag b)
  | 4 => [(xDst4 b, field b 40 4 * 4160)]
  | _ => [(xDst b, xCap b)]

/-- The destination of an abandoned job is undefined (R259). -/
def loseDsts (l : Lane) (s : State) : State :=
  match findJob s l.sq l.first with
  | some j =>
    (laneDsts l.cls j).foldl (fun s (a, n) =>
      if inSram a n || s.inDram a n then
        let (bs, s) := s.drawBytes n
        s.setBytes a bs
      else s) s
  | none => s

/-- XFM's function reset (R256, R259): keys go, the known-answer test leaves the lanes `pass`, and the provisioned bands
are loaded again. -/
def resetXfm (pass : Nat) (s : State) : State :=
  let s := s.xfm.lanes.foldl (fun s l => loseDsts l s) s
  let s := { s with xfm := { Xfm.reset with ciph := pass % 16 } }
  s.resetRegs fun a => inWindow 5 a && a ≠ Reg.XFM_CTRL && a ≠ Reg.XFM_FB_THR

/-- SVC's function reset (R133, R533): the cores restart at RESUME with a hand-off block. -/
def resetSvc (s : State) : State :=
  match s.cru.svcSlot with
  | some i =>
    let (a, s) := handOff s
    restartCores 0x3F (serviceEntry s i 32) a (restartCmds s)
  | none => restartCmds s

/-- What the reset of a function returns to its reset values. -/
def resetOwn (f pass : Nat) (s : State) : State :=
  match f with
  | 0 => resetNet s
  | 1 => resetSvc s
  | 2 => tandemBreak 0 (resetMedPath 0 (loseCtxs 0 s))
  | 3 => resetMedPath 1 (loseCtxs 1 s)
  | 4 => resetStg s
  | 5 => resetXfm pass s
  | _ => resetMotPath s

/-- What follows the reset of a function: tests, and the bands of XFM (R256, R259, R406). -/
def afterOwn (f pass : Nat) (chopper : Bool) (s : State) : State :=
  match f with
  | 5 => loadBands (if pass % 16 = 15 then s else xfmEvent 8 s)
  | 6 => selfTest chopper s
  | _ => s

/-- A function reset's end (R533). -/
def functionReset (f pass : Nat) (chopper : Bool) (s : State) : State :=
  let s := calAbort f s
  let s := resetOwn f pass s
  let s := if f = 1 then s else resetRings f s
  let s := s.resetRegs fun a => a = Reg.BA_BAL f
  let s := afterOwn f pass chopper (resetEfts f s)
  let s := s.setFence f false
  let s := s.resetRegs fun a => a = Reg.EVC_ERR_STATE f || a = Reg.EVC_ERR_PRI f || a = Reg.EVC_ERR_SEC f
  raiseWith 35 0 (some [BitVec.ofNat 8 f]) s

end Sys2Proof.Machine
end

