-- ==== Sys2Proof/Machine/FuncCmds.lean ====
section
/-!
DEFINITION. Machine/FuncCmds.lean: the commands of a function reset (R533).
-/

namespace Sys2Proof.Machine

open Sys2Proof Host

/-- Start a function reset: an unfenced function is tail-dropped first (R533), and MEDx's asserts the park request unless its
actuator is retracted (R391). -/
def startReset (f : Nat) (s : State) : State :=
  if 6 < f || errState s f = 3 then s
  else
    let s := parkDropped (tailDrop f 3 s)
    let s := if (f = 2 || f = 3) && !(actu s (f - 2)).retDone then parkDrive (f - 2) s else s
    let s := s.setReg Reg.EVC_FRESET (BitVec.ofNat 32 (f + 2 ^ 31))
    s.setRf (Reg.EVC_ERR_STATE f) 1 0 3

/-- FUNCTION_RESET (R533): EVC_FRESET is written with GO by Crucible. -/
def execFunctionReset (f : Fin 8) (s : State) : Res :=
  s.whenLive fun s => startReset f s

/-- FUNCTION_RESET_END (R533): the reset of function `f` ends; that of MEDx not before its retract (R391). `pass` gives
the cipher lanes that pass their known-answer test, `chopper` whether the chopper's self-test shows current. -/
def execFunctionResetEnd (f : Fin 7) (pass : BitVec 4) (chopper : Bool) (s : State) : Res :=
  s.whenLive fun s =>
    let waits := (f.val = 2 && !(actu s 0).retDone) || (f.val = 3 && !(actu s 1).retDone)
    if errState s f = 3 && !waits then
      fbEval ((functionReset f pass.toNat chopper s).setRb Reg.EVC_FRESET 31 false)
    else s

end Sys2Proof.Machine
end

