-- ==== Sys2Proof/Machine/CruReq.lean ====
section
/-!
DEFINITION. Machine/CruReq.lean: what Crucible does for the requests of its mailbox and sideband (R512 to R520), as
operations that end in a status of Table "Crucible status codes".
-/

namespace Sys2Proof.Machine

open Sys2Proof

/-- How a request ends: its status, the bytes of its reply from byte 4 on, and the state. -/
structure Rq where
  st : Nat
  extra : List Byte
  s : State

/-- A request that ends with a status and changes nothing. -/
def Rq.no (st : Nat) (s : State) : Rq := ⟨st, [], s⟩

/-- The end of flash work: OK, or FLASH with the ROM status in byte 4 (R519, R520). -/
def Fl.rq (x : Fl) : Rq := if x.st = 0 then ⟨0, [], x.s⟩ else ⟨8, [BitVec.ofNat 8 x.st], x.s⟩

/-- Crucible's firmware runs and can serve a request: no reset, no ROM call in progress. -/
def cruFree (s : State) : Bool :=
  s.pwr.inReset.isNone && s.bud.quenched.isNone && s.cf.op.isNone
    && (match s.cru.boot with
        | .wiping => true
        | .released => true
        | .sideband => true
        | _ => false)

/-- The service image runs (R511 step 8). -/
def svcRuns (s : State) : Bool :=
  s.pwr.inReset.isNone && s.bud.quenched.isNone && !s.fenced 1
    && (match s.cru.boot with
        | .released => true
        | _ => false)

/-- The spare regions (Table "Code-flash partition"). -/
def inSpare (off n : Nat) : Bool :=
  let within (lo hi : Nat) : Bool := lo ≤ off && off + n ≤ hi + 1
  within 0x140000 0x1FFFFF || within 0x1E00000 0x1FFFFFF || within 0x2140000 0x21FFFFF || within 0x3B00000 0x3FFFFFF

/-- FLASH_WRITE (R519): a program of a spare region, as CF_PROGRAM. -/
def reqFlashWrite (off src len : Nat) (f : Option Nat) (s : State) : Rq :=
  if !(inSpare off len && cruMay s src len) then .no 1 s
  else if !(off % 4 = 0 && len % 4 = 0 && 4 ≤ len && off % 256 + len ≤ 256 && src % 4 = 0) then ⟨8, [5], s⟩
  else
    let (st, s) := cfDo 1 off (s.bytes src len) (f ≠ some 0) s
    (⟨st, f, s⟩ : Fl).rq

/-- FLASH_ERASE (R519): an erase in a spare region, KIND 0 a sector, 1 a block, as CF_ERASE. -/
def reqFlashErase (off kind : Nat) (f : Option Nat) (s : State) : Rq :=
  let n := if kind = 0 then 4096 else 65536
  if !inSpare off n then .no 1 s
  else if 1 < kind || off % n ≠ 0 then ⟨8, [5], s⟩
  else
    let (st, s) := cfDo (kind + 2) off [] (f ≠ some 0) s
    (⟨st, f, s⟩ : Fl).rq

/-- SETTINGS_WRITE (R519, R564): the tags the service image may write. -/
def reqSettings (tag src len : Nat) (f : Option Nat) (s : State) : Rq :=
  let own := (0x100 ≤ tag && tag ≤ 0x7FFF) || (s.lcState = 1 && 1 ≤ tag && tag ≤ 3)
  if !(own && len ≤ 4080 && cruMay s src len) then .no 1 s
  else (writeSetting tag (s.bytes src len) f s).rq

/-- The slot of a target that does not run: 0 service image, 1 Crucible (R98). -/
def inactiveSlot (s : State) (kind : Nat) : Nat :=
  1 - ((if kind = 1 then s.cru.cruSlot else s.cru.svcSlot).getD 1)

/-- First offset, bytes that may be staged, and slot kind of a target; kind 0 is the media-profile region. -/
def stagePlace (s : State) (target place : Nat) : Nat × Nat × Nat :=
  match target with
  | 0 => (slotBase 2 (inactiveSlot s 2), slotSize 2 - 4096, 2)
  | 1 => (slotBase 1 (inactiveSlot s 1), slotSize 1 - 4096, 1)
  | _ => (profBase place, 0x400000 - place * 65536, 0)

/-- Erase the blocks of a chunk that the present staging has not erased yet (R512). -/
def stageErase (blocks : List Nat) (f : Option Nat) (s : State) : Fl :=
  flEach blocks (fun b f s =>
    let done := (s.cru.staging.map (·.erased)).getD []
    if b ∈ done then ⟨0, f, s⟩
    else
      let (st, s) := cfDo 3 (b * 65536) [] (f ≠ some 0) s
      let s := if st = 0 then
          modCru (fun c => { c with staging := c.staging.map fun g => { g with erased := b :: g.erased } }) s
        else s
      ⟨st, f.map (· - 1), s⟩) f s

/-- FINAL (R505, R512): verify, mark the slot, and report. -/
def stageFinal (base size kind staged : Nat) (s : State) : Rq :=
  let kinds := if kind = 0 then [3, 4, 5] else [kind]
  let slot := inactiveSlot s kind
  let st := imageCheck s base size kinds (some staged)
  let s := modCru (fun c => { c with staging := none }) s
  let s := if kind = 0 then s else setMark kind slot (if st = 0 then 0 else 12) 0 s
  ⟨st, leBytes 4 staged, if st = 0 then s else cruEvent 2 s⟩

/-- STAGE (R512): a chunk at an address of a request, filled with erased bytes to a whole word. -/
def reqStage (target place off : Nat) (chunk : List Byte) (final : Bool) (f : Option Nat) (s : State) : Rq :=
  let data := chunk ++ List.replicate ((4 - chunk.length % 4) % 4) 0xFF
  let (base, size, kind) := stagePlace s target place
  if 2 < target || (target = 2 && 64 ≤ place) then .no 1 s
  else if target = 2 && s.lcState ≠ 1 then .no 2 s
  else if size < off + chunk.length || off % 4 ≠ 0 then .no 1 s
  else
    let s := if off = 0 || s.cru.staging.isNone then
        modCru (fun c => { c with staging := some ⟨target, place, 0, []⟩ }) s
      else s
    let first : Fl := if off = 0 && kind ≠ 0 then
        let (st, s) := cfDo 2 (markAt kind (inactiveSlot s kind) 0) [] (f ≠ some 0) s
        ⟨st, f.map (· - 1), s⟩
      else ⟨0, f, s⟩
    let blocks := (List.range ((off + data.length + 65535) / 65536 - off / 65536)).map fun k =>
      base / 65536 + off / 65536 + k
    let x := (first.go (stageErase blocks)).go fun f s => flWrite (base + off) data f s
    if x.st ≠ 0 then x.rq
    else
      let n := ((x.s.cru.staging.map (·.bytes)).getD 0) + chunk.length
      let s := modCru (fun c => { c with staging := c.staging.map fun g => { g with bytes := n } }) x.s
      if final then stageFinal base size kind n s else ⟨0, leBytes 4 n, s⟩

/-- A verified image stands in the inactive slot of a kind: VERIFIED is set and INVALID clear (R513, R514), and a service
image writes the format epoch in effect (R141). -/
def stagedImage (s : State) (kind : Nat) : Bool :=
  let i := inactiveSlot s kind
  markSet s kind i 0 && !markSet s kind i 12 && (kind ≠ 2 || s.cru.epoch ≤ field (s.flash (slotBase 2 i) 20) 18 2)

/-- Choose the inactive slot: SELECT_SEQ is written, once (R506). -/
def selectSlot (kind : Nat) (s : State) : State :=
  let i := inactiveSlot s kind
  if markSet s kind i 4 then s
  else
    let other := s.flashWord (markAt kind (1 - i) 4)
    setMark kind i 4 (if other = 0xFFFFFFFF then 1 else other + 1) s

/-- Run the service image of a slot: its copy in SRAM, its measurement, and its cores restarted at an entry (R509,
R513). -/
def runService (i entry : Nat) (copy : Bool) (s : State) : State :=
  let s := if copy then copyService i s else s
  let (a, s) := handOff s
  let s := setRun 1 (runImg s (slotBase 2 i)) (modCru (fun c => { c with svcSlot := some i }) s)
  restartCores 0x3F (serviceEntry s i entry) a s

/-- A live activation's hand-over (R134 step 3, R513): SELECT_SEQ, HOLD, the new image at ENTRY; the old one stays. -/
def activateLive (s : State) : State :=
  let i := inactiveSlot s 2
  let s := netHold (selectSlot 2 s)
  runService i 28 true (modCru (fun c => { c with activation := some (i, 1 - i) }) s)

/-- ACTIVATE (R513, R514). -/
def reqActivate (target mode : Nat) (s : State) : Rq :=
  let kind := if target = 0 then 2 else 1
  if 1 < target || 1 < mode || (target = 1 && mode = 0) then .no 1 s
  else if s.cru.activation.isSome then .no 6 s
  else if !stagedImage s kind then .no 7 s
  else .no 0 (if mode = 0 then activateLive s else selectSlot kind s)

/-- Raise the SVN counters to those of the confirmed running images (R508). -/
def raiseSvn (s : State) : State :=
  let confirmed (r : RunImg) : Bool :=
    match r.kind with
    | 1 => s.cru.cruSlot.any fun i => markSet s 1 i 8
    | 2 => s.cru.svcSlot.any fun i => markSet s 2 i 8
    | _ => true
  (s.cru.run.filter confirmed).foldl (fun s r => modFuses (fun u =>
    match r.kind with
    | 2 => { u with svnSvc := max u.svnSvc r.svn }
    | 5 => { u with svnProf := max u.svnProf r.svn }
    | _ => { u with svnCru := max u.svnCru r.svn }) s) s

/-- CONFIRMED is set on a running slot, once (R506, R508). -/
def confirmSlot (kind : Nat) (slot : Option Nat) (s : State) : State :=
  match slot with
  | some i => if markSet s kind i 8 then s else setMark kind i 8 0 s
  | none => s

/-- READY (R508): slots confirmed, counters raised; a trial or an activation has ended well. -/
def reqReady (s : State) : State :=
  let s := confirmSlot 1 s.cru.cruSlot (confirmSlot 2 s.cru.svcSlot s)
  modCru (fun c => { c with trial := false, activation := none }) (raiseSvn s)

/-- A live activation fails (R135, R513): the new slot is INVALID, the old image goes on at RESUME. -/
def activationFail (s : State) : State :=
  match s.cru.activation with
  | some (new, old) =>
    let s := setMark 2 new 12 0 s
    cruEvent 7 (runService old 32 false (modCru (fun c => { c with activation := none }) s))
  | none => s

/-- BAND_CREATE (R501). -/
def reqBandCreate (band : Nat) (f : Option Nat) (s : State) : Rq :=
  if 64 ≤ band then .no 1 s
  else if !(s.lcState = 1 || s.lcState = 2) then .no 2 s
  else if entropyFailed s || s.cru.fuses.kek = 4095 then .no 9 s
  else (createBand band f s).rq

/-- The service image provisions all 64 bands at the first boot in TEMPERED, where none is provisioned under the present epoch,
and they are loaded (R501; the loading DEDUCED, log entry 33). -/
def provisionBands (s : State) : State :=
  if s.lcState = 2 && (provisioned s).isEmpty then
    loadBands ((List.range 64).foldl (fun s b => (reqBandCreate b none s).s) s)
  else s

/-- SANITIZE up to its pending record (R502, R503): `auth` is the authorisation. Of several refusals the one is given that the
service image answers with the lowest status (R111). The flash calls that are left come beside. -/
def beginSanitize (action band : Nat) (auth : List Byte) (f : Option Nat) (s : State) : Rq × Option Nat :=
  let arg := if action = 2 then band else 0
  if action = 0 || 3 < action || 64 ≤ band then (.no 1 s, f)
  else if !authOk s auth action arg then (.no 3 (cruEvent 4 s), f)
  else if !(s.lcState = 1 || s.lcState = 2) then (.no 2 s, f)
  else if entropyFailed s || s.cru.fuses.kek = 4095 then (.no 9 s, f)
  else
    let x := acceptAuth auth action arg none s
    if x.st ≠ 0 then (.no x.st x.s, f)
    else
      let y := writeSetting 0x11 (pendingRecord x.s action band) f x.s
      (y.rq, y.left)

/-- SANITIZE as Crucible's request (R502). -/
def reqSanitize (action band : Nat) (auth : List Byte) (f : Option Nat) (s : State) : Rq :=
  let (r, f) := beginSanitize action band auth f s
  if r.st = 0 then (sanitizeRun action band f r.s).rq else r

/-- An authorisation for a recorder clear (R516, R542). -/
def reqAuthClear (auth : List Byte) (s : State) : Rq :=
  if !authOk s auth 8 0 then .no 3 (cruEvent 4 s)
  else if !(1 ≤ s.lcState && s.lcState ≤ 3) then .no 2 s
  else
    let x := acceptAuth auth 8 0 none s
    .no x.st x.s

/-- A window set of a function, 0 to 6 or 8, or of the service image, 15, is programmed (R27, R493); a blocked function's
completions may go on (R169). -/
def setWindow (set index base limit : Nat) (en : Bool) (s : State) : State :=
  let w := if set = 15 then Reg.CRU_SWIN index 0 else Reg.CRU_WIN set index 0
  let s := s.setReg w (BitVec.ofNat 32 (base / 4096))
  let s := s.setReg (w + 4) (BitVec.ofNat 32 (limit / 4096))
  let s := s.setReg (w + 12) (BitVec.ofNat 32 (b2n en))
  refreshStalls { s with rings := { s.rings with blocked := s.rings.blocked.filter fun x => x.1 ≠ set } }

/-- First address of the aperture: the highest 256 MiB of installed DRAM (R493). -/
def apertureBase (s : State) : Nat := dramBase + s.dramBytes - 2 ^ 28

/-- WINDOW_SET (R493). -/
def reqWindow (set index base limit : Nat) (en : Bool) (s : State) : Rq :=
  if !(set ≤ 8 || set = 15) || (if set = 15 then 64 else 16) ≤ index then .no 1 s
  else if set = 7 || base % 4096 ≠ 0 || limit % 4096 ≠ 0 || limit < base || base < dramBase
      || dramBase + s.dramBytes < limit + 4096 || apertureBase s < limit + 4096 then .no 2 (cruEvent 10 s)
  else .no 0 (setWindow set index base limit en s)

/-- FUNC_RESET (R533). -/
def reqFuncReset (f : Nat) (s : State) : Rq := if 6 < f then .no 1 s else .no 0 (startReset f s)

/-- Code of a life-cycle state (Table "Life-cycle codes"). -/
def lcCode (n : Nat) : Nat :=
  match n with
  | 1 => 0xFF
  | 2 => 0xFFFF
  | 3 => 0xFFFFFF
  | _ => 0xFFFFFFFF

/-- Unload every band. -/
def unloadAll (s : State) : State := (s.xfm.keys.map Prod.fst).foldl (fun s b => unloadBand b s) s

/-- Steps 1 to 5 of a transition to a state (R498). -/
def lcTransition (target : Nat) (s : State) : State :=
  let s := s.setRf Reg.CRU_CORE_CTRL 5 0 0
  let s := if target = 3 then burnVault (2 ^ 9) (burnVault (3 * 2 ^ 10) s)
    else if target = 4 then burnVault (2 ^ 9) (burnVault (7 * 2 ^ 10) s)
    else s
  let s := if target = 2 then modFuses (fun u => { u with kek := min 4095 (u.kek + 1) }) (unloadAll s) else unloadAll s
  beginReset .cold 3 (burnLc (lcCode target) s)

/-- State that LC_TARGET asks for (R498): 3 REMELT, 4 SCRAP, 0 none. -/
def lcTarget (s : State) : Nat :=
  let v := fld s.vaultWord 12 10
  if v = 7 then 4 else if v = 3 then 3 else 0

/-- LC_SET waits until a sanitize, whose record is pending, or an activation in progress ends (R498, R502). -/
def lcWaits (s : State) : Bool := s.cru.activation.isSome || (setting s 0x11).length = 12

/-- LC_SET (R497, R498, R516): the transition its authorisation names; nothing is answered where it is carried out. -/
def reqLcSet (auth : List Byte) (f : Option Nat) (s : State) : Rq :=
  let action := field auth 4 1
  let target := action - 0x11 + 2
  if action < 0x11 || 0x13 < action then .no 3 (cruEvent 4 s)
  else if !(if target = 4 then 1 ≤ s.lcState && s.lcState ≤ 3 else s.lcState + 1 = target) then .no 2 s
  else if target = 2 && s.cru.fuses.kek = 4095 then .no 9 s
  else
    let x := acceptAuth auth action 0 f s
    if x.st ≠ 0 then .no x.st x.s else .no 0 (lcTransition target x.s)

/-- DEBUG_OPEN (R496, R516), or the revocation of a key slot (R516). -/
def reqAuthAction (auth : List Byte) (f : Option Nat) (s : State) : Rq :=
  let action := field auth 4 1
  let slot := field auth 5 1
  if action = 0x10 then
    let x := acceptAuth auth 0x10 0 f s
    .no x.st (if x.st = 0 then modCru (fun c => { c with debugOpen := true }) x.s else x.s)
  else if action = 0x20 then
    let rest := [1, 2, 3].filter fun i => i ≠ slot && slotUsable s i
    if rest.isEmpty then .no 2 s
    else
      let x := acceptAuth auth 0x20 slot f s
      .no x.st (if x.st = 0 && 1 ≤ slot && slot ≤ 3 then burnVault (2 ^ (5 + slot)) x.s else x.s)
  else .no 3 (cruEvent 4 s)

end Sys2Proof.Machine
end

