-- ==== Sys2Proof/Machine/EftWords.lean ====
section
/-!
DEFINITION. Machine/EftWords.lean: what one microword does (R178 to R182, R184, R187). Each `do…` acts on an eft whose
unit executes the word: the word has been fetched, its reserved bits are 0 and its opcode is the one named.
-/

namespace Sys2Proof.Machine

open Sys2Proof

/-- The next microword follows. -/
def goOn (e : Nat) (s : State) : State := modUnit e EftUnit.next s

/-- Scratch register `r` of the unit in eft `e`. -/
def scr (s : State) (e r : Nat) : Word :=
  match (s.eft e).unit with
  | some u => u.get r
  | none => 0

/-- The unit has executed COMMIT. -/
def isCommitted (s : State) (e : Nat) : Bool := (s.eft e).unit.any EftUnit.committed

/-- The microword at the unit's PC; an unwritten word is 0 (R194). -/
def wordAt (s : State) (e : Nat) : MWord :=
  match (s.eft e).unit with
  | some u => Sparse.get (fun _ => 0) (s.eft e).cs u.pc
  | none => 0

/-- LDI (R179). -/
def doLdi (e : Nat) (w : MWord) (s : State) : State := modUnit e (fun u => u.setR (mwDB w) (BitVec.ofNat 32 (mwImm w))) s

/-- LDH (R179). -/
def doLdh (e : Nat) (w : MWord) (s : State) : State :=
  modUnit e (fun u => u.setR (mwDB w) (putFld (u.get (mwDB w)) 31 16 (mwImm w))) s

/-- ADDI (R179). -/
def doAddi (e : Nat) (w : MWord) (s : State) : State :=
  modUnit e (fun u =>
    let a := u.get (mwDB w)
    let b : Word := (BitVec.ofNat 16 (mwImm w)).signExtend 32
    u.setF (mwDB w) (a + b) (carryOut a b)) s

/-- MOV (R179): T must be 0. -/
def doMov (e : Nat) (w : MWord) (s : State) : State :=
  if mwT w = 0 then modUnit e (fun u => u.setR (mwD w) (u.get (mwS w))) s else unitFault e 2 s

/-- An operation of format A on S and T with a carry rule (R179). -/
def doAlu (op : Word → Word → Word) (cy : Word → Word → Bool) (e : Nat) (w : MWord) (s : State) : State :=
  modUnit e (fun u =>
    let a := u.get (mwS w)
    let b := u.get (mwT w)
    u.setF (mwD w) (op a b) (cy a b)) s

/-- CMP (R179): D must be 0; only the flags change. -/
def doCmp (e : Nat) (w : MWord) (s : State) : State :=
  if mwD w = 0 then
    modUnit e (fun u =>
      let a := u.get (mwS w)
      let b := u.get (mwT w)
      (u.flags (a - b) (borrow a b)).next) s
  else unitFault e 2 s

/-- SHL (R179). -/
def doShl (e : Nat) (w : MWord) (s : State) : State :=
  modUnit e (fun u => let a := u.get (mwS w); u.setF (mwD w) (a <<< mwAmt w) (lastOutL a (mwAmt w))) s

/-- SHR (R179). -/
def doShr (e : Nat) (w : MWord) (s : State) : State :=
  modUnit e (fun u => let a := u.get (mwS w); u.setF (mwD w) (a >>> mwAmt w) (lastOutR a (mwAmt w))) s

/-- JOB (R179): body words 0 to 13 of the first entry; 14 and 15 are ILLEGAL. -/
def doJob (e : Nat) (w : MWord) (s : State) : State :=
  if 14 ≤ mwWord w then unitFault e 2 s
  else modUnit e (fun u => u.setR (mwD w) (BitVec.ofNat 32 (field u.job.entry (8 + 4 * mwWord w) 4))) s

/-- XFER (R179, R180, R182): it starts and the eft goes on, channel 0 being the one datapath channel of an eft (DEDUCED, log
entry 27); one past the end of BUF moves nothing and is a PORT fault. A second XFER waits for the first. -/
def doXfer (e : Nat) (w : MWord) (s : State) : State :=
  match (s.eft e).unit with
  | none => s
  | some u =>
    let a := (u.get (mwD w)).toNat
    let n := (u.get (mwS w)).toNat
    if (s.eft e).xfer.isSome then s
    else if mwCh w ≠ 0 || entLen u.job.entry < a + n then unitFault e 4 s
    else goOn e (modEft e (fun x => { x with xfer := some ⟨entBuf u.job.entry + a, n, mwCh w, mwDir w⟩ }) s)

/-- An event an eft can wait for holds as a level (R182, R212, R300, R303, R333, R348, R384); none where the eft has no
such event. -/
def evHolds (s : State) (e ev : Nat) : Option Bool :=
  let m := med s (e / 2)
  if ev = 0 then some false
  else if ev = 1 then some (s.eft e).xfer.isNone
  else if e < 4 then
    match ev with
    | 24 => some m.wr.wdone
    | 25 => some m.rc.rdone
    | 26 => some m.sr.odone
    | 27 => some m.sr.ocdone
    | 28 => some m.sv.settled
    | 29 => some m.sv.rampDone
    | 30 => some (releasedFor s e)
    | _ => none
  else
    match ev, (s.eft e).unit with
    | 2, some u => some (!(lun s (e - 4) (jobDie s u.job.entry)).busy)
    | 16, _ => some (chan s (e - 4)).decoded
    | _, _ => none

/-- WAIT (R182): EV 3 to 15 are ILLEGAL, an event the eft does not have is a PORT fault. A wait on a level that holds ends
at once. -/
def doWait (e : Nat) (w : MWord) (s : State) : State :=
  let ev := mwEv w
  let t := (scr s e (mwWT w)).toNat
  if 3 ≤ ev && ev ≤ 15 then unitFault e 2 s
  else
    match evHolds s e ev with
    | none => unitFault e 4 s
    | some true => endWait e false s
    | some false => modEft e (fun x => { x with wait := .event ev t }) s

/-- A branch condition 0 to 18 (R180); SREQ holds while every condition of R216 does. -/
def condHolds (s : State) (e : Nat) (u : EftUnit) (c : Nat) : Bool :=
  let d := jobDie s u.job.entry
  let sreq := 4 ≤ e && s.rb Reg.STG_CTRL 0 && !s.stg.pwrLoss && (lun s (e - 4) d).sreq && readReady s (e - 4) d
  let unsafe_ := e < 4 && (med s (e / 2)).sv.wus
  let last := u.get 15 = u.get 14 - 1
  let busy := (s.eft e).xfer.isSome
  match c with
  | 0 => true
  | 1 => u.z
  | 2 => !u.z
  | 3 => u.c
  | 4 => !u.c
  | 5 => u.n
  | 6 => !u.n
  | 7 => u.timedOut
  | 8 => !u.timedOut
  | 9 => sreq
  | 10 => !sreq
  | 11 => last
  | 12 => !last
  | 13 => unsafe_
  | 14 => !unsafe_
  | 15 => busy
  | 16 => !busy
  | 17 => u.restarts = 0
  | 18 => u.restarts ≠ 0
  | _ => false

/-- BR (R180). -/
def doBr (e : Nat) (w : MWord) (s : State) : State :=
  match (s.eft e).unit with
  | none => s
  | some u =>
    if 19 ≤ mwCond w then unitFault e 2 s
    else if condHolds s e u (mwCond w) then modUnit e (fun u => { u with pc := mwAddr w }) s
    else goOn e s

/-- CALL (R179): COND must be 0; at depth 8 a STACK fault. -/
def doCall (e : Nat) (w : MWord) (s : State) : State :=
  match (s.eft e).unit with
  | none => s
  | some u =>
    if mwCond w ≠ 0 then unitFault e 2 s
    else if 8 ≤ u.stack.length then unitFault e 6 s
    else modUnit e (fun u => { u with stack := (u.pc + 1) % 8192 :: u.stack, pc := mwAddr w }) s

/-- RET (R179): at depth 0 a STACK fault. -/
def doRet (e : Nat) (s : State) : State :=
  match (s.eft e).unit with
  | none => s
  | some u =>
    match u.stack with
    | [] => unitFault e 6 s
    | a :: rest => modUnit e (fun u => { u with stack := rest, pc := a }) s

/-- DBNZ (R179). -/
def doDbnz (e : Nat) (w : MWord) (s : State) : State :=
  modUnit e (fun u =>
    let v := u.get (mwD w) - 1
    let u := u.put (mwD w) v
    if v = 0 then u.next else { u with pc := mwAddr w }) s

/-- COMMIT (R187): a second one is a COMMIT_ORDER fault. -/
def doCommit (e : Nat) (s : State) : State :=
  if isCommitted s e then unitFault e 5 s else modUnit e (fun u => { u with committed := true }.next) s

/-- END (R184, R187). -/
def doEnd (e : Nat) (s : State) : State := if isCommitted s e then unitDone e s else unitFault e 5 s

/-- FAIL (R179, R184, R187): KIND 3 to 7 is ILLEGAL. -/
def doFail (e : Nat) (w : MWord) (s : State) : State :=
  if 3 ≤ mwKind w then unitFault e 2 s else unitFail e (mwKind w) (mwImm w) s

/-- RES (R179): IDX 3 is ILLEGAL; a sum keeps 64 bits (DEDUCED, log entry 27). -/
def doRes (e : Nat) (w : MWord) (s : State) : State :=
  if mwIdx w = 3 then unitFault e 2 s
  else
    modUnit e (fun u =>
      let v := (u.get (mwS w)).toNat
      let f (old : Nat) : Nat := if mwAdd w then (old + v) % 2 ^ 64 else v
      let u := match mwIdx w with
        | 0 => { u with res0 := f u.res0 }
        | 1 => { u with res1 := f u.res1 }
        | _ => { u with res2 := f u.res2 }
      u.next) s

/-- EVT (R179): MICRO with its code. -/
def doEvt (e : Nat) (w : MWord) (s : State) : State :=
  eftAttn e 3 ((goOn e s).setRf (Reg.EFT_ATTN e) 15 8 (mwCode w))

/-- HALT (R179): DEBUG_HALT with DEBUG_EN, else ILLEGAL. The PC shown is that of the next microword. -/
def doHalt (e : Nat) (s : State) : State :=
  if s.rb (Reg.EFT_CTRL e) 1 then modEft e (fun x => { x with st := .debugHalt }) (goOn e s) else unitFault e 2 s

/-- EFT_BREAK stops the eft before the word at its PC (R197). -/
def atBreak (s : State) (e : Nat) : Bool :=
  let x := s.eft e
  s.rb (Reg.EFT_CTRL e) 1 && s.rb (Reg.EFT_BREAK e) 31 && !x.passBreak
    && x.unit.any fun u => u.pc = s.rf (Reg.EFT_BREAK e) 12 0

/-- The eft executes microwords: a unit that nothing holds, outside a break. -/
def eftReady (s : State) (e : Nat) (st : EftSt) : Bool :=
  let x := s.eft e
  x.st = st && x.unit.isSome && x.wait = .none

/-- One microword is fetched and executed (R178, R195): check bits, reserved bits, then `act`. -/
def fetchDo (e : Nat) (o : CsRead) (act : MWord → State → State) (s : State) : State :=
  let w := wordAt s e
  match o with
  | .uncorrectable => unitFault e 3 (eftAttn e 2 (s.bumpRf (Reg.EFT_CS_ECC e) 31 16))
  | _ =>
    let s := if o = .corrected then s.bumpRf (Reg.EFT_CS_ECC e) 15 0 else s
    let s := modEft e (fun x => { x with passBreak := false }) s
    if mwRsvOk w then act w s else unitFault e 2 s

/-- A running eft whose next microword satisfies a predicate executes it; any other stays as it is. -/
def runWord (e : Nat) (o : CsRead) (p : MWord → Bool) (act : MWord → State → State) (s : State) : State :=
  if eftReady s e .running && !atBreak s e && p (wordAt s e) then fetchDo e o act s else s

/-- A running eft whose next microword is an IN or OUT of a port executes it. -/
def runPort (e : Nat) (o : CsRead) (port : Nat) (act : MWord → State → State) (s : State) : State :=
  runWord e o (fun w => (mwOp w = 0x0E || mwOp w = 0x0F) && mwPort w = port) act s

end Sys2Proof.Machine
end

