-- ==== Sys2Proof/Machine/EftPorts.lean ====
section
/-!
DEFINITION. Machine/EftPorts.lean: IN and OUT on the ports of the eft port space (R181, R212, R300, R333, R348, R384).
Each `port…` acts on an eft whose unit executes an IN or OUT of that port.
-/

namespace Sys2Proof.Machine

open Sys2Proof

/-- The word is an IN. -/
def isIn (w : MWord) : Bool := mwOp w = 0x0E

/-- An access to a port the eft does not have, or in a direction it does not have: a PORT fault (R181). -/
def portFault (e : Nat) (s : State) : State := unitFault e 4 s

/-- IN: D takes a value (R179). -/
def portIn (e : Nat) (w : MWord) (v : Word) (s : State) : State := modUnit e (fun u => u.setR (mwD w) v) s

/-- A port that has only an IN. -/
def inOnly (e : Nat) (w : MWord) (v : State → Word) (s : State) : State :=
  if isIn w then portIn e w (v s) s else portFault e s

/-- A repeatable port that has only an OUT: the next microword follows, and the action takes place. -/
def outOnly (e : Nat) (w : MWord) (act : Word → State → State) (s : State) : State :=
  if isIn w then portFault e s else let v := scr s e (mwD w); act v (goOn e s)

/-- A commit-class port (R181): an OUT before COMMIT is a COMMIT_ORDER fault; an IN is allowed, and what it reads is
not stated: a free value. -/
def commitPort (e : Nat) (w : MWord) (act : Word → State → State) (s : State) : State :=
  if isIn w then
    let (bs, s) := s.drawBytes 4
    portIn e w (BitVec.ofNat 32 (leNat bs)) s
  else if isCommitted s e then let v := scr s e (mwD w); act v (goOn e s)
  else unitFault e 5 s

/-- A MEDx port: a PORT fault on an STG eft. -/
def medPort (e : Nat) (k : State → State) (s : State) : State := if e < 4 then k s else portFault e s

/-- An STG port: a PORT fault on a MEDx eft. -/
def stgPort (e : Nat) (k : State → State) (s : State) : State := if e < 4 then portFault e s else k s

/-- Port 0x00, TIME_US (R181). -/
def portTimeUs (e : Nat) (w : MWord) (s : State) : State := inOnly e w (fun s => BitVec.ofNat 32 s.timeUs) s

/-- Port 0x01, UNIT_RESTARTS (R181, R190). -/
def portUnitRestarts (e : Nat) (w : MWord) (s : State) : State :=
  inOnly e w (fun s => BitVec.ofNat 32 (((s.eft e).unit.map EftUnit.restarts).getD 0)) s

/-- Port 0x10, TOKEN (R176): OUT takes the datapath or waits for it. -/
def portToken (e : Nat) (w : MWord) (s : State) : State :=
  medPort e (fun s =>
    if isIn w then portFault e s
    else if (s.eft e).owns then goOn e s
    else if tokenFree s (e / 2) then goOn e (modEft e (fun x => { x with owns := true }) s)
    else modEft e (fun x => { x with wait := .token }) s) s

/-- Write-path ports (R300). -/
def portWhead (e : Nat) (w : MWord) (s : State) : State :=
  medPort e (outOnly e w fun v s => whead (e / 2) (fld v 3 0) s) s
def portWsect (e : Nat) (w : MWord) (s : State) : State :=
  medPort e (outOnly e w fun v s => wsect e (fld v 16 0) s) s
def portWparity (e : Nat) (w : MWord) (s : State) : State :=
  medPort e (outOnly e w fun v s => wparity (e / 2) (fld v 2 0) s) s
def portWstat (e : Nat) (w : MWord) (s : State) : State :=
  medPort e (inOnly e w fun s => BitVec.ofNat 32 (med s (e / 2)).wr.wstat) s
def portWend (e : Nat) (w : MWord) (s : State) : State :=
  medPort e (outOnly e w fun _ s => endWriteRun (e / 2) s) s
def portArm (e : Nat) (w : MWord) (s : State) : State :=
  medPort e (commitPort e w fun _ s => arm e s) s

/-- Read-channel ports (R333). -/
def portRhead (e : Nat) (w : MWord) (s : State) : State :=
  medPort e (outOnly e w fun v s => rhead (e / 2) (fld v 3 0) s) s
def portRsect (e : Nat) (w : MWord) (s : State) : State :=
  medPort e (outOnly e w fun v s => rsect e (fld v 16 0) s) s
def portRarm (e : Nat) (w : MWord) (s : State) : State :=
  medPort e (outOnly e w fun _ s => rarm e s) s
def portRstat (e : Nat) (w : MWord) (s : State) : State :=
  medPort e (inOnly e w fun s => (med s (e / 2)).rc.rstat) s
def portRerased (e : Nat) (w : MWord) (s : State) : State :=
  medPort e (inOnly e w fun s => (med s (e / 2)).rc.rerased) s
def portRend (e : Nat) (w : MWord) (s : State) : State :=
  medPort e (outOnly e w fun _ s => endReadRun (e / 2) s) s

/-- Recovery ports (R348). -/
def portSync (e : Nat) (w : MWord) (s : State) : State :=
  medPort e (inOnly e w fun s => (med s (e / 2)).sr.sync) s
def portSslot (e : Nat) (w : MWord) (s : State) : State :=
  medPort e (inOnly e w fun s => BitVec.ofNat 32 (sslotWord (med s (e / 2)).sr)) s
def portSpin (e : Nat) (w : MWord) (s : State) : State :=
  medPort e (outOnly e w fun v s => spin (e / 2) v s) s
/-- OFF of −8 is a PORT fault (R348). -/
def portOredet (e : Nat) (w : MWord) (s : State) : State :=
  medPort e (fun s =>
    if !isIn w && fld (scr s e (mwD w)) 3 0 = 8 then portFault e s else outOnly e w (fun v s => oredet e v s) s) s
/-- An IN before any OREDET is a PORT fault (R348). -/
def portOstat (e : Nat) (w : MWord) (s : State) : State :=
  medPort e (fun s =>
    match (med s (e / 2)).sr.ostat with
    | some v => inOnly e w (fun _ => v) s
    | none => portFault e s) s
def portOcstart (e : Nat) (w : MWord) (s : State) : State :=
  medPort e (outOnly e w fun v s => ocstart e (fld v 7 0) s) s
/-- An IN before any OCSTART is a PORT fault (R348). -/
def portOcstat (e : Nat) (w : MWord) (s : State) : State :=
  medPort e (fun s =>
    match (med s (e / 2)).sr.rebuild with
    | some b => inOnly e w (fun _ => BitVec.ofNat 32 (ocstatWord b)) s
    | none => portFault e s) s
/-- An offset above 255 is a PORT fault (R348). -/
def portOcsolve (e : Nat) (w : MWord) (s : State) : State :=
  medPort e (fun s =>
    if !isIn w && 255 < fld (scr s e (mwD w)) 8 0 then portFault e s
    else outOnly e w (fun v s => ocsolve e (fld v 8 0) s) s) s

/-- State number of the servo engine (Table "Servo engine states"). -/
def svCode (v : Sv) : Nat :=
  match v.st with
  | .off => 0
  | .loading => 1
  | .seeking => 2
  | .settling => 3
  | .tracking => 4
  | .unloading => 5
  | .fault => 6
  | .held => 7

/-- MEDx_SV_STATUS (R393). -/
def svStatus (s : State) (x : Nat) : Word :=
  let v := sv s x
  BitVec.ofNat 32 (svCode v + b2n v.clamped * 2 ^ 3 + b2n v.wus * 2 ^ 4 + b2n (spinOk s) * 2 ^ 5 + v.bank % 2 * 2 ^ 6
    + b2n v.following * 2 ^ 7 + v.cause % 16 * 2 ^ 8 + v.miss % 16 * 2 ^ 12 + v.fe % 512 * 2 ^ 16)

/-- Servo ports (R384). -/
def portSvstat (e : Nat) (w : MWord) (s : State) : State := medPort e (inOnly e w fun s => svStatus s (e / 2)) s
def portRetarget (e : Nat) (w : MWord) (s : State) : State :=
  medPort e (outOnly e w fun v s => retarget (e / 2) (wordTarget v) s) s
def portRoffset (e : Nat) (w : MWord) (s : State) : State :=
  medPort e (outOnly e w fun v s => readOffset (e / 2) (sfld v 15 0) s) s
def portRampOff (e : Nat) (w : MWord) (s : State) : State :=
  medPort e (commitPort e w fun v s => rampOff (e / 2) (wordTarget v) s) s
def portRampOn (e : Nat) (w : MWord) (s : State) : State :=
  medPort e (commitPort e w fun _ s => rampOn (e / 2) s) s

/-- First entry of the job of an STG eft, its channel and its die. -/
def jobOf (s : State) (e : Nat) : List Byte × Nat × Nat :=
  let b := eftEntry s e
  (b, e - 4, jobDie s b)

/-- A command or confirm cycle reaches the die (R212, Table "STG eft ports", ONFI): 0x80 clears the data register; 0x30,
0x10, 0x15, 0xD0, 0xEC, 0x90 and 0xEE start an array operation; 0xFA and 0xFF reset. The counts of R216 stay those of a
suspended operation. -/
def lunCycle (e code : Nat) (s : State) : State :=
  let (b, c, d) := jobOf s e
  let start (op : ArrayOp) (l : Lun) : Lun :=
    let fresh := l.susp ≠ .yes
    { l with op := op, entry := b, busy := true, suspends := if fresh then 0 else l.suspends,
             limitRaised := !fresh && l.limitRaised, sreq := !fresh && l.sreq, cmd := code }
  match code with
  | 0x80 => modLun c d (fun l => { l with cmd := code, data := [], fail := false }) s
  | 0x30 => modLun c d (start .read) s
  | 0x10 | 0x15 => modLun c d (start .program) s
  | 0xD0 => modLun c d (start .erase) s
  | 0xEC | 0x90 | 0xEE => modLun c d (start .other) s
  | 0xFA | 0xFF => lunReset c d s
  | _ => modLun c d (fun l => { l with cmd := code }) s

/-- Port 0x20, CMD. -/
def portCmd (e : Nat) (w : MWord) (s : State) : State := stgPort e (outOnly e w fun v s => lunCycle e (fld v 7 0) s) s

/-- Port 0x21, ADDR (R204): the plane and codeword of S, the block and page of the job. -/
def portAddr (e : Nat) (w : MWord) (s : State) : State :=
  stgPort e (outOnly e w fun v s =>
    let (b, c, d) := jobOf s e
    let p := fld v 1 0
    let block := if stgPlanes b = 0 then stgBlock b else planeBlock s c (stgBlock b) p
    modLun c d (fun l => { l with plane := p, cw := fld v 11 8, row := rowAddr s c (stgLun b) block (stgPage b) }) s) s

/-- Port 0x22, APPLY (R221). -/
def portApply (e : Nat) (w : MWord) (s : State) : State :=
  stgPort e (outOnly e w fun v s =>
    let (b, c, d) := jobOf s e
    applyOffsets c d ((jobBlocks s b).headD 0) v.toNat (eftAccessFail e) (fun s => s) s) s

/-- Port 0x23, STATUS: the status byte of ONFI, ready bits 5 and 6, write protect off in bit 7, FAIL in bit 0. -/
def portStatus (e : Nat) (w : MWord) (s : State) : State :=
  stgPort e (inOnly e w fun s =>
    let (_, c, d) := jobOf s e
    let l := lun s c d
    BitVec.ofNat 32 (0x80 + (if l.busy then 0 else 0x60) + b2n l.fail)) s

/-- What the last DECODE left for the ports of an eft (R212): of its job, or of the channel where the job made none. -/
def lastSet (s : State) (e : Nat) : DecSet :=
  let l := (chan s (e - 4)).sets
  let mine := l.filter fun k => match (s.eft e).unit with
    | some u => k.sq = u.job.sq && k.first = u.job.first
    | none => false
  (mine ++ l).headD ⟨0, 0, 0, 0, [], [], 0, 0, false⟩

/-- A DECODE starts (R212, R219): buffer set `n` is its job's; what another job left there is gone. -/
def startDecode (e n mode : Nat) (s : State) : State :=
  match (s.eft e).unit with
  | none => s
  | some u =>
    let q := u.job.sq
    let f := u.job.first
    let llr := llrOf s mode
    modChan (e - 4) (fun c =>
      let old := (c.sets.find? fun k => k.set = n && k.sq = q && k.first = f).getD ⟨n, q, f, 0, [], [], 0, 0, false⟩
      { c with decoding := some ⟨n, mode, q, f, u.job.entry⟩, decoded := false, llr := llr,
               sets := old :: c.sets.filter fun k => k.set ≠ n }) s

/-- Port 0x24, DECODE: an OUT starts a decode, an IN answers the failing bitmap. -/
def portDecode (e : Nat) (w : MWord) (s : State) : State :=
  stgPort e (fun s =>
    if isIn w then portIn e w (BitVec.ofNat 32 (lastSet s e).failing) s
    else
      let v := scr s e (mwD w)
      startDecode e (fld v 1 0) (fld v 5 4) (goOn e s)) s

/-- Port 0x25, SYNDROME: the codeword is the present value of the register named. -/
def portSyndrome (e : Nat) (w : MWord) (s : State) : State :=
  stgPort e (inOnly e w fun s =>
    BitVec.ofNat 32 ((lastSet s e).syndromes.getD (scr s e (mwD w)).toNat 0)) s

/-- Port 0x30, YIELD (R212, R213): the job is parked after this microword, and the eft is free; where its LUN is ready
already, a YIELD 0 is woken at once. -/
def portYield (e : Nat) (w : MWord) (s : State) : State :=
  stgPort e (outOnly e w fun v s =>
    let (_, c, d) := jobOf s e
    match (s.eft e).unit with
    | none => s
    | some u =>
      let kind : YieldKind := if v = 0 then .ready else .suspended
      let woken := v = 0 && !(lun s c d).busy
      let k : Parked := ⟨u, d, kind, woken, false⟩
      modEft e (fun x =>
        { x with unit := none, xfer := none, wait := .none, st := if x.st = .held then .held else .idle,
                 parked := if woken then x.parked.filter Parked.woken ++ [k] ++ x.parked.filter (fun p => !p.woken)
                           else x.parked ++ [k] }) s) s

/-- Port 0x90, CONFIRM. -/
def portConfirm (e : Nat) (w : MWord) (s : State) : State :=
  stgPort e (commitPort e w fun v s => lunCycle e (fld v 7 0) s) s

/-- Port 0x91, SUSPEND (R216, R217): the operation in the array is being suspended, and SREQ falls. -/
def portSuspend (e : Nat) (w : MWord) (s : State) : State :=
  stgPort e (commitPort e w fun _ s =>
    let (_, c, d) := jobOf s e
    modLun c d (fun l =>
      if l.busy && (l.op = .program || l.op = .erase) then
        { l with susp := .entering, suspends := l.suspends + 1, sreq := false }
      else l) s) s

/-- Port 0x92, RESUME (R217): the suspended operation goes on in the array. -/
def portResume (e : Nat) (w : MWord) (s : State) : State :=
  stgPort e (commitPort e w fun _ s =>
    let (_, c, d) := jobOf s e
    modLun c d (fun l =>
      if l.susp = .yes then
        { l with susp := .no, op := l.heldOp, entry := l.heldEntry, heldOp := .none, heldEntry := [], busy := true,
                 data := l.heldData, heldData := [] }
      else l) s) s

/-- Port 0x93, RESET. -/
def portReset (e : Nat) (w : MWord) (s : State) : State :=
  stgPort e (commitPort e w fun _ s => let (_, c, d) := jobOf s e; lunReset c d s) s

/-- Port 0x94, FEATURE_DATA: four bytes of BUF set the feature at the job's address (R206). -/
def portFeatureData (e : Nat) (w : MWord) (s : State) : State :=
  stgPort e (commitPort e w fun _ s =>
    let (b, c, d) := jobOf s e
    readOr 4 (entBuf b) 4 (eftAccessFail e) (fun data s => setFeat c d (stgBlock b) (leNat data) s) s) s

/-- An IN or OUT of any port, as a single step meets it (R181, R197). -/
def doIo (e : Nat) (w : MWord) (s : State) : State :=
  match mwPort w with
  | 0x00 => portTimeUs e w s
  | 0x01 => portUnitRestarts e w s
  | 0x10 => portToken e w s
  | 0x20 => portCmd e w s
  | 0x21 => portAddr e w s
  | 0x22 => portApply e w s
  | 0x23 => portStatus e w s
  | 0x24 => portDecode e w s
  | 0x25 => portSyndrome e w s
  | 0x30 => portYield e w s
  | 0x40 => portWhead e w s
  | 0x41 => portWsect e w s
  | 0x42 => portWparity e w s
  | 0x43 => portWstat e w s
  | 0x44 => portWend e w s
  | 0x50 => portRhead e w s
  | 0x51 => portRsect e w s
  | 0x52 => portRarm e w s
  | 0x53 => portRstat e w s
  | 0x54 => portRerased e w s
  | 0x55 => portRend e w s
  | 0x56 => portSync e w s
  | 0x57 => portSslot e w s
  | 0x58 => portSpin e w s
  | 0x59 => portOredet e w s
  | 0x5A => portOstat e w s
  | 0x5B => portOcstart e w s
  | 0x5C => portOcstat e w s
  | 0x5D => portOcsolve e w s
  | 0x60 => portSvstat e w s
  | 0x61 => portRetarget e w s
  | 0x62 => portRoffset e w s
  | 0x90 => portConfirm e w s
  | 0x91 => portSuspend e w s
  | 0x92 => portResume e w s
  | 0x93 => portReset e w s
  | 0x94 => portFeatureData e w s
  | 0xC0 => portArm e w s
  | 0xD0 => portRampOff e w s
  | 0xD1 => portRampOn e w s
  | _ => portFault e s

end Sys2Proof.Machine
end

