-- ==== Sys2Proof/Machine/EftCmds.lean ====
section
/-!
DEFINITION. Machine/EftCmds.lean: commands of the eft sequencers (spec/06): every microword, every port, transfers and
waits, abandonment and restart, loading and debugging.
-/

namespace Sys2Proof.Machine

open Sys2Proof Host

/-- What any microword does (R179), as a single step meets it; opcodes 0x1C to 0x1F are ILLEGAL. -/
def doWord (e : Nat) (w : MWord) (s : State) : State :=
  match mwOp w with
  | 0x00 => goOn e s
  | 0x01 => doLdi e w s
  | 0x02 => doLdh e w s
  | 0x03 => doAddi e w s
  | 0x04 => doMov e w s
  | 0x05 => doAlu (· + ·) carryOut e w s
  | 0x06 => doAlu (· - ·) borrow e w s
  | 0x07 => doAlu (· &&& ·) (fun _ _ => false) e w s
  | 0x08 => doAlu (· ||| ·) (fun _ _ => false) e w s
  | 0x09 => doAlu (· ^^^ ·) (fun _ _ => false) e w s
  | 0x0A => doShl e w s
  | 0x0B => doShr e w s
  | 0x0C => doCmp e w s
  | 0x0D => doJob e w s
  | 0x0E => doIo e w s
  | 0x0F => doIo e w s
  | 0x10 => doXfer e w s
  | 0x11 => doWait e w s
  | 0x12 => doBr e w s
  | 0x13 => doCall e w s
  | 0x14 => doRet e s
  | 0x15 => doDbnz e w s
  | 0x16 => doCommit e s
  | 0x17 => doEnd e s
  | 0x18 => doFail e w s
  | 0x19 => doRes e w s
  | 0x1A => doEvt e w s
  | 0x1B => doHalt e s
  | _ => unitFault e 2 s

/-- The opcode of a word. -/
def opIs (k : Nat) (w : MWord) : Bool := mwOp w = k

/-- NOP (R179): eft `e` executes it where its next microword is one. -/
def execNop (e : Fin 12) (o : CsRead) (s : State) : Res := s.whenLive fun s => runWord e o (opIs 0x00) (fun _ => goOn e) s
/-- LDI (R179). -/
def execLdi (e : Fin 12) (o : CsRead) (s : State) : Res := s.whenLive fun s => runWord e o (opIs 0x01) (doLdi e) s
/-- LDH (R179). -/
def execLdh (e : Fin 12) (o : CsRead) (s : State) : Res := s.whenLive fun s => runWord e o (opIs 0x02) (doLdh e) s
/-- ADDI (R179). -/
def execAddi (e : Fin 12) (o : CsRead) (s : State) : Res := s.whenLive fun s => runWord e o (opIs 0x03) (doAddi e) s
/-- MOV (R179). -/
def execMov (e : Fin 12) (o : CsRead) (s : State) : Res := s.whenLive fun s => runWord e o (opIs 0x04) (doMov e) s
/-- ADD (R179). -/
def execAdd (e : Fin 12) (o : CsRead) (s : State) : Res := s.whenLive fun s => runWord e o (opIs 0x05) (doAlu (· + ·) carryOut e) s
/-- SUB (R179). -/
def execSub (e : Fin 12) (o : CsRead) (s : State) : Res := s.whenLive fun s => runWord e o (opIs 0x06) (doAlu (· - ·) borrow e) s
/-- AND (R179). -/
def execAnd (e : Fin 12) (o : CsRead) (s : State) : Res :=
  s.whenLive fun s => runWord e o (opIs 0x07) (doAlu (· &&& ·) (fun _ _ => false) e) s
/-- OR (R179). -/
def execOr (e : Fin 12) (o : CsRead) (s : State) : Res :=
  s.whenLive fun s => runWord e o (opIs 0x08) (doAlu (· ||| ·) (fun _ _ => false) e) s
/-- XOR (R179). -/
def execXor (e : Fin 12) (o : CsRead) (s : State) : Res :=
  s.whenLive fun s => runWord e o (opIs 0x09) (doAlu (· ^^^ ·) (fun _ _ => false) e) s
/-- SHL (R179). -/
def execShl (e : Fin 12) (o : CsRead) (s : State) : Res := s.whenLive fun s => runWord e o (opIs 0x0A) (doShl e) s
/-- SHR (R179). -/
def execShr (e : Fin 12) (o : CsRead) (s : State) : Res := s.whenLive fun s => runWord e o (opIs 0x0B) (doShr e) s
/-- CMP (R179). -/
def execCmp (e : Fin 12) (o : CsRead) (s : State) : Res := s.whenLive fun s => runWord e o (opIs 0x0C) (doCmp e) s
/-- JOB (R179). -/
def execJob (e : Fin 12) (o : CsRead) (s : State) : Res := s.whenLive fun s => runWord e o (opIs 0x0D) (doJob e) s
/-- XFER (R179, R182). -/
def execXfer (e : Fin 12) (o : CsRead) (s : State) : Res := s.whenLive fun s => runWord e o (opIs 0x10) (doXfer e) s
/-- WAIT (R179, R182). -/
def execWait (e : Fin 12) (o : CsRead) (s : State) : Res := s.whenLive fun s => runWord e o (opIs 0x11) (doWait e) s
/-- BR (R180). -/
def execBr (e : Fin 12) (o : CsRead) (s : State) : Res := s.whenLive fun s => runWord e o (opIs 0x12) (doBr e) s
/-- CALL (R179). -/
def execCall (e : Fin 12) (o : CsRead) (s : State) : Res := s.whenLive fun s => runWord e o (opIs 0x13) (doCall e) s
/-- RET (R179). -/
def execRet (e : Fin 12) (o : CsRead) (s : State) : Res := s.whenLive fun s => runWord e o (opIs 0x14) (fun _ => doRet e) s
/-- DBNZ (R179). -/
def execDbnz (e : Fin 12) (o : CsRead) (s : State) : Res := s.whenLive fun s => runWord e o (opIs 0x15) (doDbnz e) s
/-- COMMIT (R187). -/
def execCommit (e : Fin 12) (o : CsRead) (s : State) : Res := s.whenLive fun s => runWord e o (opIs 0x16) (fun _ => doCommit e) s
/-- END (R184, R187). -/
def execEndUnit (e : Fin 12) (o : CsRead) (s : State) : Res := s.whenLive fun s => runWord e o (opIs 0x17) (fun _ => doEnd e) s
/-- FAIL (R184, R191). -/
def execFail (e : Fin 12) (o : CsRead) (s : State) : Res := s.whenLive fun s => runWord e o (opIs 0x18) (doFail e) s
/-- RES (R184). -/
def execRes (e : Fin 12) (o : CsRead) (s : State) : Res := s.whenLive fun s => runWord e o (opIs 0x19) (doRes e) s
/-- EVT (R179). -/
def execEvt (e : Fin 12) (o : CsRead) (s : State) : Res := s.whenLive fun s => runWord e o (opIs 0x1A) (doEvt e) s
/-- HALT (R179, R197). -/
def execHalt (e : Fin 12) (o : CsRead) (s : State) : Res := s.whenLive fun s => runWord e o (opIs 0x1B) (fun _ => doHalt e) s

/-- TIME_US (R181): an IN or OUT of port 0x00. -/
def execTimeUs (e : Fin 12) (o : CsRead) (s : State) : Res := s.whenLive fun s => runPort e o 0x00 (portTimeUs e) s
/-- UNIT_RESTARTS (R181). -/
def execUnitRestarts (e : Fin 12) (o : CsRead) (s : State) : Res := s.whenLive fun s => runPort e o 0x01 (portUnitRestarts e) s
/-- TOKEN (R176). -/
def execToken (e : Fin 12) (o : CsRead) (s : State) : Res := s.whenLive fun s => runPort e o 0x10 (portToken e) s
/-- CMD (R212). -/
def execCmd (e : Fin 12) (o : CsRead) (s : State) : Res := s.whenLive fun s => runPort e o 0x20 (portCmd e) s
/-- ADDR (R212). -/
def execAddr (e : Fin 12) (o : CsRead) (s : State) : Res := s.whenLive fun s => runPort e o 0x21 (portAddr e) s
/-- APPLY (R212). -/
def execApply (e : Fin 12) (o : CsRead) (s : State) : Res := s.whenLive fun s => runPort e o 0x22 (portApply e) s
/-- STATUS (R212). -/
def execStatus (e : Fin 12) (o : CsRead) (s : State) : Res := s.whenLive fun s => runPort e o 0x23 (portStatus e) s
/-- DECODE (R212). -/
def execDecode (e : Fin 12) (o : CsRead) (s : State) : Res := s.whenLive fun s => runPort e o 0x24 (portDecode e) s
/-- SYNDROME (R212). -/
def execSyndrome (e : Fin 12) (o : CsRead) (s : State) : Res := s.whenLive fun s => runPort e o 0x25 (portSyndrome e) s
/-- YIELD (R212, R213). -/
def execYield (e : Fin 12) (o : CsRead) (s : State) : Res := s.whenLive fun s => runPort e o 0x30 (portYield e) s
/-- CONFIRM (R212). -/
def execConfirm (e : Fin 12) (o : CsRead) (s : State) : Res := s.whenLive fun s => runPort e o 0x90 (portConfirm e) s
/-- SUSPEND (R212, R216). -/
def execSuspend (e : Fin 12) (o : CsRead) (s : State) : Res := s.whenLive fun s => runPort e o 0x91 (portSuspend e) s
/-- RESUME (R212, R217). -/
def execResume (e : Fin 12) (o : CsRead) (s : State) : Res := s.whenLive fun s => runPort e o 0x92 (portResume e) s
/-- RESET (R212). -/
def execReset (e : Fin 12) (o : CsRead) (s : State) : Res := s.whenLive fun s => runPort e o 0x93 (portReset e) s
/-- FEATURE_DATA (R212). -/
def execFeatureData (e : Fin 12) (o : CsRead) (s : State) : Res := s.whenLive fun s => runPort e o 0x94 (portFeatureData e) s
/-- WHEAD (R300). -/
def execWhead (e : Fin 12) (o : CsRead) (s : State) : Res := s.whenLive fun s => runPort e o 0x40 (portWhead e) s
/-- WSECT (R300). -/
def execWsect (e : Fin 12) (o : CsRead) (s : State) : Res := s.whenLive fun s => runPort e o 0x41 (portWsect e) s
/-- WPARITY (R300). -/
def execWparity (e : Fin 12) (o : CsRead) (s : State) : Res := s.whenLive fun s => runPort e o 0x42 (portWparity e) s
/-- WSTAT (R300). -/
def execWstat (e : Fin 12) (o : CsRead) (s : State) : Res := s.whenLive fun s => runPort e o 0x43 (portWstat e) s
/-- WEND (R300). -/
def execWend (e : Fin 12) (o : CsRead) (s : State) : Res := s.whenLive fun s => runPort e o 0x44 (portWend e) s
/-- ARM (R300). -/
def execArm (e : Fin 12) (o : CsRead) (s : State) : Res := s.whenLive fun s => runPort e o 0xC0 (portArm e) s
/-- RHEAD (R333). -/
def execRhead (e : Fin 12) (o : CsRead) (s : State) : Res := s.whenLive fun s => runPort e o 0x50 (portRhead e) s
/-- RSECT (R333). -/
def execRsect (e : Fin 12) (o : CsRead) (s : State) : Res := s.whenLive fun s => runPort e o 0x51 (portRsect e) s
/-- RARM (R312). -/
def execRarm (e : Fin 12) (o : CsRead) (s : State) : Res := s.whenLive fun s => runPort e o 0x52 (portRarm e) s
/-- RSTAT (R333). -/
def execRstat (e : Fin 12) (o : CsRead) (s : State) : Res := s.whenLive fun s => runPort e o 0x53 (portRstat e) s
/-- RERASED (R333). -/
def execRerased (e : Fin 12) (o : CsRead) (s : State) : Res := s.whenLive fun s => runPort e o 0x54 (portRerased e) s
/-- REND (R333). -/
def execRend (e : Fin 12) (o : CsRead) (s : State) : Res := s.whenLive fun s => runPort e o 0x55 (portRend e) s
/-- SYNC (R348). -/
def execSync (e : Fin 12) (o : CsRead) (s : State) : Res := s.whenLive fun s => runPort e o 0x56 (portSync e) s
/-- SSLOT (R348). -/
def execSslot (e : Fin 12) (o : CsRead) (s : State) : Res := s.whenLive fun s => runPort e o 0x57 (portSslot e) s
/-- SPIN (R345). -/
def execSpin (e : Fin 12) (o : CsRead) (s : State) : Res := s.whenLive fun s => runPort e o 0x58 (portSpin e) s
/-- OREDET (R347). -/
def execOredet (e : Fin 12) (o : CsRead) (s : State) : Res := s.whenLive fun s => runPort e o 0x59 (portOredet e) s
/-- OSTAT (R348). -/
def execOstat (e : Fin 12) (o : CsRead) (s : State) : Res := s.whenLive fun s => runPort e o 0x5A (portOstat e) s
/-- OCSTART (R348). -/
def execOcstart (e : Fin 12) (o : CsRead) (s : State) : Res := s.whenLive fun s => runPort e o 0x5B (portOcstart e) s
/-- OCSTAT (R348). -/
def execOcstat (e : Fin 12) (o : CsRead) (s : State) : Res := s.whenLive fun s => runPort e o 0x5C (portOcstat e) s
/-- OCSOLVE (R354). -/
def execOcsolve (e : Fin 12) (o : CsRead) (s : State) : Res := s.whenLive fun s => runPort e o 0x5D (portOcsolve e) s
/-- SVSTAT (R384). -/
def execSvstat (e : Fin 12) (o : CsRead) (s : State) : Res := s.whenLive fun s => runPort e o 0x60 (portSvstat e) s
/-- RETARGET (R376). -/
def execRetarget (e : Fin 12) (o : CsRead) (s : State) : Res := s.whenLive fun s => runPort e o 0x61 (portRetarget e) s
/-- ROFFSET (R384). -/
def execRoffset (e : Fin 12) (o : CsRead) (s : State) : Res := s.whenLive fun s => runPort e o 0x62 (portRoffset e) s
/-- RAMP_OFF (R385). -/
def execRampOff (e : Fin 12) (o : CsRead) (s : State) : Res := s.whenLive fun s => runPort e o 0xD0 (portRampOff e) s
/-- RAMP_ON (R385). -/
def execRampOn (e : Fin 12) (o : CsRead) (s : State) : Res := s.whenLive fun s => runPort e o 0xD1 (portRampOn e) s

/-- Bytes taken from a datapath: those it holds, then free ones where it holds too few. -/
def takeBytes (n : Nat) (bs : List Byte) (s : State) : List Byte × State :=
  let (x, s) := s.drawBytes (n - bs.length)
  (bs.take n ++ x, s)

/-- Encode chunks of 4,096 bytes into the data register of the plane last addressed, from the codeword last addressed
on (R207 to R209). -/
def loadDie (e : Nat) (bs : List Byte) (s : State) : State :=
  let (b, c, d) := jobOf s e
  let l := lun s c d
  let block := if stgPlanes b = 0 then stgBlock b else planeBlock s c (stgBlock b) l.plane
  let per := 4096 + parityBytes s c
  let raw := (List.range ((bs.length + 4095) / 4096)).flatMap fun i =>
    let x := fit 4096 ((bs.drop (i * 4096)).take 4096)
    randomise s c (stgCe b) (stgLun b) block (stgPage b) (l.cw + i) (ldpcWord s c x)
  let old := fit (l.cw * per) ((l.data.lookup l.plane).getD [])
  modLun c d (fun l => { l with data := (l.plane, old ++ raw) :: l.data.filter fun p => p.1 ≠ l.plane }) s

/-- Data of codeword `t` that the DECODEs of the job in an eft left (R207), free where none decoded it. -/
def jobWord (e t : Nat) (s : State) : List Byte × State :=
  match (s.eft e).unit.bind fun u => (jobSets s (e - 4) u.job.sq u.job.first).findSome? fun k => k.words.lookup t with
  | some d => (d, s)
  | none => s.drawBytes 4096

/-- Bytes of a job's codewords from number `t` on. -/
def jobWords (e t : Nat) : Nat → State → List Byte × State
  | 0, s => ([], s)
  | n + 1, s =>
    let (d, s) := jobWord e t s
    let (r, s) := jobWords e (t + 1) n s
    (d ++ r, s)

/-- What an XFER of an STG eft takes to offset `a` of BUF: the answer of a die, or the decoded data, whose codewords stand in
BUF in ascending order (R207). -/
def stgAnswer (e a n : Nat) (s : State) : List Byte × State :=
  let (b, c, d) := jobOf s e
  if eOp b = 5 || eOp b = 7 then takeBytes n (((lun s c d).data.lookup 0).getD [] |>.drop a) s
  else
    let (w, s) := jobWords e (a / 4096) ((a % 4096 + n + 4095) / 4096) s
    ((w.drop (a % 4096)).take n, s)

/-- The bytes of a transfer move (R182): a MEDx write fills its FIFO and a read empties the channel's output; an STG
transfer loads the die's data register, or empties the decoded data or the die's answer. -/
def moveXfer (e : Nat) (x : Xfer) (s : State) : State :=
  let f := eftFunc e
  if x.dir then
    if e < 4 then
      let (bs, s) := takeBytes x.len (med s (e / 2)).rc.out s
      writeOr f x.addr bs (eftAccessFail e)
        (fun s => wakeEft e 1 (modEft e (fun y => { y with xfer := none })
          (modRc (e / 2) (fun r => { r with out := r.out.drop x.len }) s))) s
    else
      let (bs, s) := stgAnswer e (x.addr - entBuf (eftEntry s e)) x.len s
      writeOr f x.addr bs (eftAccessFail e) (fun s => wakeEft e 1 (modEft e (fun y => { y with xfer := none }) s)) s
  else
    readOr f x.addr x.len (eftAccessFail e) (fun bs s =>
      let s := if e < 4 then modWr (e / 2) (fun w => { w with fifo := w.fifo ++ bs }) s else loadDie e bs s
      wakeEft e 1 (modEft e (fun y => { y with xfer := none }) s)) s

/-- XFER_DONE (R182): the running transfer of an eft ends. A held eft's does not. -/
def execXferDone (e : Fin 12) (s : State) : Res :=
  s.whenLive fun s =>
    let x := s.eft e
    match x.xfer with
    | some t => if x.st = .running || x.st = .debugHalt then moveXfer e t s else s
    | none => s

/-- WAIT_TIMEOUT (R182): a WAIT reaches its timeout; one without a timeout never does. -/
def execWaitTimeout (e : Fin 12) (s : State) : Res :=
  s.whenLive fun s =>
    match (s.eft e).wait with
    | .event _ t => if t ≠ 0 && ((s.eft e).st = .running || (s.eft e).st = .debugHalt) then endWait e true s else s
    | _ => s

/-- The job ready on ring `q` may preempt a unit of eft `e` (R185): a good job, wholly below P on an ACTIVE unstalled STG ring
of strictly higher PRIO, for the same LUN. -/
def preemptsUnit (s : State) (e q : Nat) (u : EftUnit) : Bool :=
  !u.committed && sqFunc s q = 4 && sqClass s q = 0 && sqPrio s u.job.sq < sqPrio s q
    && (match goodJob s q with
        | some (b :: _) => stgCh b = e - 4 && jobDie s b = jobDie s u.job.entry
        | _ => false)

/-- A unit is preempted (R185, R190, R215): its restart waits for the end of the next job of ring `q`; where it has
restarted RESTART_MAX times already the job ends. -/
def preemptUnit (e q : Nat) (s : State) : State :=
  match (s.eft e).unit with
  | none => s
  | some u =>
    if restartMax s e ≤ u.restarts then abandonUnit e 1 s
    else
      let s := (latchCause e 1 u s).bump (Reg.EFT_RESTARTS e)
      let s := modEft e (fun x => { x with preempted := x.preempted ++ [⟨u.restart, q, sqF s q⟩] }) s
      freeEft e s

/-- A parked unit is preempted: it is taken out of its context slot (R215). -/
def preemptParked (e q : Nat) (k : Parked) (s : State) : State :=
  let drop (s : State) : State := modEft e (fun x => { x with parked := x.parked.erase k }) s
  let u := k.unit
  let s := latchCause e 1 u s
  if restartMax s e ≤ u.restarts then
    let (r, s) := stgOutcome u.job.entry ⟨4, u.saved0, u.saved1, u.saved2, engineDetail 1 1 u.pc⟩ 0 (eftAttn e 0 (drop s))
    match r with
    | .ok _ => finishJob u.job.sq u.job.first ⟨4, u.saved0, u.saved1, u.saved2, engineDetail 1 1 u.pc⟩ s
    | r => failAccess u.job.sq u.job.first r s
  else
    modEft e (fun x => { x with preempted := x.preempted ++ [⟨u.restart, q, sqF s q⟩] })
      ((drop s).bump (Reg.EFT_RESTARTS e))

/-- UNIT_ABANDON (R181, R185, R188, R190, R215): a request of the MEDx datapath, a preemption on an STG eft, or a
microword that cannot execute: an undefined opcode, or an IN or OUT that gets no answer or names no port. -/
def execUnitAbandon (e : Fin 12) (k : AbandonKind) (s : State) : Res :=
  s.whenLive fun s =>
    let x := s.eft e
    match k with
    | .request => if e.val < 4 && (x.st = .running || x.st = .debugHalt) then abandonRequest e s else s
    | .preemption q =>
      if e.val < 4 || !s.rb (Reg.EFT_CTRL e) 3 then s
      else if (x.st = .running || x.st = .debugHalt) && x.unit.any (preemptsUnit s e q) then preemptUnit e q s
      else
        match x.parked.find? fun p => preemptsUnit s e q p.unit with
        | some p => preemptParked e q p s
        | none => s
    | .fault o =>
      runWord e o (fun w => 0x1C ≤ mwOp w || mwOp w = 0x0E || mwOp w = 0x0F)
        (fun w s => if 0x1C ≤ mwOp w then unitFault e 2 s else unitFault e 4 s) s

/-- The preempting job has ended, or can no longer start. -/
def preemptorEnded (s : State) (p : Preempted) : Bool :=
  (match findJob s p.bySq p.byFirst with
    | some j => j.done.isSome
    | none => true) && (sqF s p.bySq ≠ p.byFirst || sqState s p.bySq ≠ 1)

/-- UNIT_RESTART (R185): the preempting job has ended, and the abandoned unit restarts from its entry; its block records are
checked again (R225). No unit restarts while the channel is retrained (R202). -/
def execUnitRestart (e : Fin 12) (s : State) : Res :=
  s.whenLive fun s =>
    let x := s.eft e
    if x.st = .idle && x.unit.isNone && !calActive s 4 then
      match x.preempted.find? (preemptorEnded s) with
      | some p =>
        stgAdmit (e - 4) <| enterUnit e 0 <| dropSets e p.unit.job.sq p.unit.job.first
          (modEft e (fun x => { x with st := .running, unit := some p.unit, xfer := none, wait := .none,
                                       preempted := x.preempted.erase p }) s)
      | none => s
    else s

/-- EFT_WATCHDOG (R190): the unit has run for EFT_WDOG µs since its last watchdog abandon. -/
def execEftWatchdog (e : Fin 12) (s : State) : Res :=
  s.whenLive fun s =>
    let x := s.eft e
    let entered := match x.wait with
      | .enter _ => false
      | _ => true
    if (x.st = .running || x.st = .debugHalt) && entered then unitFault e 7 s else s

/-- BREAKPOINT_HALT (R197): the eft halts before the word at EFT_BREAK.ADDR. -/
def execBreakpointHalt (e : Fin 12) (s : State) : Res :=
  s.whenLive fun s =>
    if eftReady s e .running && atBreak s e then eftAttn e 5 (modEft e (fun x => { x with st := .debugHalt }) s) else s

/-- LOAD_ERR is set: EFT_ATTN.LOAD_ERR follows where it was 0 (R194). -/
def loadErr (e : Nat) (s : State) : State :=
  if (s.eft e).loadErr then s else eftAttn e 4 (modEft e (fun x => { x with loadErr := true }) s)

/-- LOAD_START (R194): START is written by Crucible. -/
def execLoadStart (e : Fin 12) (s : State) : Res :=
  s.whenLive fun s =>
    let x := s.eft e
    if x.st = .stopped || x.st = .loading || (x.st = .idle && x.parked.isEmpty && x.preempted.isEmpty) then
      modEft e (fun x => { x with st := .loading, valid := false, cs := [], loadAddr := 0, loadErr := false }) s
    else loadErr e s

/-- CS_DATA_WRITE (R194): Crucible writes one microword; a write at ADDR 8,192 sets LOAD_ERR. Outside a load nothing is
written. -/
def execCsDataWrite (e : Fin 12) (v : BitVec 32) (s : State) : Res :=
  s.whenLive fun s =>
    let x := s.eft e
    if x.st = .loading then
      if x.loadAddr < 8192 then
        modEft e (fun x => { x with cs := Sparse.set (fun _ => 0) x.cs x.loadAddr (v.setWidth 24),
                                    loadAddr := x.loadAddr + 1 }) s
      else loadErr e s
    else s

/-- CRC-32C of the words loaded, as little-endian 32-bit values in address order (R194). -/
def csCrc (x : Eft) : Word :=
  crc32c ((List.range x.loadAddr).flatMap fun a => leBytes 4 (Sparse.get (fun _ => (0 : BitVec 24)) x.cs a).toNat)

/-- LOAD_FINISH (R194): FINISH is written by Crucible; the CRC decides. -/
def execLoadFinish (e : Fin 12) (s : State) : Res :=
  s.whenLive fun s =>
    let x := s.eft e
    if x.st = .loading then
      if csCrc x = s.reg (Reg.EFT_LOAD_CRC e) then
        modEft e (fun x => { x with valid := true, st := if s.rb (Reg.EFT_CTRL e) 0 then .idle else .stopped }) s
      else loadErr e (modEft e (fun x => { x with st := .stopped }) s)
    else s

/-- EFT_RUN (R197): RUN is written. A valid eft leaves STOPPED; an eft between jobs stops. -/
def execEftRun (e : Fin 12) (b : Bool) (s : State) : Res :=
  s.whenLive fun s =>
    let s := s.setRb (Reg.EFT_CTRL e) 0 b
    let x := s.eft e
    if b then
      if x.st = .stopped && x.valid then modEft e (fun x => { x with st := .idle }) s else s
    else if x.st = .idle then modEft e (fun x => { x with st := restState s e }) s
    else s

/-- EFT_STEP (R197): in DEBUG_HALT, with DEBUG_EN 1, one microword executes and the eft halts again. -/
def execEftStep (e : Fin 12) (o : CsRead) (s : State) : Res :=
  s.whenLive fun s =>
    if s.rb (Reg.EFT_CTRL e) 1 && eftReady s e .debugHalt then
      let s := fetchDo e o (doWord e) (modEft e (fun x => { x with st := .running }) s)
      modEft e (fun x => if x.st = .running then { x with st := .debugHalt } else x) s
    else s

/-- EFT_RESUME (R197): DEBUG_HALT is left; the word at the break address executes. -/
def execEftResume (e : Fin 12) (s : State) : Res :=
  s.whenLive fun s =>
    if (s.eft e).st = .debugHalt then modEft e (fun x => { x with st := .running, passBreak := true }) s else s

/-- One codeword of a DECODE (R211, R212, R219, R468): upsets of the words of its LDPC buffer are counted, its syndrome weight, whether its first read looked erased, and its data
where it decodes. -/
def decodeOne (c : Nat) (k : Decoding) (t : Nat) (o : CwObs) (s : State) : State :=
  let b := k.entry
  let d := jobDie s b
  let block := (jobBlocks s b).getD (t / cwPerPage s c) 0
  let raw := ((lun s c d).data.lookup (block % 2 ^ planeBits s c)).getD []
  let upd (f : DecSet → DecSet) (s : State) : State :=
    modChan c (fun x => { x with sets := x.sets.map fun y => if y.set = k.set && y.sq = k.sq && y.first = k.first then f y else y }) s
  let note (y : DecSet) : DecSet :=
    { y with syndromes := (if y.syndromes.isEmpty then List.replicate 32 0 else y.syndromes).set t o.weight,
             erased := if !nbit y.seen t && looksErased s o then y.erased ||| 2 ^ t else y.erased,
             seen := y.seen ||| 2 ^ t }
  let s := (bufferUpsets 8 4 o.upsets s).2
  if cwDecodes (iterMax s k.mode) o then
    let (data, s) :=
      if nandHas s c d block (stgPage b) then
        (cwData s c (stgCe b) (stgLun b) block (stgPage b) (t % cwPerPage s c) raw, s)
      else s.drawBytes 4096
    upd (fun y => { note y with words := (t, data) :: y.words.filter fun w => w.1 ≠ t,
                                failing := y.failing &&& (2 ^ 32 - 1 - 2 ^ t) })
      ((s.bump (Reg.CH_CW_OK c)).bump (Reg.CH_CORR_BITS c) o.bits)
  else upd (fun y => { note y with failing := y.failing ||| 2 ^ t }) s

/-- Every codeword of the job's first read looked erased (R211). -/
def allErased (s : State) (c : Nat) (k : Decoding) : Bool :=
  let own := jobSets s c k.sq k.first
  eOp k.entry = 1 && (List.range (entLen k.entry / 4096)).all fun t => own.any fun y => nbit y.erased t

/-- DECODE_DONE (R211, R212, R219, R220): the decode of channel `c` ends; `obs` lists the codewords in its buffer set with
what their decoding shows. A hard decode of codewords read before counts a retry, a soft one counts as such, and the job's
first is advised of (R227); a first read that looks erased ends the job of an eft that is not HELD (R192). -/
def execDecodeDone (c : Fin 8) (obs : List (Fin 32 × CwObs)) (s : State) : Res :=
  s.whenLive fun s =>
    match (chan s c).decoding with
    | none => s
    | some k =>
      let own := jobSets s c k.sq k.first
      let again := obs.any fun o => own.any fun y => nbit y.seen o.1
      let s :=
        if k.mode ≠ 0 then
          let s := s.bump (Reg.CH_SOFT c)
          if own.any (·.soft) then s else advise 5 c (jobDie s k.entry) ((jobBlocks s k.entry).headD 0) s
        else if again then s.bump (Reg.CH_RETRIES c)
        else s
      let s := if k.mode = 0 then s else modChan c (fun x => { x with sets := x.sets.map fun y =>
        if y.sq = k.sq && y.first = k.first then { y with soft := true } else y }) s
      let s := obs.foldl (fun s o => decodeOne c k o.1 o.2 s) s
      let s := wakeEft (4 + c) 16 (modChan c (fun x => { x with decoding := none, decoded := true }) s)
      let mine := (s.eft (4 + c)).unit.any fun u => u.job.sq = k.sq && u.job.first = k.first
      if mine && allErased s c k && (s.eft (4 + c)).st ≠ .held then
        let n := entLen k.entry / 4096
        stgEnd c 0 8 0 0 0 (0x8001 + maskOf (List.range n) * 2 ^ 32) (s.bump (Reg.CH_CW_FAIL c) n)
      else s

end Sys2Proof.Machine
end

