-- ==== Sys2Proof/Machine/EvcOps.lean ====
section
/-!
DEFINITION. Machine/EvcOps.lean: the recorder path (R534 to R543) as shared operations: the bytes of a record, the
recorder region, draining, clearing and what the windows show.
-/

namespace Sys2Proof.Machine

open Sys2Proof

/-- Change the event controller. -/
def modEvc (f : Evc → Evc) (s : State) : State := { s with evc := f s.evc }

/-- A record as its 32 bytes (Table "Record"). -/
def recordBytes (r : Rec) : List Byte :=
  let b := leBytes 8 (r.time % 2 ^ 63 + b2n r.unsync * 2 ^ 63) ++ leBytes 4 r.seq ++ leBytes 2 r.code
    ++ [BitVec.ofNat 8 (r.func + r.sev * 16), BitVec.ofNat 8 r.supp] ++ fit 12 r.payload
  b ++ leBytes 4 (crc32c b).toNat

/-- First offset of the recorder region (R478). -/
def recBase : Nat := 0x3A00000

/-- EVC_REGION.WP (R539). -/
def recWp (s : State) : Nat := s.rf Reg.EVC_REGION 15 0

/-- The recorder region fails at a page (R543): the fault word is set, unless it is already, and REC_MEDIA_FAULT is
raised. -/
def recFaultSet (page : Nat) (s : State) : State :=
  if s.ramOnly then s
  else
    let s := { s with mu := { s.mu with trip3 := tripNat (1 + page % 4096 * 256) } }
    raiseWith 38 0 (some (leBytes 2 (page % 4096))) s

/-- Remove the oldest pending record. -/
def recPop (s : State) : State := modEvc (fun e => { e with buf := e.buf.drop 1 }) s

/-- The write pointer moves past a record; at its end the region is full and REC_FULL is raised (R539). -/
def recAdvance (s : State) : State :=
  let wp := recWp s + 1
  let s := s.setRf Reg.EVC_REGION 15 0 wp
  if wp = 32768 then raise 39 (modEvc (fun e => { e with full := true }) s) else s

/-- Program pending records at the write pointer, in order, each before it is popped (R539); `f` counts the calls left
before one that does not verify. -/
def recDrain : Nat → Option Nat → State → State
  | 0, _, s => s
  | fuel + 1, f, s =>
    match s.evc.buf with
    | [] => s
    | r :: _ =>
      if s.ramOnly || 32768 ≤ recWp s then s
      else
        match cfDo 1 (recBase + recWp s * 32) (recordBytes r) (f ≠ some 0) s with
        | (0, s) => recDrain fuel (f.map (· - 1)) (recAdvance (recPop s))
        | (_, s) => recFaultSet (recWp s / 8) s

/-- Crucible drains every pending record. -/
def drainAll (f : Option Nat) (s : State) : State := recDrain 256 f s

/-- Slot `i` of the region. -/
def recSlot (s : State) (i : Nat) : List Byte := s.flash (recBase + i * 32) 32

/-- The CRC of a record holds (R534). -/
def recCrcOk (b : List Byte) : Bool := (crc32c (b.take 28)).toNat = field b 28 4

/-- The kept records, oldest first: the region's slots, then the buffer's (R541). -/
def keptRecords (s : State) : List (List Byte) :=
  (List.range (recWp s)).map (recSlot s) ++ s.evc.buf.map recordBytes

/-- Up to `n` kept records from the oldest whose SEQ is at least a value (R541). -/
def recordsFrom (s : State) (seq n : Nat) : List (List Byte) :=
  ((keptRecords s).dropWhile fun b => !(recCrcOk b && seq ≤ field b 8 4)).take n

/-- Erase the recorder region: the status of the first erase that fails, else 0. -/
def recErase : Nat → Option Nat → State → Nat × State
  | 0, _, s => (0, s)
  | k + 1, f, s =>
    let (st, s) := cfDo 3 (recBase + (15 - k) * 65536) [] (f ≠ some 0) s
    let (rest, s) := recErase k (f.map (· - 1)) s
    (if st = 0 then rest else st, s)

/-- Clear the recorder (R542, R543): drain, erase, WP 0, FULL falls, and the fault word with it where every erase was
OK; the ring of RAM-only mode is drained last. -/
def recClear (f : Option Nat) (s : State) : State :=
  let ram := s.ramOnly
  let s := if ram then s else drainAll none s
  let (st, s) := recErase 16 f s
  let s := modEvc (fun e => { e with full := false }) (s.setRf Reg.EVC_REGION 15 0 0)
  let s := if st = 0 then { s with mu := { s.mu with trip3 := Trip.zero } } else s
  if ram && st = 0 then drainAll none s else s

/-- Boot finds the write pointer and resumes SEQ after the highest valid record (R536, R539). -/
def recResume (s : State) : State :=
  let used := (List.range 32768).filter fun i => recSlot s i ≠ List.replicate 32 0xFF
  let wp := used.foldl (fun _ i => i + 1) 0
  let top := used.foldl (fun m i =>
    let b := recSlot s i
    if recCrcOk b then max m (field b 8 4 + 1) else m) s.evc.nextSeq
  modEvc (fun e => { e with nextSeq := top % 2 ^ 32, full := wp = 32768 }) (s.setRf Reg.EVC_REGION 15 0 wp)

/-- EVC_STATUS (Table "Event-controller registers"). -/
def evcStatus (s : State) : Word :=
  BitVec.ofNat 32 (s.evc.buf.length % 512 + b2n s.evc.full * 2 ^ 12 + b2n s.ramOnly * 2 ^ 13 + b2n s.frozen * 2 ^ 14
    + b2n (!s.evc.unsync) * 2 ^ 15)

/-- The holders of the freeze (R540). -/
def setFreeze (sb on : Bool) (s : State) : State :=
  if sb then modEvc (fun e => { e with frozenSb := on }) s
  else modEvc (fun e => { e with frozenSvc := on }) (s.setRb Reg.EVC_CTRL 1 on)

/-- Load window `v` from a SEQ on (R541). -/
def loadWindow (v seq : Nat) (s : State) : State :=
  let rs := recordsFrom s seq 8
  let s := s.resetRegs fun a => Reg.EVC_WIN_REC v 0 0 ≤ a && a < Reg.EVC_WIN_REC v 8 0
  let s := s.setReg (Reg.EVC_WIN_CURSOR v) (BitVec.ofNat 32 seq)
  let s := s.setReg (Reg.EVC_WIN_STATUS v) (BitVec.ofNat 32 rs.length)
  let s := s.setReg (Reg.EVC_WIN_FIRST v) (BitVec.ofNat 32 (field (rs.headD []) 8 4))
  rs.zipIdx.foldl (fun s (b, r) =>
    (List.range 8).foldl (fun s w => s.setReg (Reg.EVC_WIN_REC v r w) (BitVec.ofNat 32 (field b (4 * w) 4))) s) s

/-- The clock is loaded (R535): TIME_SET carries the previous time. A time of 2^63 or more is taken modulo 2^63 (DESIGN
CHOICE, log entry 51). -/
def setClock (t : Nat) (s : State) : State :=
  let old := leBytes 8 (s.evc.timeMs % 2 ^ 63 + b2n s.evc.unsync * 2 ^ 63)
  raiseWith 41 0 (some old) (modEvc (fun e => { e with timeMs := t % 2 ^ 63, unsync := false }) s)

end Sys2Proof.Machine
end

