-- ==== Sys2Proof/Machine/FeatOps.lean ====
section
/-!
DEFINITION. Machine/FeatOps.lean: the Stepata features and what the Standard Service image applies of them (R96, R429,
R437).
-/

namespace Sys2Proof.Machine

open Sys2Proof

/-- Lowest and highest value of a feature (Table "Stepata features"); none for an unknown one. -/
def featureRange (f : Nat) : Option (Nat × Nat) :=
  match f with
  | 1 => some (1, 65535)
  | 2 => some (6000, 40000)
  | 3 => some (0, 2)
  | 4 => some (0, 1)
  | 5 => some (0, 3)
  | 6 => some (10, 95)
  | 7 => some (0, 16383)
  | 8 => some (5400, 7200)
  | _ => none

/-- A value suits a feature. -/
def featureOk (f v : Nat) : Bool :=
  match featureRange f with
  | some (lo, hi) => lo ≤ v && v ≤ hi && (f ≠ 8 || v = 5400 || v = 7200)
  | none => false

/-- Value in effect and saved value of feature `f`, 1 to 8. -/
def feature (s : State) (f : Nat) : Nat := s.svc.feats.getD (f - 1) 0
def savedFeature (s : State) (f : Nat) : Nat := s.svc.saved.getD (f - 1) 0

/-- Offset of HLIM and LIMIT of an operating profile, in 1/16 degree (Table "Operating profiles"). -/
def profileOffset (p : Nat) : Int :=
  match p with
  | 0 => 0
  | 1 => -80
  | _ => -240

/-- BA_CAP from POWER_CAP and the profile (R429, R437). -/
def applyCap (s : State) : State :=
  let c := feature s 2
  s.setRf Reg.BA_CAP 15 0 (if feature s 3 = 2 then c * 80 / 100 else c)

/-- Add to the high (`hi`) or low half of a register that holds a signed 16-bit temperature. -/
def addTemp (a : Nat) (hi : Bool) (d : Int) (s : State) : State :=
  let lo := if hi then 16 else 0
  s.setRf a (lo + 15) lo (unsigned 16 (s.rs a (lo + 15) lo + d))

/-- Apply an operating profile where `old` was in effect before (R437). -/
def applyProfile (old : Option Nat) (s : State) : State :=
  let p := feature s 3
  let d : Int := profileOffset p - ((old.map profileOffset).getD 0)
  let w : List Nat :=
    match p with
    | 0 => [4, 4, 2, 3]
    | 1 => [3, 3, 2, 2]
    | _ => [2, 2, 1, 1]
  let s := w.zipIdx.foldl (fun s (v, k) => s.setRf (Reg.BA_FUNC (2 + k)) 7 0 v) s
  let s := s.setRf Reg.BA_SCHED_CFG 15 0 (match p with
    | 0 => 200
    | 1 => 100
    | _ => 50)
  let s := s.setRb Reg.BA_CTRL 2 (p = 2)
  let s := (List.range 24).foldl (fun s k => addTemp (Reg.BA_HEAD (k / 12) (k % 12)) false d s) s
  applyCap ((List.range 23).foldl (fun s k => addTemp (Reg.TH_LIMIT k) true d s) s)

/-- What takes effect when feature `f` changes from `old` (R96, R388, R429, R437): the cap, the profile, tandem following, and
the spindle's set point where the spindle turns under PS0. -/
def applyFeature (f old : Nat) (s : State) : State :=
  match f with
  | 2 => applyCap s
  | 3 => applyProfile (some old) s
  | 4 => s.setRb (Reg.MED_SV_TANDEM 1) 31 (feature s 4 = 1)
  | 8 => if s.svc.ps = 0 && spdTarget s ≠ 0 then speedCommand (feature s 8) s else s
  | _ => s

end Sys2Proof.Machine
end

