-- ==== Sys2Proof/Machine/NetBase.lean ====
section
/-!
DEFINITION. Machine/NetBase.lean: accessors of NET, and its links going up and down (R37, R56).
-/

namespace Sys2Proof.Machine

open Sys2Proof

/-- Change NET. -/
def modNet (f : Net → Net) (s : State) : State := { s with net := f s.net }

/-- Raise bit `k` of NET_EVENT_STATUS (R65). -/
def netEvent (k : Nat) (s : State) : State := raise k s

/-- A port. -/
def port (s : State) (p : Nat) : Port := if p = 0 then s.net.port0 else s.net.port1

/-- Change a port. -/
def modPort (p : Nat) (f : Port → Port) (s : State) : State :=
  modNet (fun n => if p = 0 then { n with port0 := f n.port0 } else { n with port1 := f n.port1 }) s

/-- A link goes up or down: the event where it changes (R56, R65). -/
def setLink (p : Nat) (up : Bool) (s : State) : State :=
  if (port s p).up = up then modPort p (fun x => { x with training := x.training && !up, neg := x.neg && !up }) s
  else netEvent p (modPort p (fun x => { x with up := up, training := !up && x.training, neg := !up && x.neg }) s)

/-- Both links lose VSD (R548). -/
def linksDown (s : State) : State := setLink 1 false (setLink 0 false s)

end Sys2Proof.Machine
end

