-- ==== Sys2Proof/Machine/PwrOps.lean ====
section
/-!
DEFINITION. Machine/PwrOps.lean: shared operations of the power die: power loss and hold-up (R413, R415), rail faults
(R552), the release of a reset (R558, R560) and the slow-input filter (R565 to R568).
-/

namespace Sys2Proof.Machine

open Sys2Proof

/-- Change the supplies, resets and pins. -/
def modPwr (f : Pwr → Pwr) (s : State) : State := { s with pwr := f s.pwr }

/-- Both inputs are above their thresholds (R412, R549). -/
def inputsGood (s : State) : Bool := s.pwr.vin12Good && s.pwr.vin5Good

/-- Bits of PG without rail `k`. -/
def pgWithout (pg k : Nat) : Nat := if nbit pg k then pg - 2 ^ k else pg

/-- The power-up is complete. -/
def isUp (s : State) : Bool :=
  match s.pwr.powerUp with
  | .up => true
  | _ => false

/-- The latest that the service image writes DONE in hold-up (R416): at once where the spindle turns below 600 rpm at the loss,
else 100 ms after it. -/
def doneDue (s : State) : Nat := s.timeUs + if s.mot.act.natAbs < 600 * 16 then 0 else 100000

/-- A power loss (R413): input isolated, both actuators park and the gates fall, flags and events, HOLDUP; VSD is turned
off with both links (R548), and the code flash's operation is abandoned (R488). -/
def powerLoss (s : State) : State :=
  if s.pwr.holdup then s
  else if !isUp s then
    modPwr (fun p => { p with isoOn := false, powerUp := .off, vmGood := false, pg := p.pg % 2 }) s
  else
    let s := modPwr (fun p => { p with isoOn := false, holdup := true, doneBy := doneDue s, pg := pgWithout p.pg 6 }) s
    let s := parkAll s
    let s := { s with stg := { s.stg with pwrLoss := true } }
    let s := modMot (fun m => { m with pwrLoss := true, dip := false, speedRef := 0, integ := 0, iqRef := 0,
                                       chopOn := false, starting := false }) s
    let s := motEvent 8 (enterSpin .holdup s)
    linksDown (cfAbandon s)

/-- Hold-up ends (R415, R553): the logic die is held, the spindle coasts, the rails fall, and a boot is due. -/
def holdupEnd (s : State) : State :=
  if s.pwr.holdup then
    let s := beginReset .cold 1 (modMot (fun m => { m with bootDue := true }) s)
    modPwr (fun p => { p with holdup := false, powerUp := .off, vmGood := false, pg := p.pg % 2 }) s
  else s

/-- A rail of order `k` fails (R552); VSD's fault is an error of NET. -/
def railFault (k : Nat) (s : State) : State :=
  if k = 6 && isUp s then
    hwError 0 0 [] (linksDown (modPwr (fun p => { p with pg := pgWithout p.pg 6 }) s))
  else
    let s := beginReset .cold 4 (if isUp s then parkAll s else s)
    modPwr (fun p => { p with powerUp := .railFault k, railCause := k, pg := p.pg % 2 }) s

/-- A reset is released (R558, R560): PWR_CAUSE is written. A cold reset after VAON was lost is a power-on one, which
leaves every register of the power die at its reset value, PWR_CAUSE's among them. -/
def releaseReset (s : State) : State :=
  match s.pwr.inReset with
  | none => s
  | some (k, c) =>
    let s := modPwr (fun p => { p with inReset := none }) s
    if k = .cold && s.pwr.aonLost then
      modPwr (fun p => { p with aonLost := false }) (resetState .cold true false true s)
    else
      let rail := if c = 4 then s.pwr.railCause else 0
      s.setReg Reg.PWR_CAUSE (BitVec.ofNat 32 (c + k.rank * 2 ^ 4 + rail * 2 ^ 8))

/-- Filtered input `n`. -/
def sif (s : State) (n : Nat) : Sif :=
  match n with
  | 0 => s.pwr.sif0
  | 1 => s.pwr.sif1
  | 2 => s.pwr.sif2
  | 3 => s.pwr.sif3
  | 4 => s.pwr.sif4
  | 5 => s.pwr.sif5
  | 6 => s.pwr.sif6
  | _ => s.pwr.sif7

/-- Change a filtered input. -/
def modSif (n : Nat) (f : Sif → Sif) (s : State) : State :=
  modPwr (fun p =>
    match n with
    | 0 => { p with sif0 := f p.sif0 }
    | 1 => { p with sif1 := f p.sif1 }
    | 2 => { p with sif2 := f p.sif2 }
    | 3 => { p with sif3 := f p.sif3 }
    | 4 => { p with sif4 := f p.sif4 }
    | 5 => { p with sif5 := f p.sif5 }
    | 6 => { p with sif6 := f p.sif6 }
    | _ => { p with sif7 := f p.sif7 }) s

/-- An input is declared faulty (R566, R567). -/
def sifFaulty (s : State) (n : Nat) : Bool := s.rb Reg.SIF_FAULT n || s.rb Reg.SIF_FAULT (8 + n)

/-- The active level of an input with one: WAKE high, the others low. -/
def sifActive (n : Nat) : Bool := n = 5

/-- PRESENT_N is negated (R555): the power-loss sequence starts where PRES_PL is 1. -/
def removal (s : State) : State :=
  if s.rb Reg.PWR_CTRL 0 then powerLoss (s.setRb Reg.PWR_LATCH 1 true) else s

/-- What a change of a filtered output does (R555, R569, R570); the Halls and the preamp fault lines act through commands
of their own. -/
def sifChanged (n : Nat) (level : Bool) (s : State) : State :=
  match n, level with
  | 3, true => removal s
  | 4, false => parkAll s
  | 5, true => s.setRb Reg.PWR_LATCH 0 true
  | _, _ => s

/-- An output takes a level. -/
def setOut (n : Nat) (level : Bool) (s : State) : State :=
  if (sif s n).out = level then s else sifChanged n level (modSif n (fun x => { x with out := level }) s)

/-- An input is declared faulty with CHATTER (bit `n`) or STUCK (bit 8 + `n`): its output takes the substitute. -/
def sifFail (n b : Nat) (s : State) : State :=
  let s := modSif n (fun x => { x with rearming := false }) (s.setRb Reg.SIF_FAULT b true)
  match n with
  | 3 => modSif 3 (fun x => { x with out := false }) s
  | 4 => modSif 4 (fun x => { x with out := true }) s
  | 5 => modSif 5 (fun x => { x with out := false }) s
  | 6 => modWr 0 (fun w => { w with fltSubst := true }) (modSif 6 (fun x => { x with out := true }) s)
  | 7 => modWr 1 (fun w => { w with fltSubst := true }) (modSif 7 (fun x => { x with out := true }) s)
  | _ => hallFault false s

/-- A re-armed input's level has held for MINW (R568): the output follows the pin again. -/
def sifFollow (n : Nat) (level : Bool) (s : State) : State :=
  let s := modSif n (fun x => { x with rearming := false }) s
  let s := if n = 6 || n = 7 then modWr (n - 6) (fun w => { w with fltSubst := false }) s else s
  setOut n level s

/-- A level has held for MINW at input `n` (R565, R566). -/
def sifLevel (n : Nat) (level : Bool) (s : State) : State :=
  let s := modSif n (fun x => { x with raw := level }) s
  let x := sif s n
  if sifFaulty s n then s
  else if x.rearming then sifFollow n level s
  else if x.out = level then s
  else if orOne (fld x.cfgA 23 16) < x.count + 1 then sifFail n n (modSif n (fun x => { x with count := x.count + 1 }) s)
  else setOut n level (modSif n (fun x => { x with count := x.count + 1 }) s)

/-- A window of an input ends (R566, R572): its written configuration takes effect, and a count above the new MAXT
declares it faulty. -/
def sifWindow (n : Nat) (s : State) : State :=
  let s := modSif n (fun x => { x with cfgA := s.reg (Reg.SIF_CFG_A n), cfgB := s.reg (Reg.SIF_CFG_B n) }) s
  let x := sif s n
  let s := if orOne (fld x.cfgA 23 16) < x.count && !sifFaulty s n then sifFail n n s else s
  modSif n (fun x => { x with count := 0 }) s

/-- An input is re-armed (R568). -/
def sifRearm (n : Nat) (s : State) : State :=
  let was := sifFaulty s n
  let s := (s.setRb Reg.SIF_FAULT n false).setRb Reg.SIF_FAULT (8 + n) false
  modSif n (fun x => { x with count := 0, rearming := was || x.rearming }) s

end Sys2Proof.Machine
end

