-- ==== Sys2Proof/Machine/Ladder.lean ====
section
/-!
DEFINITION. Machine/Ladder.lean: the steps of the recovery ladder, their worst-case costs, and how they spend a budget (R129,
R130, R353).
-/

namespace Sys2Proof.Machine

open Sys2Proof

/-- Revolution period in µs at the present speed (R353). -/
def revUs (s : State) : Nat := if s.mot.act = 0 then 2 ^ 40 else 60000000 * 16 / s.mot.act.natAbs

/-- The attempts of L2 and L3 in order: the step, the read offset and the cost (Table "Ladder steps"). -/
def ladPlan (s : State) (x : Nat) : List (Nat × Int × Nat) :=
  let w := Reg.MED_SR_LADDER x
  let t := revUs s
  let pct := clampN 1 25 (s.rf w 27 20)
  let off (j : Nat) : Int := ((j * pct * 4096 / 100 : Nat) : Int)
  List.replicate (s.rf w 15 12) (2, 0, t + 130)
    ++ (List.range (min 4 (s.rf w 19 16))).flatMap fun j => [(3, off (j + 1), 2 * t + 130), (3, -off (j + 1), 2 * t + 130)]

/-- The attempts of the whole ladder of a sector: step and cost; L1 and L4 only where they have something to do. -/
def svcLadder (s : State) (x : Nat) (l : LadderObs) : List (Nat × Nat) :=
  (if s.rb (Reg.MED_SR_CTRL x) 0 && l.l1 then [(1, 130)] else [])
    ++ (ladPlan s x).map (fun p => (p.1, p.2.2))
    ++ (if s.rb (Reg.MED_SR_CTRL x) 1 && l.group then [(4, 2 * revUs s + 130)] else [])

/-- How a ladder ends: with the sector, by a step; without it; or at an attempt that does not fit the budget. -/
inductive LadderEnd where
  | back (step : Nat) | lost | spent
  deriving DecidableEq, Repr

/-- A ladder under what is left of a budget, µs, and what it leaves (R130): an attempt starts only where its cost fits. An
attempt of which nothing is said takes its cost and returns the sector or not as `d` says. -/
def ladder (d : Bool) : List (Nat × Nat) → List (Nat × Bool) → Nat → LadderEnd × Nat
  | [], _, left => (.lost, left)
  | (k, cost) :: p, os, left =>
    if left < cost then (.spent, left)
    else
      let (us, ok) := os.headD (cost, d)
      if ok then (.back k, left - min us cost) else ladder d p os.tail (left - min us cost)

end Sys2Proof.Machine
end

