-- ==== Sys2Proof/Machine/SvcCheck.lean ====
section
/-!
DEFINITION. Machine/SvcCheck.lean: capsules (R72 to R75, R85) and the checks that the service image makes of each one
(R83).
-/

namespace Sys2Proof.Machine

open Sys2Proof

/-! Fields of a capsule (Table "Capsule header"). -/

def capAdmin (c : List Byte) : Bool := (byteAt c 1).getLsbD 0
def capInline (c : List Byte) : Bool := (byteAt c 1).getLsbD 1
def capTag (c : List Byte) : Nat := field c 2 2
def capMajor (c : List Byte) : Nat := field c 4 1
def capKeyLen (c : List Byte) : Nat := field c 6 2 % 512
def capBufKey (c : List Byte) : Nat := field c 12 4
def capBufAddr (c : List Byte) : Nat := field c 16 8
def capBufLen (c : List Byte) : Nat := field c 24 8
def capOffset (c : List Byte) : Nat := field c 32 8
def capLength (c : List Byte) : Nat := field c 40 8

/-- Command-specific word `n`. -/
def cdw (c : List Byte) (n : Nat) : Nat := field c (48 + 4 * n) 4

/-- IF_GENERATION (R80, R85). -/
def capIfGen (c : List Byte) : Nat := field c 56 8

/-- First byte after the padded key. -/
def capKeyEnd (c : List Byte) : Nat := 64 + (capKeyLen c + 7) / 8 * 8

/-- The key. -/
def capKey (c : List Byte) : List Byte := (c.drop 64).take (capKeyLen c)

/-- The inline data. -/
def capData (c : List Byte) : List Byte := c.drop (capKeyEnd c)

/-- Length that R73 asks of a capsule. -/
def capNeed (c : List Byte) : Nat := capKeyEnd c + if capInline c then capBufLen c else 0

/-- A capsule as NET places one, at least 64 bytes long (R61), with an opcode. -/
def capOf (op : Nat) (cap : List Byte) : List Byte := fit (max 64 cap.length) (BitVec.ofNat 8 op :: cap.drop 1)

/-! Opcodes (Table "Stepata opcodes"). -/

/-- An opcode is defined for a major (R84). -/
def opDefined (major op : Nat) : Bool :=
  decide (op ∈ [0x01, 0x02, 0x03, 0x10, 0x11, 0x12, 0x13, 0x14, 0x15, 0x20, 0x21, 0x22, 0x30, 0x31, 0x32, 0x40, 0x41, 0x42,
    0x50, 0x60, 0x61, 0x62, 0x63, 0x64, 0x65, 0x70, 0x71, 0x72]) && (major ≠ 2 || (op ≠ 0x12 && op ≠ 0x42))

/-- A key length suits an opcode (R78, R85, R105). -/
def keyLenOk (op n : Nat) : Bool :=
  if op ∈ [0x10, 0x11, 0x12, 0x13, 0x14, 0x50] then 1 ≤ n && n ≤ 256
  else if op = 0x15 then n ≤ 256
  else if op = 0x62 then n = 32
  else n = 0

/-- Opcodes that use OFFSET, and LENGTH (Table "Command-specific fields"). -/
def usesOffset (op : Nat) : Bool := decide (op ∈ [0x11, 0x12, 0x15, 0x40, 0x60, 0x63, 0x64, 0x70])
def usesLength (op : Nat) : Bool := decide (op ∈ [0x10, 0x11, 0x12, 0x40, 0x50, 0x60, 0x61, 0x64, 0x65, 0x70])

/-- Bits of CDW0 to CDW3 that an opcode uses (Table "Command-specific fields"). -/
def cdwMasks (op : Nat) : List Nat :=
  let all := 2 ^ 32 - 1
  match op with
  | 0x01 => [0xFFFF, 0x3FFF0003, 0, 0]
  | 0x10 => [0xFF073F, 0, all, all]
  | 0x12 => [0, 0, all, all]
  | 0x13 => [0, 0, all, all]
  | 0x15 => [0xFFFF, 0, 0, 0]
  | 0x20 => [1, 0, 0, 0]
  | 0x30 => [0xFFFF, 0, 0, 0]
  | 0x31 => [0x8000FFFF, all, 0, 0]
  | 0x32 => [7, 0, 0, 0]
  | 0x40 => [0x103, 0x3F, 0, 0]
  | 0x41 => [0x101, 0, 0, 0]
  | 0x42 => [0xFFFF, 0, 0, 0]
  | 0x50 => [0x3F3FFFFF, 0x3F, 0, 0]
  | 0x60 => [0x103, 0, 0, 0]
  | 0x61 => [0x3F03, 0, 0, 0]
  | 0x64 => [1, 0, 0, 0]
  | 0x70 => [0x3FFF, 0, 0, 0]
  | 0x71 => [0x3FFF, all, 0, 0]
  | 0x72 => [0xFFFF, 0x3FFF, 0, 0]
  | _ => [0, 0, 0, 0]

/-- Byte offsets of the RSV and unused fields that are not 0 (R74). -/
def rsvFaults (c : List Byte) : List (Bool × Nat) :=
  let op := capOp c
  let head : List (Bool × Nat) :=
    [(4 ≤ (byteAt c 1).toNat, 1), (512 ≤ field c 6 2, 6), (field c 10 2 ≠ 0, 10),
     (capOffset c ≠ 0 && !usesOffset op, 32), (capLength c ≠ 0 && !usesLength op, 40)]
  head ++ (cdwMasks op).zipIdx.map fun (m, k) => (decide (cdw c k &&& (2 ^ 32 - 1 - m) ≠ 0), 48 + 4 * k)

/-- Faults of INLINE (R75, R84). -/
def inlineFaults (major : Nat) (c : List Byte) : List (Bool × Nat) :=
  if !capInline c then []
  else
    let get : Bool := capOp c = 0x11
    [(!(decide (capOp c ∈ [0x10, 0x11, 0x12]) && major = 3), 1), (capBufKey c ≠ 0, 12), (capBufAddr c ≠ 0, 16),
     (get && capBufLen c ≠ 0, 24), (get && !(1 ≤ capLength c && capLength c ≤ 448), 40)]

/-- Most bytes that FW_STAGE may reach (R98). -/
def stageLimit (c : List Byte) : Nat :=
  match cdw c 0 % 4 with
  | 0 => 24 * 2 ^ 20 - 4096
  | 1 => 2 ^ 20 - 4096
  | _ => 4 * 2 ^ 20 - cdw c 1 % 64 * 65536

/-- A staging that a chunk continues is in progress (R98). -/
def stagingOpen (s : State) (c : List Byte) : Bool :=
  s.cru.staging.any fun g => g.target = cdw c 0 % 4 && (g.target ≠ 2 || g.place = cdw c 1 % 64)

/-- Faults of the values of an opcode's fields, with their byte offsets (R85 to R108). A chunk whose OFFSET is not 0 while no
staging is open has a fault of OFFSET (DESIGN CHOICE, log entry 51). -/
def valueFaults (s : State) (q : Nat) (c : List Byte) : List (Bool × Nat) :=
  let len := capLength c
  let off := capOffset c
  let w := cdw c 0
  let other (qp at_ : Nat) : List (Bool × Nat) := [(qp ≠ q && !capAdmin c, at_)]
  let buf : Bool × Nat := (capBufLen c ≠ len, 24)
  match capOp c with
  | 0x01 => [(2 ≤ cdw c 1 % 4, 52)]
  | 0x03 => [(capBufLen c < 4096, 24)]
  | 0x10 => [buf]
  | 0x12 => [buf]
  | 0x15 => [(!(1 ≤ w % 65536 && w % 65536 ≤ 4096), 48)]
  | 0x30 => [((featureRange (w % 65536)).isNone, 48)]
  | 0x31 => [((featureRange (w % 65536)).isNone, 48),
             ((featureRange (w % 65536)).isSome && !featureOk (w % 65536) (cdw c 1), 52)]
  | 0x32 => [(4 ≤ w % 8, 48)]
  | 0x40 =>
    [buf, (off % 4096 ≠ 0 || (off ≠ 0 && !stagingOpen s c), 32),
     ((len % 4096 ≠ 0 && !nbit w 8) || stageLimit c < off + len, 40), (w % 4 = 3, 48),
     (w % 4 < 2 && cdw c 1 % 64 ≠ 0, 52)]
  | 0x41 => [(w % 2 = 1 && !nbit w 8, 48)]
  | 0x50 =>
    let k := w % 256
    let m := w / 256 % 256
    let n := w / 2 ^ 24 % 64
    [buf, (len ≠ n * 32, 40),
     (k = 0 || m = 0 || 16 < m || 64 < k + m || k + m ≤ w / 65536 % 64 || n < k || k + m - 1 < n, 48),
     (cdw c 1 % 64 = 0 || k < cdw c 1 % 64, 52)]
  | 0x60 =>
    let scope := w % 4
    [(scope < 2 && off ≠ 0, 32), (scope = 2 && s.rf Reg.ZONE_COUNT 19 0 < off + len, 32),
     (scope < 2 && len ≠ 0, 40), (scope = 2 && len = 0, 40), (scope = 3, 48)]
  | 0x61 => [(w % 4 = 0, 48)]
  | 0x62 => [(capBufLen c < 8192, 24)]
  | 0x63 => [(off < 1577836800000, 32)]
  | 0x70 => other (w % 16384) 48
  | 0x71 => other (w % 16384) 48
  | 0x72 => other (cdw c 1 % 16384) 52
  | _ => []

/-- The range rule of R79 is broken. -/
def rangeBad (c : List Byte) : Bool :=
  match capOp c with
  | 0x10 => 2 ^ 36 < capLength c
  | 0x11 => 2 ^ 36 < capOffset c + capLength c
  | 0x12 => 2 ^ 36 < capOffset c + capLength c
  | _ => false

/-- Lowest of a list of numbers. -/
def least (l : List Nat) : Option Nat :=
  l.foldl (fun acc v =>
    match acc with
    | some m => some (min m v)
    | none => some v) none

/-- Check 8 of R83: status and DETAIL. -/
def fieldCheck (s : State) (q major : Nat) (c : List Byte) : Option (Nat × Nat) :=
  let bad := (rsvFaults c ++ inlineFaults major c ++ valueFaults s q c).filterMap fun x => if x.1 then some x.2 else none
  match least bad with
  | some at_ => some (0x102, at_)
  | none =>
    if !keyLenOk (capOp c) (capKeyLen c) then some (0x108, 6)
    else if rangeBad c then some (0x203, 0)
    else none

/-- FW_STAGE, FW_ACTIVATE, SCRUB and SANITIZE (R109). -/
def exclusive (op : Nat) : Bool := decide (op ∈ [0x40, 0x41, 0x60, 0x61])

/-- Check 9 of R83, with the checked commands outstanding: the lowest status that applies. FW_STAGE staging is in progress
while an FW_STAGE command is outstanding, not between the chunks of an image; and a second FW_ACTIVATE is not BUSY, so that
ACTIVATION_PENDING of R99 can answer it (R109 leaves both open: DESIGN CHOICE, log entry 51). -/
def stateCheck (s : State) (out : List Cmd) (c : List Byte) : Option Nat :=
  let op := capOp c
  let others : Bool := out.any fun x => exclusive (capOp x.cap) && !(op = 0x41 && capOp x.cap = 0x41)
  let busy : Bool := (exclusive op && others)
    || (op = 0x50 && 64 ≤ (out.filter fun x => capOp x.cap = 0x50).length)
  let sanit : Bool := op ≠ 0x03 && op ≠ 0x70 && out.any fun x => capOp x.cap = 0x61
  let lc : Bool := (0x10 ≤ op && op ≤ 0x15 && s.lcState = 3) || (op = 0x40 && cdw c 0 % 4 = 2 && s.lcState ≠ 1)
  if busy then some 0x404 else if sanit then some 0x502 else if lc then some 0x604 else none

/-- The record of a queue pair's connection. -/
def conn (s : State) (q : Nat) : Option Conn := s.svc.conns.find? fun k => k.qp = q

/-- Negotiated major, 0 where unconnected. -/
def connMajor (s : State) (q : Nat) : Nat := ((conn s q).map (·.major)).getD 0

/-- ERR_SEQ of the error that froze a queue pair. -/
def frozenBy (s : State) (q : Nat) : Option Nat := (conn s q).bind (·.frozen)

/-- The checks of R83 on a command, with the commands placed before it and still outstanding: status and DETAIL of the
first that fails. Commands that run on after their queue pair left RTS hold no tag and count to no limit: the tags of a
reconnected queue pair are free (R132; DEDUCED, log entry 39). -/
def capCheck (s : State) (earlier : List Cmd) (x : Cmd) : Option (Nat × Nat) :=
  let c := x.cap
  let op := capOp c
  let major := connMajor s x.qp
  let earlier := earlier.filter fun y => !y.mute
  let mine := earlier.filter fun y => y.qp = x.qp
  let connect : Bool := op = 0x01
  let through : Bool := capAdmin c && decide (op ∈ [0x03, 0x70, 0x71, 0x72])
  if 512 < c.length || c.length ≠ capNeed c then some (0x103, 0)
  else if major = 0 && !connect then some (0x106, 0)
  else if !connect && capMajor c ≠ major then some (0x105, 0)
  else if !opDefined major op then some (0x101, 0)
  else if mine.any (fun y => capTag y.cap = capTag c) then some (0x104, 0)
  else if 256 ≤ mine.length then some (0x401, 0)
  else if 65536 ≤ earlier.length then some (0x402, 0)
  else if (frozenBy s x.qp).isSome && !through && !x.early then some (0x501, 0)
  else
    match fieldCheck s x.qp (if connect then 3 else major) c with
    | some r => some r
    | none => (stateCheck s (s.svc.cmds.filter fun y => y.checked) c).map fun st => (st, 0)

end Sys2Proof.Machine
end

