-- ==== Sys2Proof/Machine/StoreOps.lean ====
section
/-!
DEFINITION. Machine/StoreOps.lean: how the service image stores objects: media blocks and their tag (R276, R277), the
locator table (R278), the staging tier's regions and pages (R230 to R233, R253), the zones' live blocks and their reclaim
(R279), and the journal of zone states (R265).
-/

namespace Sys2Proof.Machine

open Sys2Proof

/-! Media blocks. -/

/-- The place of block `i` of an object. -/
def placeOf (o : Obj) (i : Nat) : BlkPlace := o.blocks.getD i ⟨none, 0, 0⟩

/-- Block `i` of an object as it stands at address `a` (Table "Media-block tag"). -/
def mediaBlock (o : Obj) (i a : Nat) : List Byte :=
  let p := (o.stream.drop (4096 * i)).take 4096
  let flags := b2n o.comp.isNone + b2n (i + 1 = o.count) * 2
  let b := fit 4096 p ++ leBytes 4 o.loc ++ leBytes 8 (placeOf o i).gen ++ leBytes 8 (4096 * i) ++ leBytes 2 p.length
    ++ leBytes 1 flags ++ leBytes 1 o.band ++ leBytes 2 (placeOf o i).epoch ++ leBytes 6 a ++ List.replicate 28 0
  b ++ leBytes 4 (crc32c b).toNat

/-- The check of a decrypted block: CRC, PBA, LOCATOR and GENERATION (R277). -/
def tagOk (o : Obj) (i a : Nat) (b : List Byte) : Bool :=
  b.length = 4160 && (crc32c (b.take 4156)).toNat = field b 4156 4 && field b 4122 6 = a && field b 4096 4 = o.loc
    && field b 4100 8 = (placeOf o i).gen

/-- A band has its key in XFM. -/
def bandUp (s : State) (b : Nat) : Bool := (s.xfm.keys.lookup b).isSome

/-- An extent address names a staging codeword (R278). -/
def isStaged (a : Nat) : Bool := 2 ^ 47 ≤ a

/-- Extent address of codeword `w` of a page of the NAND array, by its key: CH[42:40], DIE[39:37], BLOCK[36:24],
PAGE[23:8], CW[2:0] (R278). -/
def stageAddr (page w : Nat) : Nat := 2 ^ 47 + page * 2 ^ 8 + w

/-- Channel, die, block and page of a page's key. -/
def pageChan (k : Nat) : Nat := k / 2 ^ 32
def pageDie (k : Nat) : Nat := k / 2 ^ 29 % 8
def pageBlock (k : Nat) : Nat := k / 2 ^ 16 % 2 ^ 13
def pageNum (k : Nat) : Nat := k % 2 ^ 16

/-- Chip enable and LUN of a die of a channel (R203). -/
def dieCe (s : State) (c d : Nat) : Nat := ((List.range 8).filter (cePresent s c)).getD (d / lunsPerCe s c) 0
def dieLun (s : State) (c d : Nat) : Nat := d % lunsPerCe s c

/-- Blocks of 4,160 bytes that a page of a channel holds, back to back from its first codeword: the block in place `j`
begins in codeword `j` (DESIGN CHOICE, log entry 51). -/
def blksPerPage (s : State) (c : Nat) : Nat := cwPerPage s c * 4096 / 4160

/-- The data bytes of a page. -/
def pageBytes (s : State) (k : Nat) : List Byte :=
  let c := pageChan k
  let raw := nandPage s c (pageDie k) (pageBlock k) (pageNum k)
  (List.range (cwPerPage s c)).flatMap fun w =>
    cwData s c (dieCe s c (pageDie k)) (dieLun s c (pageDie k)) (pageBlock k) (pageNum k) w raw

/-- The staged block at an address, and its 4,160 bytes. -/
def stagedAt (s : State) (a : Nat) : Option (StagedBlk × List Byte) :=
  let k := (a - 2 ^ 47) / 2 ^ 8
  let j := a % 2 ^ 8
  ((s.svc.staged.find? fun p => p.page = k).bind fun p => p.blks[j]?).map fun b => (b, ((pageBytes s k).drop (j * 4160)).take 4160)

/-- A zone's entry, and its defects, as they stand in DRAM. -/
def zoneEnt (s : State) (z : Nat) : ZEnt := zDecode (s.bytes (zoneAddr s z) 24)
def zoneDefs (s : State) (e : ZEnt) : Defects :=
  let n := min (e.defIdx + e.defCount) (s.rf Reg.ZONE_DEF_SIZE 23 0) - e.defIdx
  decodeDefects (s.bytes (defAddr s e.defIdx) (n * 8)) n

/-- The 4,160 bytes that the medium holds at a physical block address: a data slot, below WP in a shingled zone. -/
def sectorAt (s : State) (a : Nat) : Option (List Byte) :=
  let e := zoneEnt s (a / 2 ^ 17)
  let slot := a % 2 ^ 17
  if e.kind = 0 || e.slots ≤ slot || (e.kind = 1 && (isParitySlot slot || e.wp ≤ slot)) then none
  else
    let p := slotPos e (zoneDefs s e) slot
    let spt := orOne e.spt
    let b := Sparse.get (fun _ => []) (med s e.act).disk (diskKey e.head (e.start + p / spt) (p % spt))
    if b.isEmpty then none else some (b.take 4160)

/-- Block `i` of an object as read at address `a` and decrypted: on the media under its address, on the staging tier under
2^63 plus its sequence number (R253). -/
def blockAt (s : State) (o : Obj) (a : Nat) : Option (List Byte) :=
  match s.xfm.keys.lookup o.band with
  | none => none
  | some key =>
    if isStaged a then (stagedAt s a).map fun b => xts false key (2 ^ 63 + b.1.seq) b.2
    else (sectorAt s a).map (xts false key a)

/-- The medium holds a block of an object at a physical block address, encrypted under that address (R253). -/
def onDisk (s : State) (o : Obj) (i a : Nat) : Bool :=
  (s.xfm.keys.lookup o.band).any fun key => sectorAt s a = some (xts true key a (mediaBlock o i a))

/-! Reads. -/

/-- The media-recovery budget of a command in µs (R129). -/
def budgetUs (s : State) (c : List Byte) : Nat := (if field c 8 2 = 0 then feature s 1 else field c 8 2) * 1000

/-- How the read of the sector at a media address ends: its status, the last step that returned it, and what is left of the
budget (R130, R277). `good`: the bytes on the medium pass the tag check. Where they do not, or `lad` says that the first read
fails, the ladder runs. Steps L1 to L3 return the bytes on the medium, which still fail where they are not good; L4 returns
the block that the outer code rebuilds, which is as it was written (DEDUCED, log entry 51). -/
def readSector (s : State) (a : Nat) (good : Bool) (lad : Option LadderObs) (left : Nat) : Nat × Nat × Nat :=
  let there : Bool := (sectorAt s a).isSome
  if lad.isNone && good && there then (0, 0, left)
  else
    let l := lad.getD ⟨false, false, []⟩
    let again : Bool := lad.isNone && there
    match ladder again (svcLadder s (zoneEnt s (a / 2 ^ 17)).act l) l.steps left with
    | (.spent, left) => (0x302, 0, left)
    | (.lost, left) => (if again then 0x306 else 0x301, 0, left)
    | (.back k, left) => (if k = 4 || (good && there) then 0 else if there then 0x306 else 0x301, k, left)

/-- How the read of a block ends, with what is left of the budget: the status and the function where it fails. A block of the
write buffer is at hand. -/
def readBlock (s : State) (recov : List BlockObs) (o : Obj) (i left : Nat) : Option (Nat × Nat) × Nat :=
  match (placeOf o i).addr with
  | none => (none, left)
  | some a =>
    let good : Bool := (blockAt s o a).any (tagOk o i a)
    if isStaged a then (if good then none else some (0x306, 4), left)
    else
      let (st, _, left) := readSector s a good ((recov.find? fun r => r.block = i).map (·.ladder)) left
      (if st = 0 then none else some (st, 2 + (zoneEnt s (a / 2 ^ 17)).act), left)

/-- The blocks of a list that fail: number, status and function. -/
def readBlocks (s : State) (recov : List BlockObs) (o : Obj) : List Nat → Nat → List (Nat × Nat × Nat)
  | [], _ => []
  | i :: t, left =>
    match readBlock s recov o i left with
    | (some e, left) => (i, e) :: readBlocks s recov o t left
    | (none, left) => readBlocks s recov o t left

/-- The blocks that a range of an object's bytes needs: all of a compressed stream, else those it overlaps. -/
def wanted (o : Obj) (off n : Nat) : List Nat :=
  if n = 0 then []
  else (List.range o.count).filter fun i => o.comp.isSome || (4096 * i < off + n && off < 4096 * (i + 1))

/-- The blocks that a WRITE of a range reads: all of a compressed object, else those it covers in part (R114, R129). -/
def partly (o : Obj) (off n : Nat) : List Nat :=
  (wanted o off n).filter fun i => o.comp.isSome || 4096 * i < off || off + n < min (4096 * (i + 1)) o.data.length

/-- First byte of an object that a lost block keeps from it: what the stream before it decompresses to, where it is
compressed (R131). -/
def lostFrom (o : Obj) (i : Nat) : Nat :=
  match o.comp with
  | none => 4096 * i
  | some c => (inflate (c.take (4096 * i)) o.data.length).1.length

/-- Physical block addresses of some of an object's blocks. -/
def mediaAddrs (o : Obj) (l : List Nat) : List Nat :=
  l.filterMap fun i => (placeOf o i).addr.bind fun a => if isStaged a then none else some a

/-! Every object the image knows. -/

/-- The objects that are visible, durable or on the way to it. -/
def allObjs (s : State) : List Obj :=
  s.svc.objs ++ s.svc.durable.filterMap (·.new) ++ s.svc.unacked.filterMap (·.new)

/-- Change every object the image knows. -/
def mapObjs (f : Obj → Obj) (s : State) : State :=
  modSvc (fun v => { v with objs := v.objs.map f, durable := v.durable.map fun d => { d with new := d.new.map f },
                            unacked := v.unacked.map fun u => { u with new := u.new.map f } }) s

/-- A block moves: each object that names its old address names the new one. -/
def moveBlock (old new : Nat) (s : State) : State :=
  mapObjs (fun o => { o with blocks := o.blocks.map fun p => if p.addr = some old then { p with addr := some new } else p }) s

/-- Blocks just staged get their addresses: those of the same object and generation that had none. -/
def placeBlocks (o : Obj) (ps : List (Nat × Nat)) (s : State) : State :=
  mapObjs (fun x => if x.loc ≠ o.loc then x else
    { x with blocks := x.blocks.mapIdx fun i p =>
        if p.addr.isNone && p.gen = (placeOf o i).gen then { p with addr := ps.lookup i } else p }) s

/-! The locator table. -/

/-- A locator index that no object has, one of the first of them: an index above 2,097,151 says that all are in use
(R278). -/
def freeLoc (s : State) : Nat :=
  let used := (allObjs s).map Obj.loc
  (((List.range (used.length + 1)).find? fun i => i + 1 ∉ used).getD used.length) + 1

/-- Last index of the table. -/
def maxLoc : Nat := 2097151

/-- Runs of consecutive addresses: first address and length. -/
def extents : List Nat → List (Nat × Nat)
  | [] => []
  | a :: t =>
    match extents t with
    | (b, n) :: r => if a + 1 = b then (a, n + 1) :: r else (a, 1) :: (b, n) :: r
    | [] => [(a, 1)]

/-- The extents of an object whose blocks all have addresses. -/
def objExtents (o : Obj) : List (Nat × Nat) := extents (o.blocks.filterMap (·.addr))

/-- The locator entry of an object (Table "Locator entry"). -/
def locatorEntry (s : State) (o : Obj) : List Byte :=
  let (list, ref) := Sparse.get (fun _ => (0, 0)) s.svc.locs o.loc
  let x := objExtents o
  let (a, n) := x.headD (0, 0)
  let staged := o.blocks.any fun p => p.addr.any isStaged
  let hot := s.svc.staged.any fun p => p.hot && p.blks.any fun b => b.loc = o.loc
  let flags := 1 + b2n o.comp.isNone * 2 + b2n staged * 4 + b2n hot * 8
  leBytes 8 o.gen ++ leBytes 8 o.data.length ++ leBytes 8 o.stream.length ++ leBytes 4 (crc32c o.key).toNat
    ++ leBytes 2 o.key.length ++ leBytes 1 o.band ++ leBytes 1 flags ++ leBytes 6 a ++ leBytes 4 n
    ++ leBytes 2 (max 1 x.length) ++ leBytes 4 0 ++ leBytes 8 list ++ leBytes 8 ref

/-- Extents 2 onward as EXT_LIST names them (Table "Locator entry"). -/
def extList (o : Obj) : List Byte :=
  (objExtents o).tail.flatMap fun (a, n) => leBytes 8 a ++ leBytes 4 n ++ leBytes 4 0

/-- An index comes into use: EXT_LIST and KEY_REF are DRAM addresses that the image chooses, free values (R278). -/
def newLoc (i : Nat) (s : State) : State :=
  let (bs, s) := s.drawBytes 16
  let a (k : Nat) : Nat := dramBase + field bs (8 * k) 8 % 2 ^ 34
  modSvc (fun v => { v with locs := Sparse.set (fun _ => (0, 0)) v.locs i (a 0, a 1) }) s

/-- The table, the extent lists and the key bytes in DRAM follow the object of an index (R278): its entry, or none. -/
def syncLoc (i : Nat) (s : State) : State :=
  match s.svc.locBase, s.svc.objs.find? fun o => o.loc = i with
  | some b, some o =>
    let (list, ref) := Sparse.get (fun _ => (0, 0)) s.svc.locs i
    ((s.setBytes (b + 64 * i) (locatorEntry s o)).setBytes list (extList o)).setBytes ref o.key
  | _, _ => clearLoc i s

def syncLocs (is : List Nat) (s : State) : State := is.foldl (fun s i => syncLoc i s) s

/-- The image lays out its locator table in DRAM, at an address that the spec leaves to it, a free value, and fills it. -/
def layOutLocs (s : State) : State :=
  let (bs, s) := s.drawBytes 8
  let s := modSvc (fun v => { v with locBase := some (dramBase + leNat bs % 2 ^ 28 * 64) }) s
  syncLocs (s.svc.objs.map (·.loc)) s

/-! Zones. -/

/-- The live-block count of a zone, in the first four of its SERVICE bytes (R279; the place is a DESIGN CHOICE, log
entry 51). -/
def liveCount (s : State) (z : Nat) : Nat := field (s.bytes (zoneAddr s z + 24) 4) 0 4

/-- Change a zone's live-block count. -/
def setLive (z : Nat) (f : Nat → Nat) (s : State) : State := s.setBytes (zoneAddr s z + 24) (leBytes 4 (f (liveCount s z)))

/-- Blocks at media addresses are live, or no longer (R279). -/
def addLive (as : List Nat) (s : State) : State := as.foldl (fun s a => setLive (a / 2 ^ 17) (· + 1) s) s
def dropLive (as : List Nat) (s : State) : State := as.foldl (fun s a => setLive (a / 2 ^ 17) (· - 1) s) s

/-- A destage record is journalled, and with it each change of STATE, WP and UCOUNT of any zone (R265). -/
def recordZones (s : State) : State :=
  let zs := (List.range (zoneCount s)).filter fun z => (zoneEnt s z).kind ≠ 0
  modSvc (fun v => { v with zjournal := zs.foldl (fun j z => Sparse.set (fun _ => []) j z (s.bytes (zoneAddr s z) 8)) v.zjournal }) s

/-- The zone table is restored from the journal, with the live-block counts that follow from the locators, once after each
boot (R265). -/
def restoreZones (s : State) : State :=
  if !s.svc.zdue then s
  else
    let live := (s.svc.objs.flatMap fun o => o.blocks.filterMap (·.addr)).filter fun a => !isStaged a
    let s := s.svc.zjournal.foldl (fun s (z, b) =>
      let j := zDecode (fit 24 b)
      let e := { zoneEnt s z with wp := j.wp, st := j.st, hold := false, ucount := j.ucount, ugroup := j.ugroup }
      setLive z (fun _ => (live.filter fun a => a / 2 ^ 17 = z).length) (s.setBytes (zoneAddr s z) (zHeadBytes e))) s
    modSvc (fun v => { v with zdue := false }) s

/-- The media can take data: a zone is writable or can be opened, or a conventional zone has a free slot (R233). -/
def mediaRoom (s : State) : Bool :=
  (List.range (zoneCount s)).any fun z =>
    let e := zoneEnt s z
    !zoneGone s z && ((e.kind = 1 && (e.state = 0 || ((e.state = 1 || e.state = 2) && e.wp < shSlots)))
      || (e.kind = 2 && e.state = 1 && liveCount s z < cvSlots))

/-! The staging tier. -/

/-- A channel can take pages. -/
def chanUp (s : State) (c : Nat) : Bool := (chan s c).ready && s.rb (Reg.CH_MODE c) 0

/-- Capacity of the tier in codewords of 4,096 bytes. -/
def tierWords (s : State) : Nat :=
  (List.range 8).foldl (fun n c =>
    if chanUp s c then n + dieCount s c * 2 ^ blockBits s c * 2 ^ pageBits s c * cwPerPage s c else n) 0

/-- The three regions (R230): the journal's takes 1 % or 4 GiB, the hot objects' up to 10 %, the staged writes' the rest. -/
def journalWords (s : State) : Nat := max (tierWords s / 100) (2 ^ 20)
def hotWords (s : State) : Nat := tierWords s / 10
def stageWords (s : State) : Nat := tierWords s - journalWords s - hotWords s

/-- Codewords that a region's pages take. -/
def heldWords (s : State) (hot : Bool) : Nat :=
  (s.svc.staged.filter fun p => p.hot = hot).foldl (fun n p => n + cwPerPage s (pageChan p.page)) 0

/-- The free block with the lowest ERASE_COUNT, by the key of its first page (R230): erased and not bad. -/
def freeBlock (s : State) : Option Nat :=
  let used := s.stg.nand.map fun e => e.1 / 2 ^ 16
  let all : List (Nat × Nat) := (List.range 8).flatMap fun c =>
    if chanUp s c then
      (List.range (dieCount s c)).flatMap fun d => (List.range (2 ^ blockBits s c)).filterMap fun b =>
        let r := s.bytes (recAddr s c d b) 32
        let k := (c * 8 + d) * 8192 + b
        if recBad r || k ∈ used then none else some (recErases r, k)
    else []
  (all.foldl (fun (acc : Option (Nat × Nat)) e =>
    match acc with
    | some b => if e.1 < b.1 then some e else acc
    | none => some e) none).map fun e => e.2 * 2 ^ 16

/-- The next page to program: of the block being filled, else of the free block taken next. -/
def takePage (s : State) : Option (Nat × State) :=
  let k := match s.svc.fill with
    | some k => if chanUp s (pageChan k) then some k else freeBlock s
    | none => freeBlock s
  k.map fun k =>
    (k, modSvc (fun v => { v with fill := if pageNum k + 1 < 2 ^ pageBits s (pageChan k) then some (k + 1) else none }) s)

/-- A page of the tier is programmed: the array holds its codewords, and its block's record counts it (R207, R226). -/
def programStaged (k : Nat) (data : List Byte) (s : State) : State :=
  let c := pageChan k
  let d := pageDie k
  let r := recAddr s c d (pageBlock k)
  let raw := pageRaw s c (dieCe s c d) (dieLun s c d) (pageBlock k) (pageNum k) data
  (nandProgram c d (pageBlock k) (pageNum k) raw s).setBytes r (recAfterProgram (s.bytes r 32))

/-- A staged block is erased, and its record counts it (R226). -/
def eraseStaged (k : Nat) (s : State) : State :=
  let r := recAddr s (pageChan k) (pageDie k) (pageBlock k)
  (nandErase (pageChan k) (pageDie k) (pageBlock k) s).setBytes r (recAfterErase (s.bytes r 32))

/-- Room for the pages of a region (R230). -/
def roomFor (s : State) (hot : Bool) (words : Nat) : Bool :=
  heldWords s hot + words ≤ if hot then hotWords s else stageWords s

/-- Stage blocks of an object: each page takes its blocks encrypted under sequence numbers drawn for them (R230, R253). The
addresses by block number, none where the region or the tier has no room. -/
def stageBlocks (o : Obj) (ack : Nat) (hot : Bool) :
    Nat → List Nat → State → Option (List (Nat × Nat) × State)
  | _, [], s => some ([], s)
  | 0, _, _ => none
  | n + 1, is, s =>
    match s.xfm.keys.lookup o.band, takePage s with
    | some key, some (k, t) =>
      let now := is.take (blksPerPage s (pageChan k))
      if now.isEmpty || !roomFor s hot (cwPerPage s (pageChan k)) then none
      else
        let seq := s.svc.stageSeq
        let data := now.zipIdx.flatMap fun (i, j) => xts true key (2 ^ 63 + seq + j) (mediaBlock o i (stageAddr k j))
        let p : Staged := ⟨k, ack, 0, hot, now.zipIdx.map fun (i, j) => ⟨o.loc, i, seq + j⟩⟩
        let t := modSvc (fun v => { v with staged := v.staged ++ [p], stageSeq := seq + now.length }) (programStaged k data t)
        (stageBlocks o ack hot n (is.drop now.length) t).map fun r =>
          ((now.zipIdx.map fun (i, j) => (i, stageAddr k j)) ++ r.1, r.2)
    | _, _ => none

/-- The object whose pages the hot region gives up first: the least recently read one (R230). -/
def coldest (s : State) : Option Nat :=
  let locs := (s.svc.staged.filter (·.hot)).filterMap fun p => p.blks.head?.map (·.loc)
  match locs.find? fun l => l ∉ s.svc.hot with
  | some l => some l
  | none => s.svc.hot.reverse.find? fun l => l ∈ locs

/-- The hot region makes room for `words` more: its least recently read objects are to be destaged (R230). -/
def makeHotRoom (words : Nat) : Nat → State → State
  | 0, s => s
  | n + 1, s =>
    if roomFor s true words then s
    else
      match coldest s with
      | none => s
      | some l => makeHotRoom words n (modSvc (fun v => { v with
          hot := v.hot.filter (· ≠ l),
          staged := v.staged.map fun p => if p.blks.any (fun b => b.loc = l) then { p with hot := false } else p }) s
        |> syncLoc l)

/-- An object is read: it is the most recently read one. -/
def touchHot (l : Nat) (s : State) : State := modSvc (fun v => { v with hot := l :: v.hot.filter (· ≠ l) }) s

/-- Most codewords that the pages of some blocks take: no page has more than eight. -/
def wordsFor (n : Nat) : Nat := 8 * n

/-- The data of an acknowledged change goes to the tier (R230): a whole object of at most 64 KiB to the hot region where
it fits there, other data to the staged writes. -/
def stageObj (o : Obj) (ack : Nat) (whole : Bool) (s : State) : Option State :=
  let is := (List.range o.count).filter fun i => (placeOf o i).addr.isNone
  let put (hot : Bool) (s : State) : Option State :=
    (stageBlocks o ack hot (is.length + 1) is s).map fun r => syncLoc o.loc (placeBlocks o r.1 r.2)
  if whole && o.data.length ≤ 65536 && wordsFor is.length ≤ hotWords s then
    put true (touchHot o.loc (makeHotRoom (wordsFor is.length) (s.svc.staged.length + 1) s))
  else put false s

/-- The staged pages that hold blocks of change `n`, whose generation is `gen`, stand for what `share` says of those blocks
(R122): also where a later change of the object was acknowledged first and staged them with its own. -/
def creditStaged (n gen : Nat) (share : List Nat → Nat) (s : State) : State :=
  match (s.svc.unacked.find? fun u => u.seq = n).bind (·.new) with
  | none => s
  | some o =>
    let mine (p : Staged) : List Nat := p.blks.zipIdx.filterMap fun (b, j) =>
      let at_ := placeOf o b.idx
      if b.loc = o.loc && at_.gen = gen && at_.addr = some (stageAddr p.page j) then some b.idx else none
    modSvc (fun v => { v with staged := v.staged.map fun p => { p with bytes := p.bytes + share (mine p) } }) s

/-! Destage. -/

/-- A command that demands destage (R231). -/
def demands (x : Cmd) : Bool := capOp x.cap = 0x21 || (capOp x.cap = 0x20 && (byteAt x.cap 48).getLsbD 0)

/-- A started command demands destage. -/
def demanded (s : State) : Bool := s.svc.cmds.any fun x => x.started && demands x

/-- The staged writes fill their region to DESTAGE_HIGH_WATER; or lie 10 points below it (R231). -/
def atHighWater (s : State) : Bool := feature s 6 * stageWords s ≤ 100 * heldWords s false
def atLowWater (s : State) : Bool := 100 * heldWords s false ≤ (feature s 6 - 10) * stageWords s

/-- Both actuators are idle between commands: no MEDx job runs, and no command reads the media (R96, R231). -/
def actsIdle (s : State) : Bool :=
  !(s.rings.jobs.any fun (j : Job) => (sqFunc s j.sq = 2 || sqFunc s j.sq = 3) && j.taken && j.done.isNone)
    && !(s.svc.cmds.any fun x => x.due.isSome)

/-- Destage runs (R231); no block is erased while the input power is lost (R234). -/
def mayDestage (s : State) : Bool := (s.svc.destaging || demanded s || actsIdle s) && !s.stg.pwrLoss

/-- The page to be destaged next: the oldest one, those of the hot region only on demand. -/
def nextPage (s : State) : Option Staged := if demanded s then s.svc.staged.head? else s.svc.staged.find? fun p => !p.hot

/-- The blocks of a page that an object still names: the object, the block's number, and its address. -/
def pageLive (s : State) (p : Staged) : List (Obj × Nat × Nat) :=
  p.blks.zipIdx.filterMap fun (b, j) =>
    let a := stageAddr p.page j
    ((allObjs s).find? fun o => o.loc = b.loc && (placeOf o b.idx).addr = some a).map fun o => (o, b.idx, a)

/-- The live blocks of a page lie on the medium at the addresses named, each encrypted under its own (R232, R253). -/
def pageOnDisk (s : State) (p : Staged) (pbas : List Nat) : Bool :=
  let l := pageLive s p
  l.length = pbas.length && (l.zip pbas).all fun (b, a) => onDisk s b.1 b.2.1 a

/-- A staged page is released (R232, R279): its locators move to the media, its zones are journalled, and its block is
erased once every page of it is released. -/
def releasePage (p : Staged) (pbas : List Nat) (s : State) : State :=
  let s := ((pageLive s p).zip pbas).foldl (fun s (b, a) => moveBlock b.2.2 a s) s
  let s := recordZones (addLive pbas s)
  let s := modSvc (fun v => { v with staged := v.staged.filter fun q => q.page ≠ p.page }) s
  let s := syncLocs (p.blks.map (·.loc)) s
  let blk := p.page / 2 ^ 16
  let s := if (s.svc.staged.any fun q => q.page / 2 ^ 16 = blk) || s.svc.fill.any (fun k => k / 2 ^ 16 = blk) then s
    else eraseStaged p.page s
  modSvc (fun v => { v with destaging := v.destaging && !atLowWater s }) s

/-- Indices of the objects with blocks at some addresses. -/
def locsAt (s : State) (as : List Nat) : List Nat :=
  (s.svc.objs.filter fun o => o.blocks.any fun p => p.addr.any (· ∈ as)).map (·.loc)

/-! Reclaim. -/

/-- The live blocks of a zone: object, block number and address. -/
def zoneLive (s : State) (z : Nat) : List (Obj × Nat × Nat) :=
  (allObjs s).flatMap fun o => o.blocks.zipIdx.filterMap fun (p, i) =>
    p.addr.bind fun a => if !isStaged a && a / 2 ^ 17 = z then some (o, i, a) else none

/-- A zone may be reclaimed (R279): FULL or CLOSED, with at most 16,384 live blocks, and no such zone has fewer. -/
def reclaimable (s : State) (z : Nat) : Bool :=
  let may (y : Nat) : Bool :=
    let e := zoneEnt s y
    e.kind = 1 && (e.state = 2 || e.state = 3) && liveCount s y ≤ 16384
  may z && (List.range (zoneCount s)).all fun y => !may y || liveCount s z ≤ liveCount s y

/-- Copies of a zone's live blocks stand in OPEN zones: old and new address of each (R279). -/
def copiesHold (s : State) (z : Nat) (copies : List (Nat × Nat)) : Bool :=
  (zoneLive s z).all fun b =>
    (copies.lookup b.2.2).any fun a =>
      a / 2 ^ 17 ≠ z && (zoneEnt s (a / 2 ^ 17)).state = 1 && onDisk s b.1 b.2.1 a

/-- The locators of a zone's live blocks move to their copies and are journalled (R279). -/
def reclaim (z : Nat) (copies : List (Nat × Nat)) (s : State) : State :=
  let olds := ((zoneLive s z).map fun b => b.2.2).eraseDups
  let moves := copies.filter fun c => c.1 ∈ olds
  let s := moves.foldl (fun s c => moveBlock c.1 c.2 s) s
  recordZones (setLive z (fun _ => 0) (addLive (moves.map Prod.snd) (syncLocs (locsAt s (moves.map Prod.snd)) s)))

end Sys2Proof.Machine
end

