-- ==== Sys2Proof/Machine/BootOps.lean ====
section
/-!
DEFINITION. Machine/BootOps.lean: the boot (R511) as three stages: what runs from the release of the reset to the start
of DRAM training, from there to the copy of the service image, and the release of the service cores.
-/

namespace Sys2Proof.Machine

open Sys2Proof

/-- Set where the boot stands. -/
def setBoot (b : BootSt) (s : State) : State := modCru (fun c => { c with boot := b }) s

/-- The voted life-cycle word is one of Table "Life-cycle codes". -/
def lcValid (w : Word) : Bool := w = 0 || w = 0xFF || w = 0xFFFF || w = 0xFFFFFF || w = 0xFFFFFFFF

/-- Where the last reset's record says CAUSE `k` (R560). -/
def causeIs (s : State) (k : Nat) : Bool := s.rf Reg.PWR_CAUSE 3 0 = k

/-- The entropy source starts (R500, R511 step 2): the DRBG is seeded, or the source fails. -/
def startEntropy (ok : Bool) (s : State) : State :=
  if ok then (s.setRb Reg.CRU_RNG_STATUS 0 true).bumpRf Reg.CRU_RNG_STATUS 31 16
  else cruEvent 5 (s.setRb Reg.CRU_RNG_STATUS 1 true)

/-- The straps are sampled at the release of a power-on cold reset (R578). -/
def sampleStraps (straps : BitVec 3) (s : State) : State :=
  if causeIs s 0 then
    modPwr (fun p => { p with sbMode := straps.setWidth 2, testEn := straps.getLsbD 2 }) s
  else s

/-- MEM_DRAM_CFG is loaded from the retained settings at power-on (R477, R562). -/
def loadDramCfg (s : State) : State :=
  let p := setting s 1
  if causeIs s 0 && 4 ≤ p.length then s.setReg Reg.MEM_DRAM_CFG (BitVec.ofNat 32 (field p 0 4)) else s

/-- Self-tests at the end of a reset: the chopper's of a cold or device reset (R406, R418), the cipher lanes' of a cold
one (R256). -/
def resetTests (k : ResetKind) (chopper : Bool) (pass : BitVec 4) (s : State) : State :=
  let s := if k = .warm then s else selfTest chopper s
  if k = .cold then
    let s := modXfm (fun x => { x with ciph := pass.toNat }) s
    if pass = 0xF then s else xfmEvent 8 s
  else s

/-- Step 2 of the boot (R494, R495, R511): the life-cycle decoded, BOOTS counted, the entropy source started. -/
def bootStep2 (entropy : Bool) (s : State) : State :=
  let s := if lcValid s.lcWord then s else cruEvent 6 (s.setRb Reg.CRU_LC 3 true)
  let s := { s with mu := { s.mu with trip4 := Trip.of (s.mu.trip4.vote + 1) } }
  startEntropy entropy s

/-- Release of the reset, and steps 1 to 3 (R473, R494, R511, R543, R557). -/
def bootA (kat entropy chopper : Bool) (pass : BitVec 4) (straps : BitVec 3) (s : State) : State :=
  let k : ResetKind := match s.pwr.inReset with
    | some (k, _) => k
    | none => .cold
  let s := sampleStraps straps (releaseReset s)
  let s := { s with mu := { s.mu with trip0 := s.cru.fuses.lc, trip1 := s.cru.fuses.vault } }
  let s := if s.ramOnly then raise 38 s else s
  let s := resetTests k chopper pass s
  if !kat then setBoot .held s
  else
    let s := bootStep2 entropy s
    if s.lcState = 0 then setBoot .blank (modCru (fun c => { c with testAccess := s.pwr.testEn }) s)
    else setBoot .training (if k = .cold then loadDramCfg s else s)

/-- Every burn whose fuse copies disagree is repeated (R499). -/
def repairFuses (s : State) : State :=
  let all (t : Trip) : Trip := Trip.of (t.c0 ||| t.c1 ||| t.c2)
  modFuses (fun u => { u with lc := all u.lc, vault := all u.vault }) s

/-- A range register locks sectors `a` to `b` for good until the next cold reset (R484, R490). -/
def lockRange (r a b : Nat) (s : State) : State := s.setReg r (BitVec.ofNat 32 (a + b * 2 ^ 16 + 3 * 2 ^ 30))

/-- The lock ranges of a boot (R484, R510): the running Crucible slot without its state sector, and in TEMPERED the
media-profile region. -/
def setLocks (i : Nat) (s : State) : State :=
  let a := slotBase 1 i / 4096
  let s := lockRange (Reg.CF_WLOCK 0) a (a + 254) s
  if s.lcState = 2 then lockRange (Reg.CF_WLOCK 1) 0x1A00 0x1DFF s else s

/-- SIF_CFG registers are loaded from the retained settings (R562). -/
def loadSif (s : State) : State :=
  let p := setting s 3
  if 64 ≤ p.length then
    (List.range 8).foldl (fun s n =>
      (s.setReg (Reg.SIF_CFG_A n) (BitVec.ofNat 32 (field p (8 * n) 4))).setReg (Reg.SIF_CFG_B n)
        (BitVec.ofNat 32 (field p (8 * n + 4) 4))) s
  else s

/-- The aperture lies at the highest 256 MiB of installed DRAM (R493). -/
def setAperture (s : State) : State :=
  if s.dramBytes = 0 then s else s.setRf Reg.CRU_APERTURE 11 0 (apertureBase s / 2 ^ 28)

/-- Load an eft from an image that has passed R505 (R194, R510). -/
def loadEft (r : RunImg) (e : Nat) (s : State) : State :=
  let n := field (s.flash r.off 40) 20 4 / 4 - 1
  let body := s.flash (r.off + 8192) (4 * n + 4)
  let crc := field body (4 * n) 4
  let cs := (List.range (min n 8192)).foldl (fun c a =>
    Sparse.set (fun _ => (0 : BitVec 24)) c a (BitVec.ofNat 24 (field body (4 * a) 4))) []
  let s := s.setReg (Reg.EFT_LOAD_CRC e) (BitVec.ofNat 32 crc)
  let s := modEft e (fun x => { x with st := .loading, valid := false, cs := cs, loadAddr := min n 8192, loadErr := false }) s
  if 8192 < n || csCrc (s.eft e) ≠ s.reg (Reg.EFT_LOAD_CRC e) then
    loadErr e (modEft e (fun x => { x with st := .stopped }) s)
  else modEft e (fun x => { x with valid := true, st := if s.rb (Reg.EFT_CTRL e) 0 then .idle else .stopped }) s

/-- Load the efts of a kind, and note the image at place `k` of the measurements (R510, R511 step 6). -/
def loadEfts (kind k : Nat) (es : List Nat) (s : State) : State :=
  match chooseProf s kind with
  | some r => es.foldl (fun s e => loadEft r e s) (setRun k r s)
  | none => s

/-- The media profile that Crucible uses (R510). -/
def loadProfile (s : State) : State :=
  match chooseProf s 5 with
  | some r => setRun 4 r s
  | none => s

/-- Service window 0 is granted over all DRAM below the aperture (R511 step 7). -/
def grantService (s : State) : State := setWindow 15 0 dramBase (apertureBase s - 4096) true s

/-- Crucible serves the sideband alone, and the cores stay halted (R511). -/
def bootSideband (s : State) : State := modCru (fun c => { c with boot := .sideband, wdog := false }) s

/-- Pending records are flushed to the region by the boot after a cold reset; a life-cycle change then wipes the AON
SRAM (R474). -/
def bootFlush (s : State) : State :=
  if s.rf Reg.PWR_CAUSE 5 4 = 3 && s.lcState ≠ 4 then
    let s := drainAll none s
    if causeIs s 3 then modEvc (fun e => { e with buf := [] }) s else s
  else s

/-- Steps 6 and 7 (R502, R507, R509, R511), with DRAM usable. -/
def bootService (s : State) : State :=
  let s := loadBands (resumeSanitize s)
  let s := loadProfile (loadEfts 4 3 [4, 5, 6, 7, 8, 9, 10, 11] (loadEfts 3 2 [0, 1, 2, 3] s))
  if !s.mu.dramReady then bootSideband s
  else
    match chooseSlot 2 4 s with
    | (none, s) => bootSideband s
    | (some (i, trial), s) =>
      let s := copyService i s
      let s := setRun 1 (runImg s (slotBase 2 i)) (modCru (fun c => { c with svcSlot := some i, trial := trial }) s)
      setBoot .wiping (grantService s)

/-- Steps 4 to 7 (R498, R507, R511): once DRAM training has ended. -/
def bootB (s : State) : State :=
  match chooseSlot 1 4 s with
  | (none, s) => setBoot .held s
  | (some (i, _), s) =>
    let s := setRun 0 (runImg s (slotBase 1 i)) (modCru (fun c => { c with cruSlot := some i, wdog := true }) s)
    let s := recResume (repairFuses s)
    if s.lcState < lcTarget s then lcTransition (lcTarget s) s
    else
      let s := setAperture (loadSif (setLocks i (bootFlush s)))
      if s.lcState = 4 then bootSideband s else bootService s

/-- The service image starts: the features in effect are applied, ACTUATOR_MODE among them (R96, R388, R429, R437), and the
drive goes to PS0, the spindle turning at SPINDLE_RPM and the heads loaded (R97; DEDUCED, log entry 41); the locator table
is laid out (R278), and the bands are provisioned at the first boot in TEMPERED (R501). -/
def startService (s : State) : State :=
  let s := (applyProfile none (provisionBands s)).setRb (Reg.MED_SV_TANDEM 1) 31 (feature s 4 = 1)
  layOutLocs { s with svc := { s.svc with entering := some ⟨0, none, [], true⟩ } }

/-- Step 8 (R511): the wipes have ended; the service cores start at ENTRY, and the service image starts. -/
def bootC (s : State) : State :=
  match s.cru.svcSlot with
  | some i => startService <| restartCores 0x3F (serviceEntry s i 28) 0 (modCru (fun c => { c with boot := .released, wdog := false }) s)
  | none => bootSideband s

/-- Whether a released reset may boot now: rails up, RESET_N high, not quenched (R551, R557, R561). -/
def mayBoot (s : State) : Bool := isUp s && !s.pwr.resetPinLow && s.bud.quenched.isNone && !s.pwr.holdup

/-- Carry the boot on by one stage. -/
def bootGo (kat entropy chopper : Bool) (pass : BitVec 4) (straps : BitVec 3) (s : State) : State :=
  match s.cru.boot with
  | .due => if mayBoot s then bootA kat entropy chopper pass straps s else s
  | .training => if s.mu.training then s else bootB s
  | .wiping => if s.mu.wipeBusy then s else bootC s
  | _ => s

end Sys2Proof.Machine
end

