-- ==== Sys2Proof/Machine/CruCmds.lean ====
section
/-!
DEFINITION. Machine/CruCmds.lean: the boot, Crucible's fuse, band, hash, entropy and watchdog commands (R494 to R508,
R522), the debug port's, and those of the sprue link (R17).
-/

namespace Sys2Proof.Machine

open Sys2Proof Host

/-- BOOT_START (R511): the device boots as far as it can at once: to the wait for DRAM training, to the wait for the
wipes, or to the release of the service cores. `kat` and `entropy` say whether the tests of steps 1 and 2 pass, `chopper`
and `pass` whether those of R406 and R256 do, and `straps` what the strap balls show. -/
def execBootStart (kat entropy chopper : Bool) (pass : BitVec 4) (straps : BitVec 3) (s : State) : Res :=
  .next <| bootGo kat entropy chopper pass straps s

/-- A write of CRU_FUSE_CMD with GO (R499, R522): nothing while a burn is in progress; a key slot above 3 is refused. -/
def fuseCmd (op arg : Nat) (s : State) : State :=
  if s.cru.burn.isSome then s
  else
    let s := s.setReg Reg.CRU_FUSE_CMD (BitVec.ofNat 32 (op + arg * 2 ^ 8))
    if op = 7 && 3 < arg then s.setRb Reg.CRU_FUSE_STAT 1 true
    else modCru (fun c => { c with burn := some (op, arg) }) (s.setRb Reg.CRU_FUSE_STAT 1 false)

/-- FUSE_LIFECYCLE (R494): OP 1. -/
def execFuseLifecycle (arg : BitVec 8) (s : State) : Res := s.whenLive fun s => fuseCmd 1 arg.toNat s

/-- FUSE_VAULT_WORD (R498): OP 2. -/
def execFuseVaultWord (arg : BitVec 8) (s : State) : Res := s.whenLive fun s => fuseCmd 2 arg.toNat s

/-- FUSE_KEK_STEP (R502): OP 3. -/
def execFuseKekStep (arg : BitVec 8) (s : State) : Res := s.whenLive fun s => fuseCmd 3 arg.toNat s

/-- FUSE_SVN_CRU (R508): OP 4. -/
def execFuseSvnCru (arg : BitVec 8) (s : State) : Res := s.whenLive fun s => fuseCmd 4 arg.toNat s

/-- FUSE_SVN_SVC (R508): OP 5. -/
def execFuseSvnSvc (arg : BitVec 8) (s : State) : Res := s.whenLive fun s => fuseCmd 5 arg.toNat s

/-- FUSE_SVN_PROF (R508): OP 6. -/
def execFuseSvnProf (arg : BitVec 8) (s : State) : Res := s.whenLive fun s => fuseCmd 6 arg.toNat s

/-- FUSE_KEY_SLOT (R499): OP 7, the slot in ARG. -/
def execFuseKeySlot (arg : BitVec 8) (s : State) : Res := s.whenLive fun s => fuseCmd 7 arg.toNat s

/-- FUSE_IDENTITY_SEED (R499): OP 8. -/
def execFuseIdentitySeed (arg : BitVec 8) (s : State) : Res := s.whenLive fun s => fuseCmd 8 arg.toNat s

/-- What the burn in progress leaves when it ends (R494, R499). -/
def burnEnd (op arg : Nat) (s : State) : State :=
  match op with
  | 1 => burnLc (s.reg (Reg.CRU_FUSE_DATA 0)).toNat s
  | 2 => burnVault (s.reg (Reg.CRU_FUSE_DATA 0)).toNat s
  | _ => burnDone op arg s

/-- FUSE_BURN_DONE (R499): the burn ends and BUSY clears. -/
def execFuseBurnDone (s : State) : Res :=
  s.whenLive fun s =>
    match s.cru.burn with
    | some (op, arg) => modCru (fun c => { c with burn := none }) (burnEnd op arg s)
    | none => s

/-- A write of CRU_BAND_CMD with GO (R501, R522): nothing while an operation is in progress. -/
def bandCmd (op b : Nat) (s : State) : State :=
  if s.cru.band.isSome then s
  else
    let s := s.setReg Reg.CRU_BAND_CMD (BitVec.ofNat 32 (b + op * 2 ^ 8))
    modCru (fun c => { c with band := some (op, b) }) (s.setReg Reg.CRU_BAND_STAT 0)

/-- BAND_CMD_CREATE (R501): OP 1. -/
def execBandCmdCreate (b : Fin 64) (s : State) : Res := s.whenLive fun s => bandCmd 1 b s

/-- BAND_LOAD (R501): OP 2. -/
def execBandLoad (b : Fin 64) (s : State) : Res := s.whenLive fun s => bandCmd 2 b s

/-- BAND_UNLOAD (R255): OP 3. -/
def execBandUnload (b : Fin 64) (s : State) : Res := s.whenLive fun s => bandCmd 3 b s

/-- BAND_REWRAP (R501): OP 4. -/
def execBandRewrap (b : Fin 64) (s : State) : Res := s.whenLive fun s => bandCmd 4 b s

/-- The wrapped key in CRU_BAND_WRAP. -/
def bandWrap (s : State) : List Byte := (List.range 18).flatMap fun w => leBytes 4 (s.reg (Reg.CRU_BAND_WRAP w)).toNat

/-- Put a wrapped key into CRU_BAND_WRAP. -/
def setBandWrap (bs : List Byte) (s : State) : State :=
  (List.range 18).foldl (fun s w => s.setReg (Reg.CRU_BAND_WRAP w) (BitVec.ofNat 32 (field bs (4 * w) 4))) s

/-- What a band operation does, and whether it ends without ERR (R500, R501). -/
def bandEnd (op b : Nat) (s : State) : State × Bool :=
  let e := s.cru.fuses.kek
  let key := kwUnwrap (kekOf e) (bandWrap s)
  if kekKilled s then (s, false)
  else
    match op, key with
    | 1, _ =>
      if entropyFailed s then (s, false)
      else
        let (k, s) := drawKey s
        (setBandWrap (wrapKey e k) s, true)
    | 2, some k => (setBandKey b k s, true)
    | 3, _ => (unloadBand b s, true)
    | 4, some k => (setBandWrap (wrapKey (e + 1) k) s, true)
    | _, _ => (s, false)

/-- BAND_CMD_DONE (R501): the operation ends; CRU_BAND_STAT shows DONE, and ERR where it failed. -/
def execBandCmdDone (s : State) : Res :=
  s.whenLive fun s =>
    match s.cru.band with
    | some (op, b) =>
      let (s, ok) := bandEnd op b s
      modCru (fun c => { c with band := none }) (s.setReg Reg.CRU_BAND_STAT (if ok then 1 else 3))
    | none => s

/-- HASH_START (R522): CRU_HASH_CTRL is written with GO; ignored while BUSY. -/
def execHashStart (outlen : BitVec 8) (s : State) : Res :=
  s.whenLive fun s =>
    if s.cru.hashing then s
    else modCru (fun c => { c with hashing := true })
      (s.setReg Reg.CRU_HASH_CTRL (BitVec.ofNat 32 (outlen.toNat * 2 ^ 8)))

/-- Bytes of the Crucible map that the hash engine reads: memory, or the array through XIP. -/
def hashSource (s : State) (a n : Nat) : Option (List Byte) :=
  match s.cruAddr a n with
  | some p => some (s.bytes p n)
  | none => if 0x8000000 ≤ a && a + n ≤ 0xC000000 then some (s.flash (a - 0x8000000) n) else none

/-- HASH_DONE (R522): SHAKE256 of the source, OUTLEN bytes of it, in CRU_HASH_OUT; free bytes where the source is no
memory or OUTLEN is outside 1 to 64, of which the spec says nothing. -/
def execHashDone (s : State) : Res :=
  s.whenLive fun s =>
    if s.cru.hashing then
      let n := s.rf Reg.CRU_HASH_CTRL 15 8
      let src := hashSource s (s.reg Reg.CRU_HASH_SRC_LO).toNat (s.reg Reg.CRU_HASH_LEN).toNat
      let s := modCru (fun c => { c with hashing := false }) s
      let (out, s) := match src with
        | some d => if 1 ≤ n && n ≤ 64 then (shake256 n d, s) else s.drawBytes 64
        | none => s.drawBytes 64
      (List.range ((out.length + 3) / 4)).foldl (fun s w =>
        s.setReg (Reg.CRU_HASH_OUT w) (BitVec.ofNat 32 (field out (4 * w) 4))) s
    else s

/-- RNG_DATA_READ (R500): Crucible reads CRU_RNG_DATA: 32 bits of the DRBG, 0 while FAIL. -/
def execRngDataRead (s : State) : Res :=
  s.whenLive fun s =>
    if entropyFailed s then { s with resp := ⟨0, false⟩ }
    else
      let (bs, s) := drbg 4 s
      { s with resp := ⟨BitVec.ofNat 64 (field bs 0 4), false⟩ }

/-- ENTROPY_HEALTH_FAIL (R500): FAIL is set and ENTROPY_FAIL raised. -/
def execEntropyHealthFail (s : State) : Res :=
  s.whenLive fun s => if entropyFailed s then s else cruEvent 5 (s.setRb Reg.CRU_RNG_STATUS 1 true)

/-- WDOG_KICK (R522): the 2 s of the boot watchdog start again; one that has been stopped runs again. -/
def execWdogKick (s : State) : Res := s.whenLive fun s => modCru (fun c => { c with wdog := true }) s

/-- WDOG_STOP (R522): the boot watchdog ends. -/
def execWdogStop (s : State) : Res := s.whenLive fun s => modCru (fun c => { c with wdog := false }) s

/-- BOOT_WATCHDOG_EXPIRY (R508): WDOG is raised and a device reset follows. -/
def execBootWatchdogExpiry (s : State) : Res :=
  s.whenLive fun s => if s.cru.wdog then beginReset .device 10 (cruEvent 12 (modCru (fun c => { c with wdog := false }) s)) else s

/-- TRIAL_TIMEOUT (R508): the service image on trial has sent no READY: its slot is INVALID, TRIAL_FALLBACK is raised and
the device resets. -/
def execTrialTimeout (s : State) : Res :=
  s.whenLive fun s =>
    match s.cru.svcSlot with
    | some i =>
      if s.cru.trial && svcRuns s then beginReset .device 9 (cruEvent 3 (setMark 2 i 12 0 s)) else s
    | none => s

/-- CORE_RESTART (R522): RESTART is written: the cores named restart at CRU_CORE_VEC with CRU_CORE_A0 in a0; RUN stays. -/
def execCoreRestart (m : BitVec 6) (s : State) : Res :=
  s.whenLive fun s =>
    let pc := s.regAddr Reg.CRU_CORE_VEC_LO Reg.CRU_CORE_VEC_HI
    let a0 := (s.reg Reg.CRU_CORE_A0).toNat
    modCru (fun c => { c with cores := c.cores.mapIdx fun k e => if m.getLsbD k then (pc, a0) else e }) s

/-- DEBUG_LC_MOULD (R497, R499): in BLANK, the debug port asks for MOULD: the identity seed is generated, the state is
burnt, and the cold reset of a life-cycle change follows. -/
def execDebugLcMould (s : State) : Res :=
  .next <|
    match s.cru.boot with
    | .blank =>
      if entropyFailed s then s
      else
        let (seed, s) := drbg 32 s
        let s := modFuses (fun u => { u with seed := orBytes u.seed seed }) s
        beginReset .cold 3 (burnLc 0xFF (burnVault 1 s))
    | _ => s

/-- Rights of the debug port by life-cycle state (R496, R579). -/
def tapMay (s : State) (r : TapIr) : Bool :=
  match r with
  | .idcode => true
  | .bypass => true
  | .core n =>
    match s.lcState with
    | 0 => true
    | 1 => n.val < 6
    | 2 => n.val < 6 && s.cru.debugOpen
    | 3 => n.val < 6
    | _ => false
  | _ => s.lcState ≤ 1

/-- DEBUG_IR_UPDATE (R579): an instruction comes into force where the state grants it; else the port answers as BYPASS. -/
def execDebugIrUpdate (r : TapIr) (s : State) : Res :=
  .next <| modPwr (fun p => { p with tap := if tapMay s r then r else .bypass }) s

/-- SPRUE_ALIGNMENT_LOSS (R17): the link loses frame alignment and retrains. -/
def execSprueAlignmentLoss (s : State) : Res := .next <| modPwr (fun p => { p with sprueUp := false }) s

/-- SPRUE_RETRAIN_TIMEOUT (R17): the link has not retrained: an error in MOT. -/
def execSprueRetrainTimeout (s : State) : Res :=
  .next <|
    if !s.pwr.sprueUp && !s.pwr.sprueFailed then parkDropped <| hwError 6 1 [] (modPwr (fun p => { p with sprueFailed := true }) s) else s

/-- SPRUE_LINK_RETRAINED (R17): the link is aligned again in time. -/
def execSprueLinkRetrained (s : State) : Res :=
  .next <| if s.pwr.sprueFailed then s else modPwr (fun p => { p with sprueUp := true }) s

end Sys2Proof.Machine
end

