-- ==== Sys2Proof/Machine/NetOps.lean ====
section
/-!
DEFINITION. Machine/NetOps.lean: shared operations of NET: its control register (R36, R62), queue pairs and their contexts
(R50 to R55), the raw ring (R48), mailbox rings (R59, R69), and work requests (R57).
-/

namespace Sys2Proof.Machine

open Sys2Proof

/-- NET's engines run: it is not fenced (R532). -/
def netLive (s : State) : Bool := !s.fenced 0

/-- A queue pair, by index. -/
def qp (s : State) (q : Nat) : Qp := Sparse.get (fun _ => Qp.none) s.net.qps q

/-- Replace a queue pair. -/
def setQp (q : Nat) (x : Qp) (s : State) : State :=
  modNet (fun n => { n with qps := Sparse.set (fun _ => Qp.none) n.qps q x }) s

/-- Change a queue pair. -/
def modQp (q : Nat) (f : Qp → Qp) (s : State) : State := setQp q (f (qp s q)) s

/-- The queue pair a packet belongs to. -/
def NetOut.qp : NetOut → Option Nat
  | .ack q _ => some q
  | .rnrNak q => some q
  | .nakSeq q => some q
  | .nakInvalid q => some q
  | .nakAccess q => some q
  | .cnp q => some q
  | .send q _ => some q
  | .rdmaWrite q _ _ _ => some q
  | .rdmaRead q _ _ _ => some q
  | .readResponse q _ => some q
  | .retransmit q => some q
  | .toHost q _ _ _ => some q
  | .raw _ _ => none
  | .toPeer q _ _ _ => some q
  | .xoff _ _ => none
  | .xon _ _ => none

/-- A priority of a port may transmit now: link up, and not paused while its flow control is enabled (R41, R43). -/
def mayTransmit (s : State) (p prio : Nat) : Bool :=
  (port s p).up && !(nbit (port s p).paused prio && s.rb (Reg.NET_P_PFC p) prio)

/-- What leaves as a packet: RoCEv2 on ROCE_PRIO, ECT(0) where ECT is 1, stamped with the VLAN tag and DSCP of the queue
pair's GID entry; a raw frame on priority 0 as the service image made it (R41, R44, R46). -/
def stamp (s : State) (o : NetOut) : NetPkt :=
  match o.qp with
  | some q =>
    let x := qp s q
    let w := Reg.NET_GID x.port (8 + x.gid) 0
    ⟨x.port, s.rf (Reg.NET_P_PFC x.port) 10 8, s.rb Reg.NET_CC_CFG 0, if s.rb w 30 then some (s.rf w 11 0) else none,
      s.rf w 21 16, o⟩
  | none =>
    match o with
    | .raw p _ => ⟨p, 0, false, none, 0, o⟩
    | .xoff p _ => ⟨p, 0, false, none, 0, o⟩
    | .xon p _ => ⟨p, 0, false, none, 0, o⟩
    | _ => ⟨0, 0, false, none, 0, o⟩

/-- Put something on a port; a packet of a queue pair whose priority is paused, or whose link is down, waits (R43, R56). -/
def netSend (o : NetOut) (s : State) : State :=
  let k := stamp s o
  if o.qp.isSome && !mayTransmit s k.port k.prio then modPort k.port (fun x => { x with waiting := x.waiting ++ [k] }) s
  else modNet (fun n => { n with sent := n.sent ++ [k] }) s

/-- Packets that waited leave once their priority may transmit, in order. -/
def releaseWaiting (p : Nat) (s : State) : State :=
  let may (k : NetPkt) : Bool := mayTransmit s p k.prio
  let out := (port s p).waiting.filter may
  modNet (fun n => { n with sent := n.sent ++ out })
    (modPort p (fun x => { x with waiting := x.waiting.filter fun k => !may k }) s)

/-- A command starts with nothing sent yet. -/
def netFresh (s : State) : State := modNet (fun n => { n with sent := [] }) s

/-- PORT_MODE in force. -/
def portMode (s : State) : Nat := s.rf Reg.NET_CTRL 1 0

/-- A port is enabled and present in the mode (R35, R67). -/
def portOn (s : State) (p : Nat) : Bool := s.rb Reg.NET_CTRL (4 + p) && (p = 0 || portMode s = 0)

/-- Either port is enabled (R36, R48). -/
def anyPortOn (s : State) : Bool := s.rf Reg.NET_CTRL 5 4 ≠ 0

/-- Line rate of a port in 100 Mb/s units (R45). -/
def lineRate (s : State) (p : Nat) : Nat := if p = 0 && portMode s = 1 then 2000 else 1000

/-- A port's enable has changed: it trains, after auto-negotiation where AN_EN is 1, or its link goes down (R37, R67). -/
def portChange (p : Nat) (was : Bool) (s : State) : State :=
  let on := portOn s p
  if on && !was then modPort p (fun x => { x with training := true, neg := s.rb (Reg.NET_P_CFG p) 0 }) s
  else if !on && was then modPort p (fun x => { x with training := false, neg := false }) (setLink p false s)
  else s

/-- HOLD falls (R62). -/
def netRelease (s : State) : State :=
  modNet (fun n => { n with holdProd := [], startedInHold := false }) (s.setRb Reg.NET_CTRL 16 false)

/-- A write of NET_CTRL (R36, R37, R62). -/
def netCtrlWrite (v : Word) (s : State) : State :=
  let old := portMode s
  let new := fld v 1 0
  let bad := new = 3 || (anyPortOn s && new ≠ old)
  let was0 := portOn s 0
  let was1 := portOn s 1
  let s := if bad then s else s.setRf Reg.NET_CTRL 1 0 new
  let s := portChange 1 was1 (portChange 0 was0 (s.setRf Reg.NET_CTRL 5 4 (fld v 5 4)))
  let s := if bit v 16 then netHold s else if s.rb Reg.NET_CTRL 16 then netRelease s else s
  if bad then netEvent 11 s else s

/-- A write of NET_Px_CFG (R36). -/
def netCfgWrite (p : Nat) (v : Word) (s : State) : State :=
  let s := s.setRb (Reg.NET_P_CFG p) 0 (bit v 0)
  if bit v 1 = s.rb (Reg.NET_P_CFG p) 1 then s
  else if anyPortOn s then netEvent 11 s
  else s.setRb (Reg.NET_P_CFG p) 1 (bit v 1)

/-! Queue pairs. -/

/-- Index of a queue-pair number in NET's range (R50). -/
def qpIndex (s : State) (n : Nat) : Option Nat :=
  let b := s.rf Reg.NET_QPN_BASE 9 0
  let q := n % 16384
  if n / 16384 = b && 2 ≤ q then some q else none

/-- A queue pair takes packets: it exists and is in no state below RTR (R50). -/
def qpTakes (x : Qp) : Bool := x.made && x.st ≠ .reset && x.st ≠ .init

/-- A queue pair answers and places what it receives. -/
def qpUp (x : Qp) : Bool := x.made && (x.st = .rtr || x.st = .rts)

/-- Started and unfinished work requests of a queue pair. -/
def qpJobs (s : State) (q : Nat) : List Job :=
  s.rings.jobs.filter fun (j : Job) =>
    j.done.isNone && sqFunc s j.sq = 0 && sqClass s j.sq = 1 && field j.entry 8 2 % 16384 = q

/-- Its work requests complete FLUSHED (R55, R161). -/
def qpFlush (q : Nat) (s : State) : State :=
  let s := (qpJobs s q).foldl (fun s j => finishJob j.sq j.first ⟨5, 0, 0, 0, 0⟩ s) s
  modNet (fun n => { n with wrs := n.wrs.filter fun w => w.qp ≠ q }) s

/-- Push a queue pair and its reason into NET_QP_ERR_FIFO (R55). -/
def pushQpErr (q reason : Nat) (s : State) : State :=
  modNet (fun n =>
    if n.errFifo.length < 64 then { n with errFifo := n.errFifo ++ [(q, reason)] }
    else { n with errOvf := satAdd 7 n.errOvf 1 }) s

/-- A queue pair enters ERROR (R55, R133). The spec names no values of REASON: a free value. -/
def qpError (q : Nat) (s : State) : State :=
  let s := qpFlush q (modQp q (fun x => { x with st := .error, rnrWait := false, readDone := 0 }) s)
  let (bs, s) := s.drawBytes 1
  dropConns (fun k => k = q) (netEvent 6 (pushQpErr q ((byteAt bs 0).toNat % 16) s))

/-- The context of a queue pair that cannot be fetched (R468): an uncorrectable word puts it in ERROR. -/
def ctxBad (q : Nat) (r : BusRes) (s : State) : State :=
  match r with
  | .uncorr _ => qpError q s
  | _ => s

/-- Address of a context (R51). -/
def qpcAddr (s : State) (q : Nat) : Nat := s.regAddr Reg.NET_QPC_BASE_LO Reg.NET_QPC_BASE_HI + q * 256

/-- NET writes a context into its table (R51): 256 bytes whose layout is NET's own. -/
def storeCtx (q : Nat) (bad : BusRes → State → State) (k : State → State) (s : State) : State :=
  let (bs, s) := s.drawBytes 256
  writeOr 0 (qpcAddr s q) bs bad k s

/-- A cached context that may be evicted: not pinned, nothing in flight (R53). -/
def evictable (s : State) (q : Nat) : Bool := q ∉ s.net.pinned && (qpJobs s q).isEmpty

/-- Room for one more context: the list without the least recently used evictable one where it is full (R53). -/
def makeRoom (s : State) : Option (List Nat) :=
  let c := s.net.cache
  if c.length < 1024 then some c
  else (c.reverse.find? (evictable s)).map fun v => c.filter (· ≠ v)

/-- A context enters the cache, or moves to its front. -/
def cacheTouch (q : Nat) (s : State) : State :=
  if q ∈ s.net.cache then modNet (fun n => { n with cache := q :: n.cache.filter (· ≠ q) }) s
  else
    match makeRoom s with
    | some c => modNet (fun n => { n with cache := q :: c, fetching := n.fetching.filter (· ≠ q) }) s
    | none => s

/-- With the context of a queue pair in the cache, fetched from DRAM where it is missing (R51, R53), go on; where no
context can be evicted nothing happens yet. -/
def withCtx (q : Nat) (bad : BusRes → State → State) (k : State → State) (s : State) : State :=
  if q ∈ s.net.cache then k (cacheTouch q s)
  else if (makeRoom s).isNone then s
  else readOr 0 (qpcAddr s q) 256 bad (fun _ s => k (cacheTouch q s)) s

/-- Forget a queue pair in the cache and the miss queues. -/
def cacheForget (q : Nat) (s : State) : State :=
  let clean (x : Port) : Port := { x with missQ := x.missQ.filter (· ≠ q) }
  modNet (fun n => { n with cache := n.cache.filter (· ≠ q), pinned := n.pinned.filter (· ≠ q),
                            fetching := n.fetching.filter (· ≠ q), port0 := clean n.port0, port1 := clean n.port1 }) s

/-- A packet finds its context in the cache, or has it fetched; where no entry can be evicted it waits in its port's miss
queue, or is dropped (R53): whether NET keeps it. -/
def ctxMiss (p q : Nat) (s : State) : Bool × State :=
  let fetch (s : State) : State :=
    modNet (fun n => { n with fetching := if q ∈ n.fetching then n.fetching else q :: n.fetching }) s
  if q ∈ s.net.cache then (true, cacheTouch q s)
  else if (makeRoom s).isSome then (true, fetch s)
  else if (port s p).missQ.length < 32 then (true, fetch (modPort p (fun x => { x with missQ := x.missQ ++ [q] }) s))
  else (false, netEvent 7 (s.bump Reg.NET_CACHE_DROP))

/-- A CE-marked packet of a queue pair has come: a congestion notification, at most once per CNP_GAP (R44). -/
def cnpSend (q : Nat) (s : State) : State :=
  let gap := s.rf Reg.NET_CC_CFG 15 8
  if (qp s q).lastCnp.all fun t => t + gap ≤ s.timeUs then
    netSend (.cnp q) (modQp q (fun x => { x with lastCnp := some s.timeUs }) s)
  else s

/-! Transmission. -/

/-- Packets of a queue pair may leave now. -/
def qpMaySend (s : State) (q : Nat) : Bool :=
  let p := (qp s q).port
  mayTransmit s p (s.rf (Reg.NET_P_PFC p) 10 8)

/-- The unacknowledged packets of a queue pair are sent again, where they may leave (R54, R56). -/
def resend (q : Nat) (s : State) : State :=
  if qpMaySend s q && s.net.wrs.any (fun w => w.qp = q) then netSend (.retransmit q) s else s

/-- Retransmission of every queue pair of a port. -/
def resendPort (p : Nat) (s : State) : State :=
  let qs := (s.net.wrs.map NetWr.qp).eraseDups.filter fun q => (qp s q).port = p && (qp s q).st = .rts && !(qp s q).rnrWait
  qs.foldl (fun s q => resend q s) s

/-- Packets of a message of `n` bytes. -/
def packets (q n : Nat) : Nat :=
  let m := orOne (Config.pathMtu q)
  orOne ((n + m - 1) / m)

/-- The next work request of a ring to transmit: its oldest started job that NET has not taken, of an OP (R57). -/
def nextWr (s : State) (r cls op : Nat) : Option Job :=
  match s.rings.jobs.find? fun (j : Job) => j.sq = r && j.done.isNone && !j.taken with
  | some j => if sqFunc s r = 0 && sqClass s r = cls && eOp j.entry = op then some j else none
  | none => none

/-- A work request goes out on its queue pair once its context is cached: in flight from here on (R53, R57). One on a
queue pair that is not in RTS completes FLUSHED. -/
def startWr (read : Bool) (j : Job) (out : Nat → State → State) (s : State) : State :=
  let q := field j.entry 8 2 % 16384
  let x := qp s q
  if !(x.made && x.st = .rts) then finishJob j.sq j.first ⟨5, 0, 0, 0, 0⟩ s
  else
    let n := field j.entry 24 4
    let psn := (x.sqPsn + packets q n) % 2 ^ 24
    withCtx q (fun r s => match r with
        | .uncorr _ => qpError q s
        | r => failAccess j.sq j.first r s) (fun s =>
      let w : NetWr := ⟨j.sq, j.first, q, (psn + 2 ^ 24 - 1) % 2 ^ 24, read⟩
      let s := modNet (fun n => { n with wrs := n.wrs ++ [w] })
        (modQp q (fun x => { x with sqPsn := psn }) (takeJob j.sq j.first s))
      if qpMaySend s q then out q s else s) s

/-- A work request completes with its bytes moved (R161). -/
def endWr (w : NetWr) (s : State) : State :=
  let n := ((findJob s w.sq w.first).map fun (j : Job) => field j.entry 24 4).getD 0
  modNet (fun x => { x with wrs := x.wrs.filter fun v => !(v.sq = w.sq && v.first = w.first) })
    (finishJob w.sq w.first ⟨0, n, 0, 0, 0⟩ s)

/-- A requester hears from the responder: its retries start anew. -/
def refreshRetries (q : Nat) (s : State) : State := modQp q (fun x => { x with triesLeft := x.retry, rnrLeft := x.rnrRetry }) s

/-- An ACK up to a PSN completes the work requests it covers, in order, up to an unfinished RDMA READ (R57). -/
def ackUpTo (q psn : Nat) : List NetWr → State → State
  | [], s => s
  | w :: ws, s =>
    if w.qp ≠ q then ackUpTo q psn ws s
    else if w.read || 2 ^ 23 ≤ (psn + 2 ^ 24 - w.psn) % 2 ^ 24 then s
    else ackUpTo q psn ws (endWr w s)

/-! Reception. -/

/-- Slots of the raw ring as a power of two. -/
def rawN (s : State) : Nat := (s.reg Reg.NET_RAW_SIZE).toNat

/-- Raw-ring indices. -/
def rawProd (s : State) : Nat := s.rf Reg.NET_RAW_PROD 12 0
def rawCons (s : State) : Nat := s.rf Reg.NET_RAW_CONS 12 0

/-- Write a list of equal pieces into consecutive slots from an index on, wrapping; the window check may stop it. -/
def writeSlots (base n size : Nat) (bad : BusRes → State → State) (k : State → State) : Nat → List (List Byte) → State → State
  | _, [], s => k s
  | i, b :: bs, s => writeOr 0 (base + i % 2 ^ n * size) b bad (writeSlots base n size bad k (i + 1) bs) s

/-- Cut bytes into pieces of `m`, at most `k` of them. -/
def pieces (m : Nat) : Nat → List Byte → List (List Byte)
  | 0, _ => []
  | k + 1, bs => bs.take m :: pieces m k (bs.drop m)

/-- A frame goes to the raw ring, or is dropped for want of slots (R47, R48). -/
def rawPlace (p : Nat) (bytes : List Byte) (s : State) : State :=
  let n := rawN s
  let i := rawProd s
  let k := (bytes.length + 16 + 2047) / 2048
  if 2 ^ n < ringCount n i (rawCons s) + k then netEvent 8 (s.bump Reg.NET_RAW_DROP)
  else
    let (time, s) := s.drawBytes 8
    let (pad, s) := s.drawBytes (k * 2048 - 16 - bytes.length)
    let head := bytes.length + p * 2 ^ 14 + b2n (phaseOf n i) * 2 ^ 15 + k * 2 ^ 16
    let all := leBytes 8 head ++ time ++ bytes ++ pad
    let base := sramBase + (s.reg Reg.NET_RAW_BASE).toNat
    writeSlots base n 2048 (unownedBad 0)
      (fun s => s.setRf Reg.NET_RAW_PROD 12 0 ((i + k) % 2 ^ (n + 1))) i (pieces 2048 k all) s

/-- Slots of mailbox ring `m` as a power of two (R59, R66). -/
def mbxN (s : State) (m : Nat) : Nat := s.rf (Reg.NET_MBX_CONS m) 19 16 + 4

/-- Mailbox indices. -/
def mbxProd (s : State) (m : Nat) : Nat := s.rf (Reg.NET_MBX_PROD m) 12 0
def mbxCons (s : State) (m : Nat) : Nat := s.rf (Reg.NET_MBX_CONS m) 12 0

/-- Some queue pair is bound to a mailbox ring (R69). -/
def mbxBound (s : State) (m : Nat) : Bool := s.net.qps.any fun e => e.2.mailbox = some m

/-- A mailbox ring cannot place: full, or stopped by a CONS beyond PROD (R61, R69). -/
def mbxStopped (s : State) (m : Nat) : Bool := m ∈ s.net.badCons

/-- A mailbox ring is full (R146). -/
def mbxFull (s : State) (m : Nat) : Bool := 2 ^ mbxN s m ≤ ringCount (mbxN s m) (mbxProd s m) (mbxCons s m)

/-- Place a capsule: the slot, the descriptor, then PROD (R59, R60). -/
def mbxPlace (m q psn : Nat) (bytes : List Byte) (s : State) : State :=
  let n := mbxN s m
  let i := mbxProd s m
  let slot := sramBase + (s.reg (Reg.NET_MBX_BASE m)).toNat + i % 2 ^ n * 512
  let desc := sramBase + (s.reg (Reg.NET_MBX_DESC m)).toNat + i % 2 ^ n * 16
  let (time, s) := s.drawBytes 8
  let head := q + (qp s q).port * 2 ^ 14 + b2n (phaseOf n i) * 2 ^ 15 + bytes.length * 2 ^ 16 + psn * 2 ^ 32
  writeOr 0 slot bytes (unownedBad 0)
    (writeOr 0 desc (leBytes 8 head ++ time) (unownedBad 0) fun s =>
      let s := s.setRf (Reg.NET_MBX_PROD m) 12 0 ((i + 1) % 2 ^ (n + 1))
      netSend (.ack q psn) (modQp q (fun x => { x with rqPsn := (psn + 1) % 2 ^ 24 }) s)) s

/-- The responder takes a request whose first PSN is the one it expects; one that lies ahead is answered with a NAK of
PSN sequence error, and a repeat as `again` says (R57, R60; PRESUMED from the RoCEv2 reliable connection, log entry 37). -/
def inOrder (q first : Nat) (again k : State → State) (s : State) : State :=
  let d := (first + 2 ^ 24 - (qp s q).rqPsn) % 2 ^ 24
  if d = 0 then k s else if d < 2 ^ 23 then netSend (.nakSeq q) s else again s

/-- A repeat is acknowledged and not executed again. -/
def ackAgain (q : Nat) (s : State) : State := netSend (.ack q (((qp s q).rqPsn + 2 ^ 24 - 1) % 2 ^ 24)) s

/-- A SEND message of a queue pair in its PSN order (R60, R61); a ring stopped by R69 raises CFG_REJECT with each refusal. -/
def takeSend (q psn : Nat) (bytes : List Byte) (s : State) : State :=
  if bytes.length < 64 || 512 < bytes.length then qpError q (netSend (.nakInvalid q) s)
  else
    match (qp s q).mailbox with
    | none => netSend (.rnrNak q) s
    | some m =>
      if mbxStopped s m then netEvent 11 (netSend (.rnrNak q) s)
      else if mbxFull s m then netEvent 9 (netSend (.rnrNak q) s)
      else mbxPlace m q psn bytes s

/-- An advertised buffer of a queue pair holds a range under a key (R58). -/
def advHolds (s : State) (q addr n key : Nat) : Bool :=
  s.net.adv.any fun e => e.2.qp = q && e.2.key = key && e.2.base ≤ addr && addr + n ≤ e.2.base + e.2.len

/-- Any other access (R58). -/
def remoteBad (q : Nat) (s : State) : State := qpError q (netEvent 13 (netSend (.nakAccess q) s))

/-- A GID entry of a port that is valid and holds an address (R46, R68). -/
def gidHeld (s : State) (p : Nat) (g : BitVec 128) : Bool :=
  (List.range 8).any fun e =>
    s.rb (Reg.NET_GID p (8 + e) 0) 31
      && (List.range 4).all fun w => (s.reg (Reg.NET_GID p e w)).toNat = g.toNat / 2 ^ (32 * w) % 2 ^ 32

/-- A destination MAC is the port's own (R46). -/
def macOwn (s : State) (p : Nat) (m : BitVec 48) : Bool :=
  m.toNat = (s.reg (Reg.NET_P_MAC_LO p)).toNat + s.rf (Reg.NET_P_MAC_HI p) 15 0 * 2 ^ 32

/-- XOFF goes out when the buffer holds XOFF KiB (R42). -/
def bufferLevel (p occ : Nat) (s : State) : State :=
  let s := modPort p (fun x => { x with occ := occ }) s
  let x := port s p
  if !x.xoff && s.rf (Reg.NET_P_BUF_THR p) 15 0 * 1024 ≤ occ then
    netSend (.xoff p (s.rf (Reg.NET_P_PFC p) 7 0)) (modPort p (fun x => { x with xoff := true }) s)
  else s

/-- Uncorrectable codewords of a port are counted, and a burst is raised once: more than THR of them in the second that
ends now (R39, R40; DEDUCED, log entry 38). -/
def fecUncorr (p k : Nat) (s : State) : State :=
  let s := s.bump (Reg.NET_P_FEC_UNCORR p) k
  let x := port s p
  let fec := (s.timeUs, k) :: x.fec.filter fun e => s.timeUs < e.1 + 1000000
  let n := fec.foldl (fun n e => n + e.2) 0
  let s := modPort p (fun x => { x with fec := fec }) s
  if x.burstArmed && (s.reg (Reg.NET_P_FEC_THR p)).toNat < n then
    netEvent (2 + p) (modPort p (fun x => { x with burstArmed := false }) s)
  else s

/-- The opcodes of the reliable connection that NET supports: SEND First, Middle, Last and Only, RDMA WRITE First,
Middle, Last and Only, RDMA READ Request and Responses, and Acknowledge (R49; the numbers are PRESUMED, log entry 37). -/
def opSupported (op : Nat) : Bool :=
  decide (op ∈ [0x00, 0x01, 0x02, 0x04, 0x06, 0x07, 0x08, 0x0A, 0x0C, 0x0D, 0x0E, 0x0F, 0x10, 0x11])

/-- The opcodes that are no requests: an atomic's acknowledge and a congestion notification. -/
def opReply (op : Nat) : Bool := decide (op ∈ [0x12, 0x81])

/-- A RoCEv2 packet for a number of NET's range or outside it (R44, R50, R53). A request that NET does not support is
answered with a NAK of invalid request, and the queue pair enters ERROR (R49). -/
def rocePacket (p : Nat) (r : RoceObs) (s : State) : State :=
  match qpIndex s r.qpn.toNat with
  | some q =>
    if qpTakes (qp s q) then
      let (kept, s) := ctxMiss p q (if r.ce then cnpSend q s else s)
      if kept && qpUp (qp s q) && !opSupported r.op.toNat && !opReply r.op.toNat then qpError q (netSend (.nakInvalid q) s)
      else s
    else netEvent 12 (s.bump Reg.NET_BAD_QPN)
  | none => netEvent 12 (s.bump Reg.NET_BAD_QPN)

/-- A frame that passed FEC, length and buffer is checked for address and delivered (R46, R47). Of frames that are not
RoCEv2 those to the port's own address and to a group address are accepted (DESIGN CHOICE, log entry 51). -/
def acceptFrame (p : Nat) (o : FrameObs) (s : State) : State :=
  match o.roce with
  | some r =>
    if macOwn s p o.mac && gidHeld s p r.gid then
      if r.qpn = 1 then rawPlace p o.bytes s else rocePacket p r s
    else s
  | none => if macOwn s p o.mac || o.group then rawPlace p o.bytes s else s

/-- A received frame (R39, R42, R46, R47). -/
def takeFrame (p : Nat) (o : FrameObs) (s : State) : State :=
  let n := o.bytes.length
  let s := if o.corr = 0 then s else s.bump (Reg.NET_P_FEC_CORR p) o.corr
  if o.uncorr ≠ 0 then fecUncorr p o.uncorr s
  else if 9216 < n then s.bump (Reg.NET_P_RX_DROP p)
  else if 262144 < o.occ + n then netEvent 4 ((bufferLevel p o.occ s).bump (Reg.NET_P_RX_DROP p))
  else acceptFrame p o (bufferLevel p (o.occ + n) s)

end Sys2Proof.Machine
end

