-- ==== Sys2Proof/Machine/SvcObj.lean ====
section
/-!
DEFINITION. Machine/SvcObj.lean: replies, the error log and the freeze (R76, R123 to R125), and objects: their commit and
acknowledgement, reads, listings and rebuilt fragments (R90 to R94, R112 to R116, R251).
-/

namespace Sys2Proof.Machine

open Sys2Proof

/-- A status freezes its queue pair (Table "Stepata status codes"). -/
def freezing (st : Nat) : Bool :=
  decide (st ∈ [0x101, 0x102, 0x103, 0x104, 0x107, 0x108, 0x203, 0x301, 0x302, 0x303, 0x304, 0x305, 0x306, 0x401, 0x403,
    0x405, 0x506, 0x601, 0x602, 0x603, 0x604, 0x605])

/-- A record of a queue pair that is not connected. -/
def Conn.blank (q : Nat) : Conn := ⟨q, 0, 0, 0, none, [], 0, false⟩

/-- Replace the record of a queue pair. -/
def setConn (k : Conn) (s : State) : State :=
  modSvc (fun v => { v with conns := k :: v.conns.filter fun x => x.qp ≠ k.qp }) s

/-- Change an outstanding command. -/
def modCmd (n : Nat) (f : Cmd → Cmd) (s : State) : State :=
  modSvc (fun v => { v with cmds := v.cmds.map fun x => if x.seq = n then f x else x }) s

/-- A command is no longer outstanding. -/
def dropCmd (n : Nat) (s : State) : State := modSvc (fun v => { v with cmds := v.cmds.filter fun x => x.seq ≠ n }) s

/-- An error log entry (Table "Error log entry"). -/
def logBytes (e held : Nat) (froze : Bool) (x : Cmd) (a : Ans) (s : State) : List Byte :=
  leBytes 4 e ++ leBytes 2 a.st ++ leBytes 2 a.detail ++ leBytes 1 (capOp x.cap) ++ leBytes 1 (b2n froze + b2n a.part * 2)
    ++ leBytes 2 (capTag x.cap) ++ leBytes 2 x.qp ++ leBytes 2 (if froze then held else 0) ++ leBytes 8 (capOffset x.cap)
    ++ leBytes 8 (s.evc.timeMs % 2 ^ 63 + b2n s.evc.unsync * 2 ^ 63)

/-- A log with an entry more: beyond 64 the oldest one goes, but not the one that froze the queue pair (R125). -/
def pushLog (k : Conn) (e : LogEnt) : Conn :=
  let l := k.log ++ [e]
  let l := if 64 < l.length then l.eraseP fun x => some x.seq ≠ k.frozen else l
  { k with log := l, newest := e.seq }

/-- A reply with a freezing status (R123 to R125): its number is drawn and logged, SOFT_0 is posted (R525), and the queue
pair freezes unless it is frozen. -/
def noteError (x : Cmd) (a : Ans) (s : State) : State :=
  if !freezing a.st then s
  else
    let e := s.svc.errSeq
    let k := (conn s x.qp).getD (Conn.blank x.qp)
    let froze := k.frozen.isNone
    let held := (s.svc.cmds.filter fun y => y.qp = x.qp && !y.started && !y.before).length
    let k := if froze then { k with frozen := some e } else k
    let s := setConn (pushLog k ⟨e, froze, logBytes e held froze x a s⟩) s
    let s := modSvc (fun v => { v with
        errSeq := if e = 2 ^ 32 - 1 then 1 else e + 1,
        cmds := v.cmds.map fun (y : Cmd) => if froze && y.qp = x.qp then
          { y with early := y.early || !y.checked, before := y.before || y.started } else y }) s
    let p := leBytes 4 e ++ leBytes 2 x.qp ++ leBytes 2 (capTag x.cap) ++ leBytes 2 a.st ++ leBytes 1 (capOp x.cap)
    raiseAs 48 (a.st % 256) 1 p false (setStatus 48 0 s)

/-- A reply (Table "Reply header"). -/
def replyBytes (x : Cmd) (a : Ans) (frozen : Option Nat) : List Byte :=
  let flags := b2n a.dup + b2n (!a.inl.isEmpty) * 2 + b2n a.part * 4 + b2n frozen.isSome * 8
  leBytes 1 (capOp x.cap) ++ leBytes 1 flags ++ leBytes 2 (capTag x.cap) ++ leBytes 2 a.st ++ leBytes 2 a.detail
    ++ leBytes 4 (frozen.getD 0) ++ leBytes 4 0 ++ leBytes 8 a.r0 ++ leBytes 8 a.r1 ++ List.replicate 32 0 ++ a.inl

/-- Advertised buffers are withdrawn. -/
def withdraw (es : List Nat) (s : State) : State :=
  modNet (fun n => { n with adv := es.foldl (fun m e => Sparse.set (fun _ => Adv.none) m e Adv.none) n.adv }) s

/-- A command ends: its data is written to the host's buffer, and its reply given to NET after it (R76), unless its queue
pair has left RTS (R133). -/
def svcAnswer (x : Cmd) (a : Ans) (s : State) : State :=
  let s := withdraw x.advs (dropCmd x.seq s)
  let up : Bool := match (qp s x.qp).st with
    | .rts => true
    | _ => false
  if x.mute || !up || !netLive s then s
  else
    let s := if a.host.isEmpty then s else netSend (.toHost x.qp (capBufAddr x.cap) (capBufKey x.cap) a.host) s
    let s := noteError x a s
    let r := replyBytes x a (frozenBy s x.qp)
    netSend (.send x.qp r) (modSvc (fun v => { v with replies := v.replies ++ [(x.qp, r)] }) s)

/-! Objects. -/

/-- The object of a key. -/
def objAt (s : State) (key : List Byte) : Option Obj := s.svc.objs.find? fun o => o.key = key

/-- Data that a PUT or WRITE brings (R75, R90). -/
def putData (x : Cmd) : List Byte := fit (capLength x.cap) (if capInline x.cap then capData x.cap else x.obs.data)

/-- MODE and DEPTH of the compression that COMP and DEPTH ask for (R90, Table "Stepata features"): none for data that is
stored uncompressed. -/
def compMode (s : State) (comp depth : Nat) : Option (Nat × Nat) :=
  match comp with
  | 1 => none
  | 2 => some (2, 0)
  | 3 => some (3, depth)
  | _ =>
    match feature s 5 with
    | 0 => none
    | 1 => some (2, 0)
    | 2 => some (3, 15)
    | _ => some (3, 63)

/-- That of a command; a repaired fragment goes as a PUT with COMP 0 (R102). -/
def cmdMode (s : State) (x : Cmd) : Option (Nat × Nat) :=
  if capOp x.cap = 0x10 then compMode s (cdw x.cap 0 / 512 % 4) (cdw x.cap 0 / 65536 % 256) else compMode s 0 0

/-- A command's data as its capsule asks for it to be stored: none where it is stored as it is, which a compression all of
whose blocks are stored amounts to (R243; DEDUCED, log entry 52). -/
def encoded (s : State) (x : Cmd) (data : List Byte) : Option (List Byte) :=
  (cmdMode s x).bind fun (mode, depth) =>
    let r := deflate data mode depth
    if r.2 = (data.length + 32767) / 32768 then none else some r.1

/-- The lowest of the statuses whose condition holds (R111). -/
def lowest (l : List (Bool × Nat × Nat)) : Option (Nat × Nat) :=
  (l.filter fun r => r.1).foldl (fun acc r =>
    match acc with
    | some b => if r.2.1 < b.1 then some r.2 else some b
    | none => some r.2) none

/-- K, M, TARGET_FRAG, SOURCES and PARALLEL of a REPAIR_BUILD (R101). -/
def repK (c : List Byte) : Nat := cdw c 0 % 256
def repM (c : List Byte) : Nat := cdw c 0 / 256 % 256
def repTarget (c : List Byte) : Nat := cdw c 0 / 65536 % 64
def repSources (c : List Byte) : Nat := cdw c 0 / 2 ^ 24 % 64
def repParallel (c : List Byte) : Nat := cdw c 1 % 64

/-- The source of an entry delivers its fragment. -/
def repGives (x : Cmd) (i : Nat) : Bool := (x.obs.frags.getD i none).any (·.ok)

/-- Source entries used from entry `i` on, with `held` fragments at hand (R102): in entry order, each failed source replaced
by the next unused entry, until K fragments are held. How many of them are fetched at once shows in nothing but time. -/
def repUsed (x : Cmd) : Nat → Nat → Nat → Nat
  | 0, i, _ => i
  | n + 1, i, held =>
    if repSources x.cap ≤ i || repK x.cap ≤ held then i else repUsed x n (i + 1) (held + b2n (repGives x i))

/-- Source entries that a REPAIR_BUILD uses. -/
def repEntries (x : Cmd) : Nat := repUsed x (repSources x.cap) 0 0

/-- A source entry (Table "Repair source entry"). -/
def repEntry (x : Cmd) (i : Nat) : List Byte := (x.obs.data.drop (32 * i)).take 32

/-- The fragments a REPAIR_BUILD holds: entry number, fragment index and bytes (R102). -/
def fragsHeld (x : Cmd) : List (Nat × Nat × List Byte) :=
  (List.range (repEntries x)).filterMap fun i =>
    (x.obs.frags.getD i none).bind fun f => if f.ok then some (i, field (repEntry x i) 2 1 % 64, f.bytes) else none

/-- The fragment that REPAIR_BUILD rebuilds (R250, R251): none where the fragments disagree in length or do not decode; and
whether XFM finds the set inconsistent. -/
def rebuildSet (x : Cmd) : Option (List Byte) × Bool :=
  let k := repK x.cap
  let held := fragsHeld x
  let n := ((held.map fun h => h.2.2.length).headD 0)
  let at_ (i : Nat) : Option (List Byte) := (held.find? fun h => h.2.1 = i).map fun h => h.2.2
  let have_ := (List.range (k + repM x.cap)).filterMap fun i => (at_ i).map fun f => (i, natsOf f)
  let base := have_.take k
  if !(held.all fun h => h.2.2.length = n && h.2.1 < k + repM x.cap && at_ h.2.1 = some h.2.2) || base.length < k then (none, false)
  else
    let inv := (solveMatrix gf8Mul gf8Inv (base.map fun p => ecRow k p.1)).getD []
    let data := inv.map fun row => ecCombine row (base.map Prod.snd) n
    let frag (i : Nat) : List Nat := ecCombine (ecRow k i) data n
    if have_.all fun p => frag p.1 = p.2 then (some (bytesOf (frag (repTarget x.cap))), false) else (none, true)

/-- The rebuilt fragment. -/
def rebuild (x : Cmd) : Option (List Byte) := (rebuildSet x).1

/-- A key can have its locator index (R278). -/
def locFull (s : State) (o : Option Obj) : Bool := o.isNone && maxLoc < freeLoc s

/-- The reads of a WRITE's partial blocks that fail (R114, R129). -/
def partReads (s : State) (x : Cmd) : List (Nat × Nat × Nat) :=
  match objAt s (capKey x.cap) with
  | none => []
  | some o =>
    if bandUp s o.band then
      readBlocks s x.obs.recov o (partly o (capOffset x.cap) (capLength x.cap)) (budgetUs s x.cap)
    else []

/-- What keeps a change from committing (R80, R90, R92, R93, R102, R111, R130, R246, R277, R278). DETAIL of a NO_SPACE found
here is 0 (DESIGN CHOICE, log entry 51). -/
def changeFault (s : State) (x : Cmd) : Option (Nat × Nat) :=
  let c := x.cap
  let o := objAt s (capKey c)
  let absent := o.isNone
  let gen : Bool := capIfGen c ≠ 0 && (o.map (·.gen)) ≠ some (capIfGen c)
  let band := (o.map (·.band)).getD 0
  match capOp c with
  | 0x10 => lowest [(!absent && nbit (cdw c 0) 8, 0x202, 0), (gen, 0x204, 0),
      (x.obs.vfail && (cmdMode s x).isSome, 0x306, 5), (locFull s o, 0x403, 0),
      ((bandRecord s (cdw c 0 % 64)).isNone, 0x605, 0)]
  | 0x12 => lowest ([(absent, 0x201, 0), (o.any (fun o => o.data.length < capOffset c), 0x203, 0), (gen, 0x204, 0),
      (!absent && !bandUp s band, 0x605, 0)] ++ (partReads s x).map fun f => (true, f.2))
  | 0x13 => lowest [(absent, 0x201, 0), (gen, 0x204, 0)]
  | _ =>
    let few : Bool := (fragsHeld x).length < repK c
    let d := rebuild x
    lowest [(few, 0x304, 0), (!few && d.isNone, 0x305, 5), (x.obs.vfail && d.isSome && (cmdMode s x).isSome, 0x306, 5),
      (locFull s o, 0x403, 0), ((bandRecord s band).isNone, 0x605, 0)]

/-- A new object, all of whose blocks are in the write buffer, in the format epoch in effect (R112, R140). -/
def freshObj (s : State) (x : Cmd) (old : Option Obj) (band : Nat) (d : List Byte) : Obj :=
  let g := s.svc.nextGen
  let o : Obj := ⟨capKey x.cap, d, g, band, (old.map (·.loc)).getD (freeLoc s), encoded s x d, []⟩
  { o with blocks := List.replicate o.count ⟨none, g, s.cru.epoch⟩ }

/-- An object after a WRITE (R92): the blocks that the range touches, and a last block that is last no longer, are written
again; a compressed object is stored as it is from then on (DESIGN CHOICE, log entry 51). -/
def rewritten (s : State) (x : Cmd) (o : Obj) : Obj :=
  let off := capOffset x.cap
  let n := capLength x.cap
  let g := s.svc.nextGen
  let d := o.data.take off ++ putData x ++ o.data.drop (off + n)
  let new : BlkPlace := ⟨none, g, s.cru.epoch⟩
  let r : Obj := { o with data := d, gen := g, comp := none, blocks := [] }
  let same (i : Nat) : Bool := o.comp.isNone && i < o.count && i ∉ wanted r off n && (r.count = o.count || i + 1 ≠ o.count)
  { r with blocks := (List.range r.count).map fun i => if same i then placeOf o i else new }

/-- The object that a change leaves under its key (R90, R92, R93, R102). -/
def changed (s : State) (x : Cmd) : Option Obj :=
  let old := objAt s (capKey x.cap)
  match capOp x.cap with
  | 0x10 => some (freshObj s x old (cdw x.cap 0 % 64) (putData x))
  | 0x12 => old.map (rewritten s x)
  | 0x13 => none
  | _ => some (freshObj s x old ((old.map (·.band)).getD 0) ((rebuild x).getD []))

/-- The media blocks of a key that a change replaces (R279). -/
def replaced (s : State) (x : Cmd) (new : Option Obj) : List Nat :=
  match objAt s (capKey x.cap) with
  | none => []
  | some o =>
    (mediaAddrs o (List.range o.blocks.length)).filter fun a => !(new.any fun n => n.blocks.any fun p => p.addr = some a)

/-- A change commits (R112): it draws its generation, unless it is a DELETE, and becomes visible; zones that held the blocks
it replaces hold fewer live ones (R279), and a new key takes its locator index (R278). -/
def commitChange (x : Cmd) (s : State) : State :=
  let key := capKey x.cap
  let new := changed s x
  let s := dropLive (replaced s x new) s
  let s := match new, objAt s key with
    | some o, none => newLoc o.loc s
    | _, _ => s
  let gen := match new with
    | some o => o.gen
    | none => ((objAt s key).map (·.gen)).getD 0
  let n := s.svc.nextSeq
  let loc := match new, objAt s key with
    | some o, _ => o.loc
    | none, o => (o.map (·.loc)).getD 0
  syncLoc loc <| modCmd x.seq (fun y => { y with committed := some (n, gen) }) <|
    modSvc (fun v => { v with
      objs := new.toList ++ v.objs.filter (fun o => o.key ≠ key),
      unacked := v.unacked ++ [⟨n, key, new⟩],
      nextSeq := n + 1,
      nextGen := if new.isSome then v.nextGen + 1 else v.nextGen }) s

/-- A change is durable: it is the key's content after a reset unless a later one already is (R113, R114). -/
def makeDurable (c : Change) (s : State) : State :=
  modSvc (fun v => { v with
    durable := putDurable c v.durable,
    unacked := v.unacked.filter fun u => u.seq ≠ c.seq }) s

/-- Results of a change (Table "Command results"). -/
def changeAns (x : Cmd) (gen : Nat) (new : Option Obj) : Ans :=
  match capOp x.cap, new with
  | 0x10, some o => { r0 := gen, r1 := o.stream.length }
  | 0x12, some o => { r0 := gen, r1 := o.data.length }
  | 0x50, some o => { r0 := o.data.length, r1 := (fragsHeld x).foldl (fun acc h => acc + 2 ^ h.1) 0 }
  | _, _ => { r0 := gen }

/-- Bytes of an acknowledged write that some blocks of its object stand for (R95, R122): the bytes it wrote that lie in
them, or their part of them where the stream is compressed. They are bytes of the object, before compression (DESIGN CHOICE,
log entry 51). -/
def writtenIn (x : Cmd) (o : Obj) (is : List Nat) : Nat :=
  let off := if capOp x.cap = 0x12 then capOffset x.cap else 0
  let n := if capOp x.cap = 0x12 then capLength x.cap else o.data.length
  is.foldl (fun acc i =>
    acc + (if o.comp.isSome then n * (i + 1) / orOne o.count - n * i / orOne o.count
           else min (off + n) (4096 * (i + 1)) - max off (4096 * i))) 0

/-- Whether a change that failed after its commit is durable is open (R110, R115): a free bit decides. -/
def openEnd (u : Change) (s : State) : State :=
  let (bs, s) := s.drawBytes 1
  if (byteAt bs 0).getLsbD 0 then makeDurable u s
  else modSvc (fun v => { v with unacked := v.unacked.filter fun w => w.seq ≠ u.seq }) s

/-- A change whose data and journal record are on the tier is durable, and is answered (R113). -/
def ackDone (x : Cmd) (n gen : Nat) (s : State) : State :=
  match s.svc.unacked.find? fun u => u.seq = n with
  | none => svcAnswer x { r0 := gen } s
  | some u => svcAnswer x (changeAns x gen u.new) (modSvc (fun v => { v with acks := v.acks + 1 }) (makeDurable u s))

/-- A committed change is acknowledged (R113, R230): its data goes to the staging tier with its journal record. It is not
acknowledged while the tier has no room, and ends with NO_SPACE where the media has none either (R233); a write that fails
after all rewrites ends with WRITE_FAULT. -/
def ackChange (x : Cmd) (n gen : Nat) (fault : Bool) (s : State) : State :=
  match s.svc.unacked.find? fun u => u.seq = n with
  | none => svcAnswer x { r0 := gen } s
  | some u =>
    if fault then svcAnswer x { st := 0x303, detail := 4 } (openEnd u s)
    else
      match u.new with
      | none => ackDone x n gen s
      | some o =>
        match stageObj o s.svc.acks (capOp x.cap = 0x10) s with
        | some t => ackDone x n gen (creditStaged n gen (writtenIn x o) t)
        | none =>
          if bandUp s o.band && !mediaRoom s then svcAnswer x { st := 0x403, detail := 4 } (openEnd u s) else s

/-- Bytes that a GET names, and bytes that it returns (R91). -/
def getNamed (c : List Byte) (o : Obj) : Nat := if capLength c = 0 then o.data.length - capOffset c else capLength c
def getLen (c : List Byte) (o : Obj) : Nat :=
  min (min (getNamed c o) (o.data.length - capOffset c)) (if capInline c then 448 else capBufLen c)

/-- The first `k` bytes that a GET names, to the host's buffer or inline (R76, R91). -/
def giveBytes (c : List Byte) (o : Obj) (k : Nat) (a : Ans) : Ans :=
  let d := (o.data.drop (capOffset c)).take k
  if capInline c then { a with r0 := k, r1 := o.gen, inl := d } else { a with r0 := k, r1 := o.gen, host := d }

/-- The blocks of a GET that fail. -/
def getFails (s : State) (x : Cmd) (o : Obj) : List (Nat × Nat × Nat) :=
  readBlocks s x.obs.recov o (wanted o (capOffset x.cap) (getLen x.cap o)) (budgetUs s x.cap)

/-- GET (R91, R116, R131, R277): where a block fails, the bytes before the first lost one; of a block that fails its tag
check, nothing. -/
def getAns (s : State) (x : Cmd) : Ans :=
  let c := x.cap
  match objAt s (capKey c) with
  | none => { st := 0x201 }
  | some o =>
    let n := getLen c o
    if o.data.length < capOffset c then { st := 0x203 }
    else if !bandUp s o.band then { st := 0x605 }
    else
      let fails := getFails s x o
      match lowest (fails.map fun f => (true, f.2)) with
      | none => giveBytes c o n { part := n < getNamed c o }
      | some (st, f) =>
        if st = 0x306 then { st := st, detail := f }
        else
          let lost := fails.foldl (fun m e => min m (lostFrom o e.1)) (capOffset c + n)
          giveBytes c o (lost - capOffset c) { st := st, detail := f, part := true }

/-- The actuators of some blocks of a command's object that lie on the media (R116). -/
def blockActs (s : State) (x : Cmd) (blocks : Obj → List Nat) : List Nat :=
  match objAt s (capKey x.cap) with
  | some o => (mediaAddrs o (blocks o)).map fun a => (zoneEnt s (a / 2 ^ 17)).act
  | none => []

/-- The actuators that a started command needs: where the bytes it reads have their newest copy, or where staged data is to
go (R116, R129, R136). A GET keeps those of its start. -/
def mediaActs (s : State) (x : Cmd) : List Nat :=
  let c := x.cap
  match capOp c with
  | 0x11 => x.acts
  | 0x12 => if x.committed.isSome then [] else blockActs s x fun o => partly o (capOffset c) (capLength c)
  | 0x60 => if cdw c 0 % 4 = 1 then [] else [0, 1]
  | _ => if demands x && !s.svc.staged.isEmpty then [0, 1] else []

/-- A started command needs the media. -/
def needsMedia (s : State) (x : Cmd) : Bool := x.started && !(mediaActs s x).isEmpty

/-- The media can be used (R97, R136, R569): the power state has the heads loaded, no entry is at work, and FORCE_PARK_N is
negated. -/
def mediaUp (s : State) : Bool := s.svc.ps < 2 && !(s.svc.entering.any (·.working)) && !forcePark s

/-- The media that a command needs is there, and its actuators are not fenced (R533). -/
def mediaThere (s : State) (x : Cmd) : Bool :=
  let l := mediaActs s x
  l.isEmpty || (mediaUp s && l.all fun a => !s.fenced (2 + a))

/-- HEAD (R93). -/
def headAns (s : State) (x : Cmd) : Ans :=
  match objAt s (capKey x.cap) with
  | none => { st := 0x201 }
  | some o => { r0 := o.data.length, r1 := o.gen }

/-- Order of keys: bytewise, a prefix first (R78). -/
def keyLt : List Byte → List Byte → Bool
  | [], [] => false
  | [], _ :: _ => true
  | _ :: _, [] => false
  | a :: x, b :: y => if a = b then keyLt x y else a.toNat < b.toNat

/-- Insert an object into a list in key order. -/
def insObj (o : Obj) : List Obj → List Obj
  | [] => [o]
  | p :: l => if keyLt o.key p.key then o :: p :: l else p :: insObj o l

/-- A LIST entry (Table "LIST entry"). -/
def listEntry (o : Obj) : List Byte :=
  leBytes 8 o.data.length ++ leBytes 8 o.gen ++ leBytes 2 o.key.length ++ leBytes 1 o.band ++ leBytes 5 0
    ++ fit ((o.key.length + 7) / 8 * 8) o.key

/-- The entries of a listing that fit: their objects and bytes. -/
def listFit : Nat → Nat → List Obj → List Obj × List Byte
  | 0, _, _ => ([], [])
  | _, _, [] => ([], [])
  | n + 1, room, o :: l =>
    let e := listEntry o
    if room < e.length then ([], [])
    else
      let (os, bs) := listFit n (room - e.length) l
      (o :: os, e ++ bs)

/-- A cursor: a free value, not 0 and not one that stands already, noted with the key that it stands after (R94). -/
def issueCursor (key : List Byte) (s : State) : Nat × State :=
  let (bs, s) := s.drawBytes 8
  let live := s.svc.cursors.map Prod.fst
  let v := orOne (leNat bs)
  let v := if v ∈ live then (((List.range (live.length + 1)).find? fun i => i + 1 ∉ live).getD 0) + 1 else v
  (v, modSvc (fun w => { w with cursors := (v, key) :: w.cursors }) s)

/-- LIST (R94). -/
def runList (x : Cmd) (s : State) : State :=
  let c := x.cap
  let cur := capOffset c
  match if cur = 0 then some [] else s.svc.cursors.lookup cur with
  | none => svcAnswer x { st := 0x205 } s
  | some after =>
    let all := (s.svc.objs.filter fun o => (capKey c).isPrefixOf o.key && keyLt after o.key).foldr insObj []
    let (os, bs) := listFit (cdw c 0 % 65536) (capBufLen c) all
    if os.length = all.length then svcAnswer x { r0 := os.length, host := bs } s
    else
      let (v, s) := issueCursor ((os.getLast?.map (·.key)).getD after) s
      svcAnswer x { r0 := os.length, r1 := v, host := bs } s

end Sys2Proof.Machine
end

