-- ==== Sys2Proof/Machine/SvcOps.lean ====
section
/-!
DEFINITION. Machine/SvcOps.lean: how the service image runs the outstanding commands (R87 to R108, R117 to R128): when
each one starts, what it does, and when it is answered.
-/

namespace Sys2Proof.Machine

open Sys2Proof

/-! Session, features, time and recorder. -/

/-- Answer a command and forget its queue pair's connection and log (R88). -/
def runDisconnect (x : Cmd) (s : State) : State :=
  modSvc (fun v => { v with conns := v.conns.filter fun k => k.qp ≠ x.qp }) (svcAnswer x {} s)

/-- The highest major of 2 and 3 in the range that a CONNECT asks for, 0 where there is none (R87, R139). -/
def majorFor (c : List Byte) : Nat :=
  let fits (m : Nat) : Bool := cdw c 0 / 256 % 256 ≤ m && m ≤ cdw c 0 % 256
  if fits 3 then 3 else if fits 2 then 2 else 0

/-- CONNECT (R87): of the two statuses that can apply the lower one is reported (R111). -/
def runConnect (x : Cmd) (s : State) : State :=
  let m := majorFor x.cap
  match lowest [(m = 0, 0x105, 0), (connMajor s x.qp ≠ 0, 0x107, 0)] with
  | some (st, d) => svcAnswer x { st := st, detail := d } s
  | none =>
      let k := (conn s x.qp).getD (Conn.blank x.qp)
      let s := setConn { k with major := m, role := cdw x.cap 1 % 4, peer := cdw x.cap 1 / 65536 % 16384 } s
      let (bs, s) := if m = 3 then ([1], s) else s.drawBytes 1
      svcAnswer x { r0 := m + leNat bs * 2 ^ 8 + s.cru.epoch % 65536 * 2 ^ 16 + feature s 7 * 2 ^ 32, r1 := 256 } s

/-- Text padded with spaces. -/
def padText (n : Nat) (t : String) : List Byte :=
  let b := asciiBytes t
  b ++ List.replicate (n - b.length) 0x20

/-- Version of the running image of a kind. -/
def runVersion (s : State) (kind : Nat) : Nat := ((s.cru.run.find? fun r => r.kind = kind).map (·.version)).getD 0

/-- Identify data, bytes 0 to 143 (Table "Identify data"; a serial number of fewer characters than its field is padded with
spaces: DESIGN CHOICE, log entry 51). -/
def identify (s : State) : List Byte :=
  let serial := (setting s 2).take 20
  let flags := b2n (!s.evc.unsync) + b2n s.ramOnly * 2 + b2n (s.rb (Reg.MED_SV_TANDEM 1) 31) * 4
    + b2n s.mot.regenRefused * 8
  padText 16 "EMONDARD" ++ padText 16 (if Config.partEx then "MBK-960-EX" else "MBK-960-CX")
    ++ serial ++ List.replicate (20 - serial.length) 0x20 ++ leBytes 4 s.lcState
    ++ leBytes 8 (runVersion s 2) ++ leBytes 8 (runVersion s 1) ++ [3, 1, 2, 0] ++ leBytes 2 s.cru.epoch
    ++ leBytes 2 (feature s 7) ++ leBytes 8 Config.mediaBytes ++ leBytes 8 Config.stagingBytes ++ leBytes 8 (2 ^ 36)
    ++ leBytes 2 256 ++ leBytes 2 448 ++ leBytes 2 256 ++ leBytes 2 0 ++ leBytes 4 65536 ++ leBytes 4 flags
    ++ leBytes 8 ((provisioned s).foldl (fun acc b => acc + 2 ^ b) 0) ++ [64, 16, 0, 0] ++ leBytes 4 (feature s 2)
    ++ leBytes 4 (s.dramBytes / 2 ^ 20) ++ leBytes 4 (s.rf Reg.ZONE_COUNT 19 0)

/-- Settings tags of the service image: saved features, and the format epoch (R562; DESIGN CHOICE, log entry 51). -/
def featTag : Nat := 0x100
def epochTag : Nat := 0x101

/-- A feature takes a value: with SAVE it is written to the retained settings first (R96). Where that write fails, the
answer is WRITE_FAULT with DETAIL 0 (DESIGN CHOICE, log entry 51). -/
def setFeature (x : Cmd) (s : State) : State :=
  let f := cdw x.cap 0 % 65536
  let v := cdw x.cap 1
  let old := feature s f
  let save := nbit (cdw x.cap 0) 31
  let saved := if save then s.svc.saved.set (f - 1) v else s.svc.saved
  let w : Fl := if save then writeSetting featTag (saved.flatMap (leBytes 4)) x.obs.flash s else ⟨0, none, s⟩
  if w.st ≠ 0 then svcAnswer x { st := 0x303 } w.s
  else
    let s := applyFeature f old (modSvc (fun z => { z with feats := z.feats.set (f - 1) v, saved := saved }) w.s)
    svcAnswer x { r0 := feature s f, r1 := savedFeature s f } s

/-- A SET_FEATURE waits for the point where both actuators are idle between commands: OPERATING_PROFILE, ACTUATOR_MODE and
SPINDLE_RPM (R96, R437). -/
def featWaits (s : State) (x : Cmd) : Bool :=
  decide (cdw x.cap 0 % 65536 ∈ [3, 4, 8]) && !actsIdle s

/-- SET_FEATURE (R96). -/
def runSetFeature (x : Cmd) (s : State) : State :=
  if featWaits s x then modCmd x.seq (fun y => { y with started := true }) s else setFeature x s

/-- SET_TIME (R106): the previous time, or 0 before the first. -/
def runSetTime (x : Cmd) (s : State) : State :=
  let old := if s.evc.unsync then 0 else s.evc.timeMs
  svcAnswer x { r0 := old } (setClock (capOffset x.cap) s)

/-- RECORDER_READ (R107). A freeze for the copy is over with it. -/
def runRecorderRead (x : Cmd) (s : State) : State :=
  let rs := recordsFrom s (capOffset x.cap) (min (capLength x.cap) (capBufLen x.cap / 32))
  let next := match rs.getLast? with
    | some b => (field b 8 4 + 1) % 2 ^ 32
    | none => s.evc.nextSeq
  svcAnswer x { r0 := rs.length, r1 := next, host := rs.flatten } s

/-- ERROR_LOG_READ (R125). -/
def runLogRead (x : Cmd) (s : State) : State :=
  let k := (conn s (cdw x.cap 0 % 16384)).getD (Conn.blank 0)
  let l := (k.log.filter fun e => capOffset x.cap ≤ e.seq).take (min (capLength x.cap) (capBufLen x.cap / 32))
  svcAnswer x { r0 := l.length, r1 := k.newest, host := l.flatMap (·.bytes) } s

/-! Requests to Crucible. -/

/-- Stepata status of a Crucible status (Table "Crucible status codes"). -/
def svcStatus (st : Nat) : Nat :=
  [0, 0x102, 0x604, 0x601, 0x602, 0x603, 0x404, 0x405, 0x303, 0x605].getD st 0x303

/-- The authorisation that the host's buffer holds (R104, R107): as many bytes as the lesser of LENGTH and BUFLEN says
(DESIGN CHOICE, log entry 51). -/
def authData (x : Cmd) : List Byte := x.obs.data.take (min (min (capLength x.cap) (capBufLen x.cap)) 5377)

/-- FW_STAGE (R98). -/
def runStage (x : Cmd) (s : State) : State :=
  let w := cdw x.cap 0
  let target := w % 4
  let place := cdw x.cap 1 % 64
  let slot := if target = 2 then place else inactiveSlot s (if target = 0 then 2 else 1)
  let r := reqStage target place (capOffset x.cap) (fit (capLength x.cap) x.obs.data) (nbit w 8) x.obs.flash s
  if r.st = 0 then svcAnswer x { r0 := field r.extra 0 4, r1 := slot } r.s
  else svcAnswer x { st := svcStatus r.st } r.s

/-- FW_ACTIVATE (R99, R134 step 1): live, the start of commands is paused and the hand-over follows. One that was placed
while an activation was in progress is answered by the new image, with the lowest status that applies (R111). -/
def runActivate (x : Cmd) (s : State) : State :=
  let w := cdw x.cap 0
  let kind := if w % 2 = 0 then 2 else 1
  if !stagedImage s kind then svcAnswer x { st := 0x405 } s
  else if x.during || s.svc.paused || s.cru.activation.isSome then svcAnswer x { st := 0x503 } s
  else if nbit w 8 then
    let v := (runImg s (slotBase kind (inactiveSlot s kind))).version
    let r := reqActivate (w % 2) 1 s
    svcAnswer x { r0 := v, r1 := runVersion s kind } r.s
  else modSvc (fun v => { v with paused := true }) (modCmd x.seq (fun y => { y with started := true }) s)

/-- Highest format epoch that the running service image writes (R140). -/
def epochWrite (s : State) : Nat :=
  match s.cru.svcSlot with
  | some i => field (s.flash (slotBase 2 i) 20) 18 2
  | none => 0

/-- FORMAT_EPOCH_ADVANCE (R100, R141): the epoch is in the retained settings before the reply. Where that write fails, the
answer is WRITE_FAULT with DETAIL 0 (DESIGN CHOICE, log entry 51). -/
def runEpoch (x : Cmd) (s : State) : State :=
  let e := s.cru.epoch
  let w := cdw x.cap 0 % 65536
  if w ≠ e + 1 || epochWrite s < w then svcAnswer x { st := 0x506 } s
  else
    let r := writeSetting epochTag (leBytes 2 w) x.obs.flash s
    if r.st ≠ 0 then svcAnswer x { st := 0x303 } r.s
    else svcAnswer x { r0 := w, r1 := e } (modCru (fun c => { c with epoch := w }) r.s)

/-- SANITIZE begins (R104, R502, R503): its authorisation is accepted and its pending record written; it ends as time
passes. -/
def runSanitize (x : Cmd) (s : State) : State :=
  let (r, f) := beginSanitize (cdw x.cap 0 % 4) (cdw x.cap 0 / 256 % 64) (authData x) x.obs.flash s
  if r.st = 0 then modCmd x.seq (fun y => { y with started := true, obs := { y.obs with flash := f } }) r.s
  else svcAnswer x { st := svcStatus r.st } r.s

/-- SANITIZE ends (R104, R502). -/
def endSanitize (x : Cmd) (s : State) : State :=
  let r := goOnSanitize x.obs.flash s
  svcAnswer x { st := if r.st = 0 then 0 else 0x303 } r.s

/-- ATTEST (R105). -/
def runAttest (x : Cmd) (s : State) : State :=
  let b := report (capKey x.cap) s
  svcAnswer x { r0 := b.length, host := b } s

/-- RECORDER_CLEAR (R107, R542). -/
def runRecorderClear (x : Cmd) (s : State) : State :=
  let r := reqAuthClear (authData x) s
  if r.st = 0 then svcAnswer x {} (recClear x.obs.flash r.s) else svcAnswer x { st := svcStatus r.st } r.s

/-- The counts of a SCRUB as its reply holds them (R86): beyond 65,535 they wrap (DESIGN CHOICE, log entry 51). -/
def scrubAns (x : Cmd) (st : Nat) : Ans :=
  let (n, c, r, u) := x.counts
  { st := st, r0 := n, r1 := c % 65536 + r % 65536 * 2 ^ 16 + u % 65536 * 2 ^ 32 }

/-- The block of an object that lies at an address was written again at another one (R103). -/
def rewroteAt (s : State) (old : Nat) (new : Option Nat) : Option Nat :=
  new.bind fun a =>
    if (allObjs s).any fun o => o.blocks.zipIdx.any fun (p, i) => p.addr = some old && onDisk s o i a then some a else none

/-- An address lies in what a SCRUB reads (R103): the media, the staging tier, or some zones. -/
def inScope (s : State) (c : List Byte) (a : Nat) : Bool :=
  match cdw c 0 % 4 with
  | 0 => !isStaged a && a / 2 ^ 17 < zoneCount s
  | 1 => isStaged a
  | _ => !isStaged a && capOffset c ≤ a / 2 ^ 17 && a / 2 ^ 17 < capOffset c + capLength c

/-- The sectors that a SCRUB reads: in its scope, those that hold a live block, and any more that are read (DESIGN CHOICE, log
entry 51). -/
def scrubAddrs (s : State) (x : Cmd) : List Nat :=
  (((allObjs s).flatMap fun o => o.blocks.filterMap (·.addr)) ++ x.obs.scrub.map (·.addr)).filter (inScope s x.cap)

/-- The next of them, in ascending order. -/
def scrubNext (s : State) (x : Cmd) : Option Nat := ((scrubAddrs s x).filter fun a => x.next ≤ a).min?

/-- The blocks of objects that lie at an address pass their check, where their band has its key. -/
def tagsHold (s : State) (a : Nat) : Bool :=
  (allObjs s).all fun o => o.blocks.zipIdx.all fun (p, i) =>
    p.addr ≠ some a || !bandUp s o.band || (blockAt s o a).any (tagOk o i a)

/-- A SCRUB reads the sector at an address (R103): its ladder has the budget of feature 1 to itself; with REPAIR a sector that
the outer code rebuilds is written again; the address of one that is lost goes to the recorder, as SOFT_2 (DESIGN CHOICE, log
entry 51). -/
def scrubSector (x : Cmd) (a : Nat) (s : State) : State :=
  let o := (x.obs.scrub.find? fun o => o.addr = a).getD ⟨a, false, none, none⟩
  let good := tagsHold s a
  let (st, step, _) :=
    if isStaged a then (if good then 0 else 0x306, 0, 0) else readSector s a good o.ladder (feature s 1 * 1000)
  let lost : Bool := st ≠ 0
  let new := if !lost && step = 4 && nbit (cdw x.cap 0) 8 then rewroteAt s a o.moved else none
  let s := match new with
    | some b =>
      let s := moveBlock a b s
      recordZones (addLive [b] (dropLive [a] (syncLocs (locsAt s [b]) s)))
    | none => s
  let s := if lost then raiseAs 50 0 1 (leBytes 6 a) false (setStatus 50 0 s) else s
  modCmd x.seq (fun y =>
    let (n, c, r, u) := y.counts
    { y with next := a + 1, counts := (n + 1, c + b2n (!lost && o.corrected), r + b2n new.isSome, u + b2n lost) }) s

/-! Barriers, power states, restart and abort. -/

/-- Nothing acknowledged before a mark waits on the staging tier alone (R122). -/
def stagedDone (s : State) (mark : Nat) : Bool := s.svc.staged.all fun i => mark ≤ i.ack

/-- Staged bytes (R86). -/
def stagedBytes (s : State) : Nat := s.svc.staged.foldl (fun acc i => acc + i.bytes) 0

/-- FLUSH or DESTAGE, once nothing it waits for is left but destage (R120, R122). -/
def runBarrier (x : Cmd) (s : State) : State :=
  if !demands x || stagedDone s x.mark then svcAnswer x { r0 := stagedBytes s } s
  else modCmd x.seq (fun y => { y with started := true }) s

/-- Set point of the spindle in a power state (Table "Power states"). -/
def stateRpm (s : State) (t : Nat) : Nat :=
  match t with
  | 1 => 5400
  | 3 => 0
  | _ => feature s 8

/-- An actuator's heads are on the ramp: its engine is OFF, or has parked it after a fault. -/
def headsParked (s : State) (x : Nat) : Bool :=
  match (sv s x).st with
  | .off => true
  | .fault => true
  | .held => true
  | _ => false

/-- An engine moves its actuator on to the ramp or off it. -/
def onRamp (s : State) (x : Nat) : Bool :=
  match (sv s x).st with
  | .loading => true
  | .unloading => true
  | _ => false

/-- A power state's condition holds (R97): spindle and heads, of the functions that are not fenced. -/
def stateHolds (s : State) (t : Nat) : Bool :=
  let spun : Bool := s.fenced 6 || (spdTarget s = stateRpm s t
    && (if t = 3 then s.mot.act = 0 && (match s.mot.st with
        | .stopped => true
        | _ => false) else spinOk s))
  let heads (x : Nat) : Bool := s.fenced (2 + x)
    || (if 2 ≤ t then headsParked s x else !onRamp s x && (!headsParked s x || (sv s x).st ≠ .off))
  spun && heads 0 && heads 1

/-- An actuator's part in a power-state entry: with the spindle at speed its heads are loaded, or they are unloaded. -/
def entryHeads (t x : Nat) (s : State) : State :=
  if s.fenced (2 + x) then s
  else if 2 ≤ t then (if (sv s x).st = .tracking then rampOn x s else s)
  else if (sv s x).st = .off && spinOk s && spdTarget s = stateRpm s t && !forcePark s then
    rampOff x ⟨s.rf (Reg.MED_SV_MIN_TRACK x) 23 0, false, false⟩ s
  else s

/-- The work of a power-state entry goes on (Table "Safe points of power-state entry"): for PS3 the spindle follows once both
actuators are on the ramp. -/
def entryWork (t : Nat) (s : State) : State :=
  let s := entryHeads t 1 (entryHeads t 0 s)
  if s.fenced 6 || spdTarget s = stateRpm s t || (t = 3 && !(headsParked s 0 && headsParked s 1)) then s
  else speedCommand (stateRpm s t) s

/-- The started commands that an entry lets run to their end (R133); a QUEUE_RESTART or an ABORT, which wait for others, are
not among them (DEDUCED, log entry 41). -/
def entryWaits (x : Cmd) (s : State) : List Nat :=
  (s.svc.cmds.filter fun y => y.started && y.seq ≠ x.seq && !decide (capOp y.cap ∈ [0x71, 0x72])).map (·.seq)

/-- POWER_STATE (R97, R136): entry begins; a state that is in effect is answered at once. -/
def runPowerState (x : Cmd) (s : State) : State :=
  let t := cdw x.cap 0 % 8
  if t = s.svc.ps && stateHolds s t then svcAnswer x { r0 := t, r1 := t } s
  else modSvc (fun v => { v with entering := some ⟨t, some x.seq, entryWaits x s, false⟩ })
    (modCmd x.seq (fun y => { y with started := true }) s)

/-- Time passes in an entry: its work begins once the commands it waits for have ended (R133), and goes on. -/
def entryTick (s : State) : State :=
  match s.svc.entering with
  | none => s
  | some e =>
    if e.working then entryWork e.state s
    else if s.svc.cmds.any fun y => y.seq ∈ e.waits then s
    else modSvc (fun v => { v with entering := some { e with working := true } }) s

/-- A state entered from another gives something up (R136): the actuators, or a higher spindle speed. -/
def givesUp (s : State) (p t : Nat) : Bool :=
  (t = 3 && p ≠ 3) || (t = 2 && p ≤ 1) || (t = 1 && p = 0 && 5400 < feature s 8)

/-- A command that needs the media makes the device leave PS2 or PS3 for PS0 (R438); it waits for the load. -/
def wakes (s : State) (x : Cmd) : Bool := needsMedia s x && 2 ≤ s.svc.ps && s.svc.entering.isNone
def wake (s : State) : State := modSvc (fun v => { v with entering := some ⟨0, none, [], true⟩ }) s

/-- WAKE_SEEN is polled (R570): it clears, and in PS2 or PS3 the drive enters PS0 with no reply; while another entry is in
progress it stays for a later poll (DEDUCED, log entry 41). -/
def pollWake (s : State) : State :=
  if !s.rb Reg.PWR_LATCH 0 || (2 ≤ s.svc.ps && s.svc.entering.isSome) then s
  else
    let t := s.setRb Reg.PWR_LATCH 0 false
    if 2 ≤ s.svc.ps then wake t else t

/-- An actuator that a park request of the pins has retracted (R386, R569). -/
def pinParked (s : State) (x : Nat) : Bool :=
  (sv s x).st = .fault && (sv s x).cause = 5 && (actu s x).retDone && !s.fenced (2 + x)

/-- With FORCE_PARK_N released, the actuators that it parked are loaded again (R569): their faults are cleared, and the power
state in effect is entered anew (DEDUCED, log entry 41). -/
def reloadHeads (s : State) : State :=
  let l := [0, 1].filter (pinParked s)
  if l.isEmpty || forcePark s || 2 ≤ s.svc.ps || s.svc.entering.isSome then s
  else modSvc (fun v => { v with entering := some ⟨v.ps, none, [], true⟩ }) (l.foldl (fun s x => clearFault x s) s)

/-- The pins ask something of the service image (R569, R570). -/
def pinsCall (s : State) : Bool := s.rb Reg.PWR_LATCH 0 || pinParked s 0 || pinParked s 1

/-! Repair sources. -/

/-- A capsule that this drive sends to a repair source (R102, R139). -/
def peerCapsule (op major recovery key off len c0 c1 : Nat) (k : List Byte) : List Byte :=
  leBytes 1 op ++ leBytes 1 0 ++ leBytes 2 0 ++ leBytes 1 major ++ leBytes 1 (if major = 3 then 1 else 0) ++ leBytes 2 k.length
    ++ leBytes 2 recovery ++ leBytes 2 0 ++ leBytes 4 key ++ leBytes 8 off ++ leBytes 8 len ++ leBytes 16 0
    ++ leBytes 4 c0 ++ leBytes 4 c1 ++ leBytes 8 0 ++ fit ((k.length + 7) / 8 * 8) k

/-- A capsule goes to the source of an entry, on the queue pair that leads to it. -/
def toSource (x : Cmd) (i : Nat) (f : FragObs) (bytes : List Byte) (s : State) : State :=
  netSend (.toPeer f.qp (field (repEntry x i) 0 2 % 2 ^ 14) ((repEntry x i).drop 8 |>.take 16) bytes) s

/-- A buffer of `n` bytes is advertised on a queue pair (R58, R102): its entry, base and key. Base and key are the image's
choice, free values; where no entry is free, none is written. -/
def advertise (q n : Nat) (s : State) : Option Nat × Nat × Nat × State :=
  let (bs, s) := s.drawBytes 12
  let key := field bs 0 4
  let base := dramBase + field bs 4 8 % 2 ^ 34
  match (List.range 4096).find? fun e => (Sparse.get (fun _ => Adv.none) s.net.adv e).qp = 0 with
  | some e => (some e, base, key, modNet (fun m => { m with adv := Sparse.set (fun _ => Adv.none) m.adv e ⟨q, base, n, key⟩ }) s)
  | none => (none, base, key, s)

/-- A source is connected, with ROLE 1 and majors 2 to 3, and its fragment fetched with a GET of the same key under the
major it chose, with the command's RECOVERY_MS, into an advertised buffer as long as the fragment (R102, R139; that length
is a DESIGN CHOICE, log entry 51). A source that cannot be reached gets nothing. -/
def askSource (x : Cmd) (i : Nat) (s : State) : State :=
  match x.obs.frags.getD i none with
  | none => s
  | some f =>
    let s := toSource x i f (peerCapsule 1 3 0 0 0 0 (3 + 2 * 2 ^ 8) (1 + feature s 7 * 2 ^ 16) []) s
    let (e, base, key, s) := advertise f.qp f.bytes.length s
    let s := modCmd x.seq (fun y => { y with advs := y.advs ++ e.toList }) s
    toSource x i f (peerCapsule 0x11 f.major (field x.cap 8 2) key base f.bytes.length 0 0 (capKey x.cap)) s

/-- The connections to the sources are closed (R127). -/
def closeSources (x : Cmd) (s : State) : State :=
  (List.range (repEntries x)).foldl (fun s i =>
    match x.obs.frags.getD i none with
    | some f => toSource x i f (peerCapsule 2 f.major 0 0 0 0 0 0 []) s
    | none => s) s

/-- The host's data that a command works on is pulled by RDMA READ (R90). -/
def pull (x : Cmd) (s : State) : State :=
  if capInline x.cap || capBufLen x.cap = 0 then s
  else netSend (.rdmaRead x.qp (capBufAddr x.cap) (capBufKey x.cap) (capBufLen x.cap)) s

/-- A change starts: its data is pulled, a repair's sources are fetched; it goes on until WRITE_COMMIT and
WRITE_ACKNOWLEDGE. -/
def startChange (x : Cmd) (s : State) : State :=
  let s := if capOp x.cap = 0x13 then s else pull x s
  let s := if capOp x.cap = 0x50 then (List.range (repEntries x)).foldl (fun s i => askSource x i s) s else s
  modCmd x.seq (fun y => { y with started := true }) s

/-- GET (R91): from the write buffer and the staging tier at once; a read of the media runs on with the bytes of the
generation that it observes (R114, R116). -/
def runGet (x : Cmd) (s : State) : State :=
  let a := getAns s x
  let acts := blockActs s x fun o => wanted o (capOffset x.cap) (getLen x.cap o)
  let s := match objAt s (capKey x.cap) with
    | some o => touchHot o.loc s
    | none => s
  if acts.isEmpty then svcAnswer x a s
  else modCmd x.seq (fun y => { y with started := true, due := some a, acts := acts }) s

/-- A command is held by the freeze of its queue pair (R123): placed before the freeze point and not started then. -/
def heldBy (s : State) (y : Cmd) : Bool := (frozenBy s y.qp).isSome && (y.checked || y.early) && !y.started && !y.before

/-- ABORT examines its target (R127, R128). -/
def runAbort (x : Cmd) (s : State) : State :=
  let tq := cdw x.cap 1 % 16384
  match s.svc.cmds.find? fun y => y.qp = tq && capTag y.cap = cdw x.cap 0 % 65536 && y.seq ≠ x.seq && !y.mute with
  | none => svcAnswer x { r0 := 1 } s
  | some y =>
    let op := capOp y.cap
    let caught : Bool := (op ≠ 0x72 && heldBy s y) || decide (op ∈ [0x11, 0x14, 0x15, 0x03, 0x62, 0x64, 0x70, 0x20, 0x21, 0x22, 0x60])
      || (decide (op ∈ [0x10, 0x12, 0x13, 0x50]) && y.committed.isNone)
      || (op = 0x40 && !y.started)
    if caught then
      let s := if op = 0x50 && y.started then closeSources y s else s
      svcAnswer x {} (svcAnswer y (if op = 0x60 then scrubAns y 0x504 else { st := 0x504 }) s)
    else modCmd x.seq (fun z => { z with started := true, mark := y.seq }) s

/-- QUEUE_RESTART (R108): it waits where its ERR_SEQ matches. -/
def runRestart (x : Cmd) (s : State) : State :=
  if frozenBy s (cdw x.cap 0 % 16384) = some (cdw x.cap 1) then modCmd x.seq (fun y => { y with started := true }) s
  else svcAnswer x { st := 0x102, detail := 52 } s

/-- QUEUE_RESTART ends (R126): held commands are discarded, and the queue pair is unfrozen. -/
def endRestart (x : Cmd) (s : State) : State :=
  let q := cdw x.cap 0 % 16384
  let held := s.svc.cmds.filter fun y => y.qp = q && heldBy s y
  let s := held.foldl (fun s y => svcAnswer y { st := 0x505 } s) s
  let s := match conn s q with
    | some k => setConn { k with frozen := none } s
    | none => s
  svcAnswer x {} s

/-! The order of starts. -/

/-- An opcode that changes an object. -/
def changes (op : Nat) : Bool := decide (op ∈ [0x10, 0x12, 0x13, 0x50])

/-- An opcode that reads an object or lists. -/
def reads (op : Nat) : Bool := decide (op ∈ [0x11, 0x14, 0x15])

/-- Two object commands of which one changes an object that the other names (R117). -/
def conflict (a b : Cmd) : Bool :=
  let oa := capOp a.cap
  let ob := capOp b.cap
  let ka := capKey a.cap
  let kb := capKey b.cap
  (changes oa || reads oa) && (changes ob || reads ob) && (changes oa || changes ob)
    && (if oa = 0x15 then ka.isPrefixOf kb else if ob = 0x15 then kb.isPrefixOf ka else ka = kb)

/-- An opcode that Crucible carries out. -/
def forCrucible (op : Nat) : Bool := decide (op ∈ [0x40, 0x41, 0x61, 0x62, 0x65])

/-- A checked command may start, with the commands placed before it (R117 to R123, R134, R136): only the ordering rules keep
it, not the media. A command that has started once, before the freeze point of its queue pair, is not held (R123, R133). -/
def mayStart (s : State) (earlier : List Cmd) (x : Cmd) : Bool :=
  let op := capOp x.cap
  let mine := earlier.filter fun y => y.qp = x.qp
  if s.svc.paused then false
  else if op ∈ [0x03, 0x70, 0x71, 0x72] then true
  else if (frozenBy s x.qp).isSome && !x.before then false
  else
    mine.all (fun y => !(capOp y.cap = 0x20 || capOp y.cap = 0x22) && !(conflict y x && y.committed.isNone && y.due.isNone))
    && (if op = 0x02 || op = 0x20 then mine.isEmpty else true)
    && (if op = 0x22 then mine.all fun y => y.committed.isSome else true)
    && (if op = 0x32 then s.svc.entering.isNone && !(earlier.any fun y => capOp y.cap = 0x32) else true)
    && (if forCrucible op then cruFree s && s.cru.activation.isNone else true)

/-- A command starts. Those that change an object go on until WRITE_COMMIT and WRITE_ACKNOWLEDGE; the others do their work
and are answered here, but for those that wait for destage, a target, started commands, or an entry. -/
def startCmd (x : Cmd) (s : State) : State :=
  match capOp x.cap with
  | 0x01 => runConnect x s
  | 0x02 => runDisconnect x s
  | 0x03 => svcAnswer x { r0 := 4096, host := fit 4096 (identify s) } s
  | 0x11 => runGet x s
  | 0x14 => svcAnswer x (headAns s x) s
  | 0x15 => runList x s
  | 0x20 => runBarrier x s
  | 0x21 => runBarrier x s
  | 0x22 => svcAnswer x {} s
  | 0x30 => svcAnswer x { r0 := feature s (cdw x.cap 0 % 65536), r1 := savedFeature s (cdw x.cap 0 % 65536) } s
  | 0x31 => runSetFeature x s
  | 0x32 => runPowerState x s
  | 0x40 => runStage x (pull x s)
  | 0x41 => runActivate x s
  | 0x42 => runEpoch x s
  | 0x60 => modCmd x.seq (fun y => { y with started := true }) s
  | 0x61 => runSanitize x (pull x s)
  | 0x62 => runAttest x s
  | 0x63 => runSetTime x s
  | 0x64 => runRecorderRead x s
  | 0x65 => runRecorderClear x (pull x s)
  | 0x70 => runLogRead x s
  | 0x71 => runRestart x s
  | 0x72 => runAbort x s
  | _ => startChange x s

/-- What a started command waits for has come: how it ends. -/
def finishCmd (x : Cmd) (s : State) : Option State :=
  let op := capOp x.cap
  if demands x then (if stagedDone s x.mark then some (svcAnswer x { r0 := stagedBytes s } s) else none)
  else if op = 0x72 then
    if s.svc.cmds.any fun y => y.seq = x.mark then none else some (svcAnswer x { r0 := 1 } s)
  else if op = 0x71 then
    let q := cdw x.cap 0 % 16384
    if s.svc.cmds.any fun y => y.qp = q && y.before && y.seq ≠ x.seq then none else some (endRestart x s)
  else if op = 0x31 then (if featWaits s x then none else some (setFeature x s))
  else none

/-- What a command does next, if anything: its checks, its start, a wake of the drive, or its end. While a live activation
holds the start of commands, capsules wait for the new image unchecked (R134), and so do those of a queue pair that is about
to be unconnected (R138). -/
def tryCmd (s : State) (earlier : List Cmd) (x : Cmd) : Option State :=
  if !x.checked then
    if s.svc.paused || (conn s x.qp).any (·.leaving) then none
    else match capCheck s earlier x with
    | some (st, d) => some (svcAnswer x { st := st, detail := d, dup := st = 0x104 } s)
    | none => some (modCmd x.seq (fun y => { y with checked := true }) s)
  else if x.started then
    if x.suspended then none
    else
      match finishCmd x s with
      | some t => some t
      | none => if wakes s x then some (wake s) else none
  else if mayStart s earlier x then some (startCmd x s)
  else none

/-- The first command in placement order that has something to do. -/
def tryCmds (s : State) (earlier : List Cmd) : List Cmd → Option State
  | [] => none
  | x :: rest =>
    match tryCmd s earlier x with
    | some t => some t
    | none => tryCmds s (earlier ++ [x]) rest

/-- The service image runs and NET sends for it: no fence, no HOLD (R34, R62). -/
def svcLive (s : State) : Bool := svcRuns s && netLive s && !s.rb Reg.NET_CTRL 16

/-- Queue pairs whose major the running image does not serve are unconnected, once their started commands are answered
(R138). -/
def settleConns (s : State) : State :=
  let busy (q : Nat) : Bool := s.svc.cmds.any fun y => y.qp = q && y.started
  modSvc (fun v => { v with conns := v.conns.map fun k =>
    if k.leaving && !(busy k.qp) then { k with major := 0, leaving := false } else k }) s

/-- Let the outstanding commands go on as far as they can. -/
def pumpN : Nat → State → State
  | 0, s => s
  | n + 1, s =>
    if svcLive s then
      let s := settleConns s
      match tryCmds s [] s.svc.cmds with
      | some t => pumpN n t
      | none => s
    else s

/-- Let the outstanding commands go on: each has at most its checks, a wake, its start and its end to do. -/
def pump (s : State) : State := pumpN (4 * s.svc.cmds.length + 4) s

/-- Nothing posted yet by the present command. -/
def svcFresh (s : State) : State := modSvc (fun v => { v with replies := [] }) (netFresh s)

/-- The command of a capsule that is placed (R60, R81). -/
def placedCmd (op q : Nat) (cap : List Byte) (o : CmdObs) (s : State) : Cmd :=
  { seq := s.svc.placed, qp := q, cap := capOf op cap, obs := o, checked := false, early := false, started := false,
    before := false, during := s.svc.paused, due := none, acts := [], next := 0, advs := [], counts := (0, 0, 0, 0),
    committed := none, mute := false, suspended := false, mark := s.svc.acks }

/-- The capsule joins the outstanding commands. -/
def placeCmd (op q : Nat) (cap : List Byte) (o : CmdObs) (s : State) : State :=
  modSvc (fun v => { v with placed := v.placed + 1, cmds := v.cmds ++ [placedCmd op q cap o s] }) s

/-- A capsule can be placed: its queue pair is in RTS, and NET runs. -/
def mayPlace (q : Nat) (s : State) : Bool :=
  (match (qp s q).st with
    | .rts => true
    | _ => false) && netLive s && s.pwr.inReset.isNone && s.bud.quenched.isNone

/-- A capsule is placed (R60, R81), and the service image goes on. -/
def capsule (op : Nat) (q : Fin 16384) (cap : List Byte) (o : CmdObs) (s : State) : State :=
  if mayPlace q s then pump (placeCmd op q cap o (svcFresh s)) else s

/-- A capsule whose opcode no major defines is placed by a SEND message (R84): it brings nothing with it. -/
def rawCapsule (q : Nat) (cap : List Byte) (s : State) : State :=
  pump (placeCmd (capOp cap) q cap ⟨[], [], none, false, [], []⟩ (modSvc (fun v => { v with replies := [] }) s))

/-- Time passes for a started command, once the media that it needs is there: a read of the media ends, a scrub reads its
next sector or is answered, a sanitize ends. -/
def tickCmd (x : Cmd) (s : State) : State :=
  if !x.started || x.suspended || !mediaThere s x then s
  else
    match x.due, capOp x.cap with
    | some a, _ => svcAnswer x a s
    | none, 0x60 =>
      match scrubNext s x with
      | some a => scrubSector x a s
      | none => svcAnswer x (scrubAns x 0) s
    | none, 0x61 => if cruFree s then endSanitize x s else s
    | _, _ => s

/-- Time passes for the service image. -/
def svcTick (s : State) : State :=
  if !svcLive s then s else reloadHeads (pollWake (entryTick (s.svc.cmds.foldl (fun s x => tickCmd x s) s)))

/-- The outstanding command of a queue pair with a tag. -/
def cmdAt (s : State) (q tag : Nat) : Option Cmd := s.svc.cmds.find? fun x => x.qp = q && capTag x.cap = tag && x.checked

end Sys2Proof.Machine
end

