-- ==== Sys2Proof/Machine/SvcCmds.lean ====
section
/-!
DEFINITION. Machine/SvcCmds.lean: the Stepata commands (spec/03, spec/04) and the events of the Standard Service image.
Each opcode's command is the placing of its capsule.
-/

namespace Sys2Proof.Machine

open Sys2Proof Host

/-- CONNECT (R87): negotiates the major revision. -/
def execConnect (q : Fin 16384) (cap : List Byte) (obs : CmdObs) (s : State) : Res := s.whenLive fun s => capsule 0x01 q cap obs s

/-- DISCONNECT (R88): ends the connection once the earlier commands are answered. -/
def execDisconnect (q : Fin 16384) (cap : List Byte) (obs : CmdObs) (s : State) : Res := s.whenLive fun s => capsule 0x02 q cap obs s

/-- IDENTIFY (R89): identify data to the host. -/
def execIdentify (q : Fin 16384) (cap : List Byte) (obs : CmdObs) (s : State) : Res := s.whenLive fun s => capsule 0x03 q cap obs s

/-- PUT (R90): creates or replaces an object. -/
def execPut (q : Fin 16384) (cap : List Byte) (obs : CmdObs) (s : State) : Res := s.whenLive fun s => capsule 0x10 q cap obs s

/-- GET (R91): returns a range of an object. -/
def execGet (q : Fin 16384) (cap : List Byte) (obs : CmdObs) (s : State) : Res := s.whenLive fun s => capsule 0x11 q cap obs s

/-- WRITE (R92): replaces a range of an object. -/
def execWrite (q : Fin 16384) (cap : List Byte) (obs : CmdObs) (s : State) : Res := s.whenLive fun s => capsule 0x12 q cap obs s

/-- DELETE (R93): removes an object. -/
def execDelete (q : Fin 16384) (cap : List Byte) (obs : CmdObs) (s : State) : Res := s.whenLive fun s => capsule 0x13 q cap obs s

/-- HEAD (R93): size and generation. -/
def execHead (q : Fin 16384) (cap : List Byte) (obs : CmdObs) (s : State) : Res := s.whenLive fun s => capsule 0x14 q cap obs s

/-- LIST (R94): entries of a key prefix. -/
def execList (q : Fin 16384) (cap : List Byte) (obs : CmdObs) (s : State) : Res := s.whenLive fun s => capsule 0x15 q cap obs s

/-- FLUSH (R95, R120): a barrier. -/
def execFlush (q : Fin 16384) (cap : List Byte) (obs : CmdObs) (s : State) : Res := s.whenLive fun s => capsule 0x20 q cap obs s

/-- DESTAGE (R95, R122): waits for the disk. -/
def execDestage (q : Fin 16384) (cap : List Byte) (obs : CmdObs) (s : State) : Res := s.whenLive fun s => capsule 0x21 q cap obs s

/-- ORDER (R120): a barrier on commits. -/
def execOrder (q : Fin 16384) (cap : List Byte) (obs : CmdObs) (s : State) : Res := s.whenLive fun s => capsule 0x22 q cap obs s

/-- GET_FEATURE (R96). -/
def execGetFeature (q : Fin 16384) (cap : List Byte) (obs : CmdObs) (s : State) : Res := s.whenLive fun s => capsule 0x30 q cap obs s

/-- SET_FEATURE (R96). -/
def execSetFeature (q : Fin 16384) (cap : List Byte) (obs : CmdObs) (s : State) : Res := s.whenLive fun s => capsule 0x31 q cap obs s

/-- POWER_STATE (R97, R136): begins an entry. -/
def execPowerState (q : Fin 16384) (cap : List Byte) (obs : CmdObs) (s : State) : Res := s.whenLive fun s => capsule 0x32 q cap obs s

/-- FW_STAGE (R98): a chunk of an image. -/
def execFwStage (q : Fin 16384) (cap : List Byte) (obs : CmdObs) (s : State) : Res := s.whenLive fun s => capsule 0x40 q cap obs s

/-- FW_ACTIVATE (R99, R134). -/
def execFwActivate (q : Fin 16384) (cap : List Byte) (obs : CmdObs) (s : State) : Res := s.whenLive fun s => capsule 0x41 q cap obs s

/-- FORMAT_EPOCH_ADVANCE (R100, R141). -/
def execFormatEpochAdvance (q : Fin 16384) (cap : List Byte) (obs : CmdObs) (s : State) : Res := s.whenLive fun s => capsule 0x42 q cap obs s

/-- REPAIR_BUILD (R101, R102): rebuilds a fragment. -/
def execRepairBuild (q : Fin 16384) (cap : List Byte) (obs : CmdObs) (s : State) : Res := s.whenLive fun s => capsule 0x50 q cap obs s

/-- SCRUB (R103). -/
def execScrub (q : Fin 16384) (cap : List Byte) (obs : CmdObs) (s : State) : Res := s.whenLive fun s => capsule 0x60 q cap obs s

/-- SANITIZE (R104). -/
def execSanitize (q : Fin 16384) (cap : List Byte) (obs : CmdObs) (s : State) : Res := s.whenLive fun s => capsule 0x61 q cap obs s

/-- ATTEST (R105). -/
def execAttest (q : Fin 16384) (cap : List Byte) (obs : CmdObs) (s : State) : Res := s.whenLive fun s => capsule 0x62 q cap obs s

/-- SET_TIME (R106). -/
def execSetTime (q : Fin 16384) (cap : List Byte) (obs : CmdObs) (s : State) : Res := s.whenLive fun s => capsule 0x63 q cap obs s

/-- RECORDER_READ (R107). -/
def execRecorderRead (q : Fin 16384) (cap : List Byte) (obs : CmdObs) (s : State) : Res := s.whenLive fun s => capsule 0x64 q cap obs s

/-- RECORDER_CLEAR (R107). -/
def execRecorderClear (q : Fin 16384) (cap : List Byte) (obs : CmdObs) (s : State) : Res := s.whenLive fun s => capsule 0x65 q cap obs s

/-- ERROR_LOG_READ (R108, R125). -/
def execErrorLogRead (q : Fin 16384) (cap : List Byte) (obs : CmdObs) (s : State) : Res := s.whenLive fun s => capsule 0x70 q cap obs s

/-- QUEUE_RESTART (R108, R126). -/
def execQueueRestart (q : Fin 16384) (cap : List Byte) (obs : CmdObs) (s : State) : Res := s.whenLive fun s => capsule 0x71 q cap obs s

/-- ABORT (R127). -/
def execAbort (q : Fin 16384) (cap : List Byte) (obs : CmdObs) (s : State) : Res := s.whenLive fun s => capsule 0x72 q cap obs s

/-- An event of the service image's own work, while it runs and NET sends for it. -/
def whenSvc (k : State → State) (s : State) : State := if svcLive s then k (svcFresh s) else s

/-- Answer the command of an entry, where it has one. -/
def answerEntry (e : Entering) (a : Ans) (s : State) : State :=
  (s.svc.cmds.filter fun y => some y.seq = e.cmd).foldl (fun s y => svcAnswer y a s) s

/-- An entry ends: its state is in effect, and its command is answered. -/
def enterState (e : Entering) (s : State) : State :=
  let old := s.svc.ps
  pump (answerEntry e { r0 := e.state, r1 := old } (modSvc (fun v => { v with ps := e.state, entering := none }) s))

/-- A command waits that needs what an entry gives up, and the entry stands at a safe point: no actuator is on its way to the
ramp (R136, Table "Safe points of power-state entry"). -/
def reverses (e : Entering) (s : State) : Bool :=
  e.cmd.isSome && e.working && givesUp s s.svc.ps e.state && !(2 ≤ e.state && (onRamp s 0 || onRamp s 1))
    && s.svc.cmds.any fun y => !y.suspended && needsMedia s y

/-- POWER_STATE_ENTERED (R97, R136): the state that is being entered, or returned to, holds, and no
command that needs what the entry gives up has come. -/
def execPowerStateEntered (s : State) : Res :=
  s.whenLive fun s => whenSvc (fun s =>
    match s.svc.entering with
    | some e => if e.working && stateHolds s e.state && !reverses e s then enterState e s else s
    | none => s) s

/-- POWER_STATE_REVERSAL (R136): the device goes back to the state in effect, which the entry's command is answered with. -/
def execPowerStateReversal (s : State) : Res :=
  s.whenLive fun s => whenSvc (fun s =>
    match s.svc.entering with
    | some e =>
      if reverses e s then
        let p := s.svc.ps
        pump (answerEntry e { r0 := p, r1 := p } (modSvc (fun v => { v with entering := some ⟨p, none, [], true⟩ }) s))
      else s
    | none => s) s

/-- What XFM raises for a change that ends with a status: an inconsistent set of the repair's XFM 3 job (R250, R251), or the
three mismatches and the VERIFY_FAIL of its compression (R246). -/
def noteSet (x : Cmd) (st : Nat) (s : State) : State :=
  if capOp x.cap = 0x50 && st = 0x305 && (rebuildSet x).2 then xfmEvent 3 (s.bump Reg.XFM_EC_INCONSISTENT)
  else if capOp x.cap ≠ 0x12 && st = 0x306 then
    let miss (s : State) : State := xfmEvent 0 (s.bump Reg.XFM_VERIFY_MISMATCH)
    xfmEvent 1 (miss (miss (miss s)))
  else s

/-- WRITE_COMMIT (R112): a started change commits, or is answered with what keeps it from it. -/
def execWriteCommit (q : Fin 16384) (tag : BitVec 16) (s : State) : Res :=
  s.whenLive fun s => whenSvc (fun s =>
    match cmdAt s q tag.toNat with
    | some x =>
      if changes (capOp x.cap) && x.started && x.committed.isNone && !x.suspended && mediaThere s x then
        match changeFault s x with
        | some (st, d) => pump (svcAnswer x { st := st, detail := d } (noteSet x st s))
        | none => pump (commitChange x s)
      else s
    | none => s) s

/-- WRITE_ACKNOWLEDGE (R113): a committed change is non-volatile and is answered; `fault`: its write failed after all
rewrites (R110). -/
def execWriteAcknowledge (q : Fin 16384) (tag : BitVec 16) (fault : Bool) (s : State) : Res :=
  s.whenLive fun s => whenSvc (fun s =>
    match cmdAt s q tag.toNat with
    | some x =>
      match x.committed with
      | some (n, gen) => if x.suspended then s else pump (ackChange x n gen fault s)
      | none => s
    | none => s) s

/-- Suspend what still runs, but for the activation itself (R134 step 2). -/
def suspend (y : Cmd) : Cmd := if y.started && capOp y.cap ≠ 0x41 then { y with suspended := true } else y

/-- ACTIVATION_SUSPEND (R134 steps 2 and 3): 100 ms into a live activation, commands that still run are suspended, HOLD is
set, and the new image takes control. -/
def execActivationSuspend (s : State) : Res :=
  s.whenLive fun s => whenSvc (fun s =>
    if s.svc.paused && s.cru.activation.isNone && cruFree s && stagedImage s 2 then
      activateLive (modSvc (fun v => { v with cmds := v.cmds.map suspend }) s)
    else s) s

/-- The end of a live activation for the commands (R134 step 4, R135): HOLD falls, suspended commands resume, FW_ACTIVATE is
answered, and held capsules start. -/
def activationEnds (a : Ans) (s : State) : State :=
  let s := netRelease (modSvc (fun v => { v with paused := false, cmds := v.cmds.map fun (y : Cmd) =>
    { y with suspended := false } }) (svcFresh s))
  pump ((s.svc.cmds.filter fun y => y.started && capOp y.cap = 0x41).foldl (fun s y => svcAnswer y a s) s)

/-- Queue pairs whose major a version of the service image does not serve are to be unconnected once their commands that
started are answered; the others meet the checks again then (R138). -/
def dropUnserved (version : Nat) (s : State) : State :=
  let gone (q : Nat) : Bool := connMajor s q ≠ 0 && !Config.servesMajor version (connMajor s q)
  modSvc (fun v => { v with
    conns := v.conns.map fun k => if gone k.qp then { k with leaving := true } else k,
    cmds := v.cmds.map fun (y : Cmd) => if gone y.qp && !y.started then { y with checked := false } else y }) s

/-- ACTIVATION_TIMEOUT (R135): no READY by 450 ms: the old image goes on and answers NO_IMAGE. -/
def execActivationTimeout (s : State) : Res :=
  s.whenLive fun s => if s.cru.activation.isSome then activationEnds { st := 0x405 } (activationFail s) else s

/-- DESTAGE_START (R231): staged writes fill their region to DESTAGE_HIGH_WATER. -/
def execDestageStart (s : State) : Res :=
  s.whenLive fun s => whenSvc (fun s => modSvc (fun v => { v with destaging := v.destaging || atHighWater s }) s) s

/-- STAGED_PAGE_RELEASE (R231, R232): the media writes of the next page ended OK, its live blocks lying at the physical block
addresses `pbas`, and its journal record is programmed. -/
def execStagedPageRelease (pbas : List (BitVec 36)) (s : State) : Res :=
  s.whenLive fun s => whenSvc (fun s =>
    match nextPage s with
    | some p =>
      let as := pbas.map BitVec.toNat
      if mayDestage s && mediaUp s && (as.all fun a => !s.fenced (2 + (zoneEnt s (a / 2 ^ 17)).act)) && pageOnDisk s p as then pump (releasePage p as s) else s
    | none => s) s

end Sys2Proof.Machine
end

