-- ==== Sys2Proof/Machine/CruMail.lean ====
section
/-!
DEFINITION. Machine/CruMail.lean: the Crucible mailbox (R31, R519, R520): its FIFOs, and each request as Crucible serves it.
-/

namespace Sys2Proof.Machine

open Sys2Proof Host

/-- Bytes of eight registers. -/
def regBytes (a : Nat → Nat) (s : State) : List Byte := (List.range 8).flatMap fun w => leBytes 4 (s.reg (a w)).toNat

/-- MAILBOX_SEND (R519): SVC_CMBX_TX_GO; MBX_REQ where the FIFO was empty. -/
def execMailboxSend (s : State) : Res :=
  s.whenLive fun s =>
    if 16 ≤ s.cru.rx.length then s
    else
      let first := s.cru.rx.isEmpty
      let s := modCru (fun c => { c with rx := c.rx ++ [regBytes Reg.SVC_CMBX_TX s] }) s
      if first then cruEvent 1 s else s

/-- MAILBOX_REPLY (R519): CRU_MBX_TX_GO. -/
def execMailboxReply (s : State) : Res :=
  s.whenLive fun s => if 16 ≤ s.cru.tx.length then s else modCru (fun c => { c with tx := c.tx ++ [regBytes Reg.CRU_MBX_TX s] }) s

/-- CRU_MBX_POP (R519): the head request is removed. -/
def execCruMbxPop (s : State) : Res := s.whenLive fun s => modCru (fun c => { c with rx := c.rx.drop 1 }) s

/-- SVC_CMBX_POP (R523): the head reply is removed. -/
def execSvcCmbxPop (s : State) : Res := s.whenLive fun s => modCru (fun c => { c with tx := c.tx.drop 1 }) s

/-- Crucible serves a request of the service image and composes its reply (R519, R520). -/
def serve (op : Nat) (seq : BitVec 8) (k : State → Rq) (s : State) : State :=
  let up : Bool := match s.cru.boot with
    | .released => true
    | _ => false
  if cruFree s && up then
    let r := k s
    cruReply op seq r.st r.extra r.s
  else s

/-- A request whose authorisation stands at an address (R519). -/
def withAuth (a : Nat) (k : List Byte → State → Rq) (s : State) : Rq :=
  if cruMay s a 5376 then k (s.bytes a 5376) s else .no 1 s

/-- FLASH_WRITE (R519). -/
def execFlashWrite (seq : BitVec 8) (off : BitVec 32) (src : BitVec 40) (len : BitVec 32) (fl : Option Nat) (s : State) : Res :=
  s.whenLive fun s => serve 1 seq (reqFlashWrite off.toNat src.toNat len.toNat fl) s

/-- FLASH_ERASE (R519). -/
def execFlashErase (seq : BitVec 8) (off : BitVec 32) (kind : BitVec 8) (fl : Option Nat) (s : State) : Res :=
  s.whenLive fun s => serve 2 seq (reqFlashErase off.toNat kind.toNat fl) s

/-- SETTINGS_WRITE (R519, R564). -/
def execSettingsWrite (seq : BitVec 8) (tag : BitVec 16) (src : BitVec 40) (len : BitVec 32) (fl : Option Nat) (s : State) :
    Res :=
  s.whenLive fun s => serve 3 seq (reqSettings tag.toNat src.toNat len.toNat fl) s

/-- STAGE (R512). -/
def execStage (seq : BitVec 8) (target place : BitVec 8) (off : BitVec 32) (src : BitVec 40) (len : BitVec 32) (final : Bool)
    (fl : Option Nat) (s : State) : Res :=
  s.whenLive fun s => serve 0x10 seq (fun s =>
    if cruMay s src.toNat len.toNat then
      reqStage target.toNat place.toNat off.toNat (s.bytes src.toNat len.toNat) final fl s
    else .no 1 s) s

/-- ACTIVATE (R513, R514). -/
def execActivate (seq : BitVec 8) (target mode : BitVec 8) (s : State) : Res :=
  s.whenLive fun s => serve 0x11 seq (reqActivate target.toNat mode.toNat) s

/-- READY (R508, R134 steps 4 and 5): it also ends a live activation for the commands. -/
def execReady (seq : BitVec 8) (s : State) : Res :=
  s.whenLive fun s => serve 0x12 seq (fun s =>
    let live := s.cru.activation
    let s := reqReady s
    match live with
    | some (new, old) =>
      let v (i : Nat) : Nat := (runImg s (slotBase 2 i)).version
      .no 0 (activationEnds { r0 := v new, r1 := v old } (dropUnserved (v new) s))
    | none => .no 0 s) s

/-- BAND_CREATE (R501). -/
def execBandCreate (seq : BitVec 8) (band : BitVec 8) (fl : Option Nat) (s : State) : Res :=
  s.whenLive fun s => serve 0x20 seq (reqBandCreate band.toNat fl) s

/-- CRU_SANITIZE (R502): the objects of the bands destroyed are unreadable from then on. -/
def execCruSanitize (seq : BitVec 8) (action band : BitVec 8) (a : BitVec 40) (fl : Option Nat) (s : State) : Res :=
  s.whenLive fun s => serve 0x21 seq (withAuth a.toNat fun auth s =>
    let gone := doomed s action.toNat band.toNat
    let r := reqSanitize action.toNat band.toNat auth fl s
    if r.st = 0 then { r with s := destroyBands gone false r.s } else r) s

/-- AUTH_CHECK (R516, R542). -/
def execAuthCheck (seq : BitVec 8) (action : BitVec 8) (a : BitVec 40) (s : State) : Res :=
  s.whenLive fun s => serve 0x22 seq (fun s => if action = 8 then withAuth a.toNat reqAuthClear s else .no 1 s) s

/-- CRU_ATTEST (R517): the report for the 32-byte nonce goes to a destination. -/
def execCruAttest (seq : BitVec 8) (nonce dst : BitVec 40) (s : State) : Res :=
  s.whenLive fun s => serve 0x23 seq (fun s =>
    if cruMay s nonce.toNat 32 && cruMay s dst.toNat 5773 then
      .no 0 (s.setBytes dst.toNat (report (s.bytes nonce.toNat 32) s))
    else .no 1 s) s

/-- WINDOW_SET (R493). -/
def execWindowSet (seq : BitVec 8) (set index : BitVec 8) (base limit : BitVec 40) (en : Bool) (s : State) : Res :=
  s.whenLive fun s => serve 0x30 seq (fun s =>
    let r := reqWindow set.toNat index.toNat base.toNat limit.toNat en s
    { r with s := fbEval r.s }) s

/-- FUNC_RESET (R533). -/
def execFuncReset (seq : BitVec 8) (f : BitVec 8) (s : State) : Res := s.whenLive fun s => serve 0x31 seq (reqFuncReset f.toNat) s

/-- CRU_LC_SET (R498): a transition that is carried out has no reply; the request waits during a live activation or a
sanitize. -/
def execCruLcSet (seq : BitVec 8) (a : BitVec 40) (fl : Option Nat) (s : State) : Res :=
  s.whenLive fun s =>
    let up : Bool := match s.cru.boot with
      | .released => true
      | _ => false
    if cruFree s && up && !lcWaits s then
      let r := withAuth a.toNat (fun auth s => reqLcSet auth fl s) s
      if r.st = 0 then r.s else cruReply 0x40 seq r.st r.extra r.s
    else s

end Sys2Proof.Machine
end

