-- ==== Sys2Proof/Machine/EvcCmds.lean ====
section
/-!
DEFINITION. Machine/EvcCmds.lean: commands of the event controller and the recorder (spec/20), but for the function
resets.
-/

namespace Sys2Proof.Machine

open Sys2Proof Host

/-- EVENT_RAISE (R524, R526, R529): a block raises source `n`. An eft source carries the number of the EFT_ATTN bit that
rises; an unlisted number is never raised. -/
def execEventRaise (n : Fin 256) (bit : Fin 8) (payload : Option (List Byte)) (s : State) : Res :=
  s.whenLive fun s =>
    if isEftSource n then
      match (List.range 12).find? fun e => eftSource e = n.val with
      | some e => eftAttn e bit s
      | none => s
    else if (sourceBit n 0).isSome then parkDropped (raiseWith n 0 payload s)
    else s

/-- HANDLE_TIMEOUT (R530): HANDLE_MS has elapsed in HANDLING. -/
def execHandleTimeout (f : Fin 7) (s : State) : Res :=
  s.whenLive fun s => if errState s f = 1 && s.rf Reg.EVC_CTRL 31 16 ≠ 0 then parkDropped (tailDrop f 2 s) else s

/-- ERROR_SLOT_CLEAR (R530): VALID is written to EVC_ERR_f_PRI. -/
def execErrorSlotClear (f : Fin 7) (s : State) : Res :=
  s.whenLive fun s =>
    if errState s f = 1 then (s.setReg (Reg.EVC_ERR_PRI f) 0).setRf (Reg.EVC_ERR_STATE f) 1 0 0 else s

/-- ERROR_RAISE (R529): EVC_ERR_RAISE is written with GO; FUNC 7 is ignored. -/
def execErrorRaise (f : Fin 8) (cond : BitVec 8) (s : State) : Res :=
  s.whenLive fun s => if f.val = 7 then s else parkDropped (functionError f (0x3000 + cond.toNat) s)

/-- TAIL_DROP (R532): EVC_FDROP is written with GO by Crucible; a write that names CRU is ignored. -/
def execTailDrop (f : Fin 8) (s : State) : Res :=
  s.whenLive fun s => parkDropped (tailDrop f 3 s)

/-- SOFT_POST (R525, R601): EVC_SOFT_POST is written with GO. -/
def execSoftPost (k : Fin 8) (cond : BitVec 8) (func : Fin 16) (s : State) : Res :=
  s.whenLive fun s =>
    let n := 48 + k.val
    let p := (List.range 3).flatMap fun w => leBytes 4 (s.reg (Reg.EVC_SOFT_PAY w)).toNat
    raiseAs n cond.toNat (min func.val 8) p false (setStatus n 0 s)

/-- RECORDER_DRAIN (R539): eight records are pending, or the oldest has waited 100 ms (`old`); `f` counts the program
calls before one that does not verify. -/
def execRecorderDrain (old : Bool) (f : Option Nat) (s : State) : Res :=
  s.whenLive fun s =>
    if (old || 8 ≤ s.evc.buf.length) && s.cf.op.isNone && s.pwr.inReset.isNone then drainAll f s else s

/-- DRAIN_POP (R539): POP is written by Crucible. -/
def execDrainPop (s : State) : Res :=
  s.whenLive fun s => recPop s

/-- RECORDER_FREEZE (R540): EVC_CTRL.FREEZE is written. -/
def execRecorderFreeze (on : Bool) (s : State) : Res :=
  s.whenLive fun s => setFreeze false on s

/-- FREEZE_TIMEOUT (R540): a holder, the sideband (`sb`) or the service image, has held for 10 s. -/
def execFreezeTimeout (sb : Bool) (s : State) : Res :=
  s.whenLive fun s => setFreeze sb false s

/-- WINDOW_LOAD (R541): EVC_WIN_v_CURSOR is written. -/
def execWindowLoad (v : Fin 2) (seq : BitVec 32) (s : State) : Res :=
  s.whenLive fun s => loadWindow v seq.toNat s

/-- RECORDER_FAULT_SET (R543): EVC_RFAULT.SET is written with the failing page. -/
def execRecorderFaultSet (page : Fin 4096) (s : State) : Res :=
  s.whenLive fun s => s.aonWrite fun s => recFaultSet page s

/-- TIME_LOAD (R535): EVC_TIME_SET_HI is written with GO and the bits `hi`; the low word stands in its register. -/
def execTimeLoad (hi : BitVec 31) (s : State) : Res :=
  s.whenLive fun s => s.aonWrite fun s =>
    let s := s.setReg Reg.EVC_TIME_SET_HI (hi.setWidth 32)
    setClock ((s.reg Reg.EVC_TIME_SET_LO).toNat + hi.toNat * 2 ^ 32) s

/-- TOKEN_REFILL (R537): RATE ms have passed, and the bucket of source `n` gains a token. -/
def execTokenRefill (n : Fin 256) (s : State) : Res :=
  s.whenLive fun s =>
    let used := Sparse.get (fun _ => 0) s.evc.tokensUsed n
    if s.rf (Reg.EVC_SRC n) 31 24 = 0 then s
    else modEvc (fun e => { e with tokensUsed := Sparse.set (fun _ => 0) e.tokensUsed n (used - 1) }) s

end Sys2Proof.Machine
end

