-- ==== Sys2Proof/Machine/ZoneCmds.lean ====
section
/-!
DEFINITION. Machine/ZoneCmds.lean: commands of the zone keeper (spec/09): the scan, the zone commands and the offer.
-/

namespace Sys2Proof.Machine

open Sys2Proof Host

/-- The outcome of a zone command (R266): RESULT and ZONE, and CMD_REJECT for any but OK. -/
def zoneResult (z r : Nat) (s : State) : State :=
  let s := s.setReg Reg.ZONE_CMD_RESULT (BitVec.ofNat 32 (r + z * 2 ^ 8))
  if r = 0 then s else zoneEvent 0 s

/-- An access of a command failed (R602, R468): WINDOW, or an error of SYS. -/
def zoneBad (z : Nat) (r : BusRes) (s : State) : State :=
  match r with
  | .window _ => zoneResult z 7 s
  | r => keeperBad r s

/-- A zone command with GO (R266): it goes on with the zone's entry. -/
def zoneEntry (z op : Nat) (k : ZEnt → State → State) (s : State) : State :=
  let s := s.setReg Reg.ZONE_CMD (BitVec.ofNat 32 (z + op * 2 ^ 20))
  if zoneCount s ≤ z then zoneResult z 6 s else withZone z (zoneBad z) k s

/-- One that nothing but its zone's state can refuse before: a zone that the keeper treats as absent or OFFLINE is refused as
its STATE is. -/
def zoneCommand (z op : Nat) (k : ZEnt → State → State) (s : State) : State :=
  zoneEntry z op (fun e s => if zoneGone s z then zoneResult z 1 s else k e s) s

/-- A seal would make a fifth unsealed group (R272). -/
def sealLimit (e : ZEnt) : Bool := e.wp % 264 ≠ 0 && 4 ≤ e.ucount

/-- Write a command's entry and report OK. -/
def zoneDone (z : Nat) (e : ZEnt) (tail : Bool) (k : State → State) (s : State) : State :=
  zonePut z e tail (zoneBad z) (fun s => zoneResult z 0 (k s)) s

/-- The refusals of an OPEN after WINDOW and STATE, in their order (R266); `few`: the good positions are too few. -/
def zoneOpenChecks (z : Nat) (e : ZEnt) (few : Bool) (go : State → State) (s : State) : State :=
  if zoneBusy s z then zoneResult z 5 s
  else if (ctxs s e.act).all Option.isSome then zoneResult z 2 s
  else if few then zoneResult z 3 s
  else if e.state ≠ 0 && sealLimit e then zoneResult z 4 s
  else go s

/-- ZONE_OPEN (R266, R271, R272). -/
def execZoneOpen (z : Fin 524288) (s : State) : Res :=
  s.whenLive fun s => zoneCommand z 1 (fun e s =>
    let go (s : State) : State :=
      let (e', b) := sealEnt e
      zoneDone z { e' with st := 1 } false (fun s => unsealed b ((bindCtx e.act z e'.wp s).getD s)) s
    if !(e.kind = 1 && (e.state = 0 || e.state = 2)) then zoneResult z 1 s
    else if e.state = 0 then
      withDefects e (zoneBad z) (fun d s => zoneOpenChecks z e (goodPos e d < shSlots) go s) s
    else zoneOpenChecks z e false go s) s

/-- ZONE_CLOSE (R266, R272). -/
def execZoneClose (z : Fin 524288) (s : State) : Res :=
  s.whenLive fun s => zoneCommand z 2 (fun e s =>
    if !(e.kind = 1 && e.state = 1) then zoneResult z 1 s
    else if zoneBusy s z then zoneResult z 5 s
    else if sealLimit e then zoneResult z 4 s
    else
      let (e', b) := sealEnt e
      zoneDone z { e' with st := 2 } false (fun s => unsealed b (releaseCtx e.act z s)) s) s

/-- ZONE_FINISH (R266): as CLOSE where OPEN, then WP at the zone's end and FULL. -/
def execZoneFinish (z : Fin 524288) (s : State) : Res :=
  s.whenLive fun s => zoneCommand z 3 (fun e s =>
    if !(e.kind = 1 && (e.state = 1 || e.state = 2)) then zoneResult z 1 s
    else if zoneBusy s z then zoneResult z 5 s
    else if e.state = 1 && sealLimit e then zoneResult z 4 s
    else
      let (e', b) := if e.state = 1 then sealEnt e else (e, false)
      zoneDone z { e' with wp := shSlots, st := 3 } false (fun s => unsealed b (releaseCtx e.act z s)) s) s

/-- The RESET zone command (R266): the zone is EMPTY, and RESETS counts it. -/
def zoneReset (z : Nat) (s : State) : State :=
  zoneCommand z 4 (fun e s =>
    if !(e.kind = 1 && (e.state = 0 || e.state = 2 || e.state = 3 || e.state = 4)) then zoneResult z 1 s
    else if zoneBusy s z then zoneResult z 5 s
    else zoneDone z { e with wp := 0, st := 0, hold := false, ucount := 0, ugroup := [], resets := satAdd 16 e.resets 1 }
      true id s) s

/-- ZONE_RESET (R266); or, with `copies`, the service image's RESET of a zone it reclaims (R279): each live block has been
copied from the first address to the second, the locators move and are journalled, and the zone is reset. -/
def execZoneReset (o : ResetObs) (s : State) : Res :=
  s.whenLive fun s =>
    let l := o.copies.map fun c => (c.1.toNat, c.2.toNat)
    if l.isEmpty then zoneReset o.zone s
    else if reclaimable s o.zone && copiesHold s o.zone l then recordZones (zoneReset o.zone (reclaim o.zone l s))
    else s

/-- ZONE_SYNC (R266, R270). -/
def execZoneSync (z : Fin 524288) (s : State) : Res :=
  s.whenLive fun s => zoneCommand z 5 (fun e s =>
    if !(e.kind = 1 && e.state = 1 && e.hold) then zoneResult z 1 s
    else if zoneBusy s z then zoneResult z 5 s
    else zoneDone z { e with hold := false } false (modCtx e.act z fun c => { c with rwp := e.wp }) s) s

/-- SET_RO and OFFLINE (R266, R272): a context is released as by CLOSE; a seal that cannot be made leaves WP. -/
def zoneRetire (z op st : Nat) (offlineToo : Bool) (s : State) : State :=
  zoneCommand z op (fun e s =>
    if e.kind = 0 || (e.state = 5 && !offlineToo) then zoneResult z 1 s
    else if zoneBusy s z then zoneResult z 5 s
    else
      let (e', b) := if e.kind = 1 && e.state = 1 then sealEnt e else (e, false)
      zoneDone z { e' with st := st } false (fun s => unsealed b (releaseCtx e.act z s)) s) s

/-- SET_RO (R266). -/
def execSetRo (z : Fin 524288) (s : State) : Res := s.whenLive fun s => zoneRetire z 6 4 false s

/-- ZONE_OFFLINE (R266). -/
def execZoneOffline (z : Fin 524288) (s : State) : Res := s.whenLive fun s => zoneRetire z 7 5 true s

/-- REMAP (R266, R275): the entry at DEF_IDX + DEF_COUNT maps from now on. An index or a KIND that is refused is so whatever
the rest of the list shows. -/
def execRemap (z : Fin 524288) (s : State) : Res :=
  s.whenLive fun s => zoneEntry z 8 (fun e s =>
    let idx := e.defIdx + e.defCount
    if s.rf Reg.ZONE_DEF_SIZE 23 0 ≤ idx then zoneResult z 6 s
    else readOr 8 (defAddr s idx) 8 (zoneBad z) (fun b s =>
      if nfld (field b 0 4) 25 24 ≠ 2 then zoneResult z 6 s
      else withDefects e (zoneBad z) (fun d s =>
        let spares := (List.range (e.tracks * e.spt)).filter fun p => isSpare e d p
        if !isSpare e d (field b 4 3) then zoneResult z 6 s
        else if zoneGone s z || !(e.kind = 2 && e.state = 1) then zoneResult z 1 s
        else if zoneBusy s z then zoneResult z 5 s
        else if spares.all fun p => d.remaps.any fun r => r.2 = p then zoneResult z 3 s
        else zoneDone z { e with defCount := e.defCount + 1 } true id s) s) s) s

/-- ZONE_CMD_UNDEFINED (R266): OP 0 (`k` = 0) or 8 + k is refused with BAD_ARG. -/
def execZoneCmdUndefined (z : Fin 524288) (k : Fin 8) (s : State) : Res :=
  s.whenLive fun s =>
    let op := if k.val = 0 then 0 else 8 + k.val
    zoneResult z 6 (s.setReg Reg.ZONE_CMD (BitVec.ofNat 32 (z + op * 2 ^ 20)))

/-- ZONE_ENABLE (R265, R602): the service image has restored the table from its journal; ZONE_CTRL.EN is written 1, and the
scan starts. -/
def execZoneEnable (s : State) : Res :=
  s.whenLive fun s =>
    if s.rb Reg.ZONE_CTRL 0 then s
    else
      let s := restoreZones (s.setRb Reg.ZONE_CTRL 0 true)
      { s with zone := { s.zone with scan := true, absent := [], locked := [] } }

/-- Treat a zone as absent until the next scan (R602). -/
def zoneAbsent (z : Nat) (s : State) : State := { s with zone := { s.zone with absent := z :: s.zone.absent } }

/-- The scan's repair of an entry with an uncorrectable word (R265): OFFLINE, and the keeper's own words written whole. -/
def scanRepair (z : Nat) (s : State) : State :=
  let a := zoneAddr s z
  let lost (w : Nat) : Bool := (errsIn s (a + w) 8).any fun (_, e) => eccDecode e = .uncorrectable
  let clean (w : Nat) : List Byte :=
    (errsIn s (a + w) 8).foldl (fun bs (k, e) => match eccDecode e with
      | .corrected _ r => applyResidue (a + w) bs k r
      | .clean => applyResidue (a + w) bs k e
      | .uncorrectable => bs) (s.bytes (a + w) 8)
  let h := if lost 0 then List.replicate 8 0 else clean 0
  let v := field h 0 4
  let v := v - nfld v 21 19 * 2 ^ 19 + 5 * 2 ^ 19
  let (_, s) := busWrite 8 a (leBytes 4 v ++ h.drop 4) s
  let s := if lost 16 then (busWrite 8 (a + 16) (List.replicate 8 0) s).2 else s
  zoneEvent 4 s

/-- The capacity check of the scan (R265). -/
def scanCapacity (e : ZEnt) (d : Defects) : Bool :=
  let spares := e.tracks * e.spt - (slipPos (e.slots - 1) d.slips + 1)
    - (d.slips.filter fun p => slipPos (e.slots - 1) d.slips < p).length
  e.slots ≤ goodPos e d && d.remaps.length ≤ spares

/-- The scan of one entry (R265, R602). -/
def scanZone (z : Nat) (s : State) : State :=
  readOr 8 (zoneAddr s z) 32 (fun r s => match r with
    | .window _ => zoneAbsent z s
    | _ => scanRepair z s) (fun b s =>
    let e := zDecode b
    if e.kind = 0 then s
    else
      let (e1, b1) := if e.kind = 1 && e.state = 1 then closeEnt e else (e, false)
      withDefects e (fun r s => match r with
        | .window _ => zoneAbsent z s
        | r => keeperBad r s) (fun d s =>
        let ok := scanCapacity e d
        let e2 := if ok then e1 else { e1 with st := 5 }
        let s := unsealed b1 s
        let s := if ok then s else zoneEvent 4 s
        if e2 = e then s else zonePut z e2 false (fun _ s => s) id s) s) s

/-- ZONE_SCAN_DONE (R265): the scan has acted on the first ZONE_COUNT entries. No shingled zone is OPEN after it, so no
context is bound. -/
def execZoneScanDone (s : State) : Res :=
  s.whenLive fun s =>
    if s.zone.scan then
      let s := (List.range (zoneCount s)).foldl (fun s z => scanZone z s) s
      { s with zone := { s.zone with scan := false, ctxA := List.replicate 16 none, ctxB := List.replicate 16 none } }
    else s

/-- Data slots at or above a reserved pointer (R280). -/
def dataAbove (rwp : Nat) : Nat :=
  if shSlots ≤ rwp then 0 else (255 - rwp / 264) * 256 + (256 - min 256 (rwp % 264))

/-- Score of a head (R280). -/
def offerScore (s : State) (x h : Nat) : Nat :=
  let heat := (headLimit s x h - headHeat s x h).toNat
  min (s.rf (Reg.BA_HEADROOM x) 15 0 / orOne (s.rf Reg.ZONE_PLACE_CFG 15 0)) (heat / orOne (s.rf Reg.ZONE_PLACE_CFG 31 16))

/-- Insert a head behind every head of at least its score: highest first, ties in the order met. -/
def insScore (k : Nat × Nat × Nat) : List (Nat × Nat × Nat) → List (Nat × Nat × Nat)
  | [] => [k]
  | j :: t => if j.1 < k.1 then k :: j :: t else j :: insScore k t

/-- The enabled heads with a score, best first: (score, actuator, head) (R280). -/
def offerHeads (s : State) : List (Nat × Nat × Nat) :=
  ((List.range 24).filter fun i => s.rb Reg.ZONE_OFFER_HEADS i).foldl (fun l i =>
    let v := offerScore s (i / 12) (i % 12)
    if v = 0 then l else insScore (v, i / 12, i % 12) l) []

/-- A zone's entry for an offer: none where it cannot be read (R602). -/
def offerEntry (z : Nat) (s : State) : Option ZEnt × State :=
  match busRead 8 (zoneAddr s z) 24 s with
  | (.ok b, s) => (some (zDecode b), s)
  | (.window _, s) => (none, s)
  | (r, s) => (none, keeperBad r s)

/-- The open candidate of a head (R280): highest WP, then lowest zone. -/
def offerOpen (x h blocks : Nat) (s : State) : Option Nat × State :=
  let (best, s) := (ctxs s x).foldl (fun (acc : Option (Nat × Nat) × State) c =>
    match c with
    | none => acc
    | some c =>
      match offerEntry c.zone acc.2 with
      | (some e, s) =>
        if e.head = h && e.state = 1 && !e.hold && blocks ≤ dataAbove c.rwp && !zoneGone s c.zone then
          match acc.1 with
          | some (wp, z) => if wp < e.wp || (wp = e.wp && c.zone < z) then (some (e.wp, c.zone), s) else (acc.1, s)
          | none => (some (e.wp, c.zone), s)
        else (acc.1, s)
      | (none, s) => (acc.1, s)) (none, s)
  (best.map fun p => p.2, s)

/-- The lowest-numbered EMPTY shingled zone of a head (R280), among `n` zones from `z` on. -/
def offerEmpty (x h : Nat) : Nat → Nat → State → Option Nat × State
  | 0, _, s => (none, s)
  | n + 1, z, s =>
    match offerEntry z s with
    | (some e, s) =>
      if e.kind = 1 && e.state = 0 && e.act = x && e.head = h && !zoneGone s z then (some z, s)
      else offerEmpty x h n (z + 1) s
    | (none, s) => offerEmpty x h n (z + 1) s

/-- Offer the first head that has a candidate: score, actuator, head, zone and NEEDS_OPEN (R280). -/
def offerPick (blocks : Nat) : List (Nat × Nat × Nat) → State → Option (Nat × Nat × Nat × Nat × Bool) × State
  | [], s => (none, s)
  | (v, x, h) :: t, s =>
    match offerOpen x h blocks s with
    | (some z, s) => (some (v, x, h, z, false), s)
    | (none, s) =>
      if (ctxs s x).all Option.isSome then offerPick blocks t s
      else match offerEmpty x h (zoneCount s) 0 s with
        | (some z, s) => (some (v, x, h, z, true), s)
        | (none, s) => offerPick blocks t s

/-- ZONE_OFFER (R280, R281): `v` is written to ZONE_OFFER_REQ, and the offer is shown with DONE. -/
def execZoneOffer (v : BitVec 32) (s : State) : Res :=
  s.whenLive fun s =>
    let s := s.setReg Reg.ZONE_OFFER_REQ (v &&& 0x1FFFF)
    let n := fld v 16 0
    match offerPick (if n = 0 then 65536 else n) (offerHeads s) s with
    | (some (sc, x, h, z, needs), s) =>
      let w := z + h * 2 ^ 24 + x * 2 ^ 28 + b2n needs * 2 ^ 29 + 2 ^ 30 + 2 ^ 31
      (s.setReg Reg.ZONE_OFFER (BitVec.ofNat 32 w)).setReg Reg.ZONE_OFFER_SCORE (BitVec.ofNat 32 (min sc 65535))
    | (none, s) => (s.setReg Reg.ZONE_OFFER 0x40000000).setReg Reg.ZONE_OFFER_SCORE 0

end Sys2Proof.Machine
end

