-- ==== Sys2Proof/Machine/JobCmds.lean ====
section
/-!
DEFINITION. Machine/JobCmds.lean: commands of the ring manager that fetch, start and complete jobs (spec/05), with the
choice of the next job (R152, R214, R436), the charges (R431) and the zone checks (R267, R268).
-/

namespace Sys2Proof.Machine

open Sys2Proof Host

/-- ENTRY_FETCH_DONE (R152 to R154): the fetch of index `i` of ring `q` ends. Only an ACTIVE, unstalled ring fetches,
from its next unstarted entry up to PREFETCH entries past P and never past C + 2^n − 1. -/
def execEntryFetchDone (q : Fin 16384) (i : BitVec 17) (s : State) : Res :=
  s.whenLive fun s =>
    let n := sqN s q
    let ahead := ringCount n (sqP s q) (sqF s q) + min 8 (s.rf Reg.RING_CTRL 3 0)
    let room := 2 ^ n - ringCount n (sqF s q) (sqC s q)
    if sqState s q = 1 && !s.rb (Reg.SQ_STATE q) 26 && i.toNat < 2 ^ (n + 1)
        && ringCount n i.toNat (sqF s q) < min ahead room && tries s q = 0 then
      fbEval (entryArrives q i.toNat s)
    else s

/-- The acceptance test of R150 for a submission doorbell. -/
def sqDoorbellOk (s : State) (q v : Nat) : Bool :=
  let n := sqN s q
  ringCount n v (sqC s q) ≤ 2 ^ n && ringCount n v (sqP s q) ≤ 2 ^ n - ringCount n (sqP s q) (sqC s q)

/-- SQ_DOORBELL (R150): value `v` written to the doorbell of ring `q`. -/
def execSqDoorbell (q : Fin 16384) (v : BitVec 17) (s : State) : Res :=
  s.whenLive fun s =>
    if sqState s q = 0 then ringEvent 1 s
    else if sqDoorbellOk s q v.toNat then fbEval (s.setRf (Reg.SQ_PROD q) 16 0 (v.toNat % 2 ^ (sqN s q + 1)))
    else if sqState s q = 1 then ringError q v.toNat 13 s
    else ringEvent 1 s

/-- CQ_DOORBELL (R151, R163): value `v` written to the consumer doorbell of completion ring `c`. -/
def execCqDoorbell (c : Fin 4096) (v : BitVec 17) (s : State) : Res :=
  s.whenLive fun s =>
    if cqActive s c && ringCount (cqN s c) v.toNat (cqC s c) ≤ cqCount s c then
      fbEval (refreshStalls (s.setRf (Reg.CQ_CONS c) 16 0 (v.toNat % 2 ^ (cqN s c + 1))))
    else ringEvent 1 s

/-- PHASE_RETRY (R153): 64 FABRIC cycles after a stale entry at use, it is fetched again; after the sixteenth refetch
that is still stale the job is malformed with REASON PHASE. A STALLED ring fetches nothing (R167). -/
def execPhaseRetry (q : Fin 16384) (s : State) : Res :=
  s.whenLive fun s =>
    if sqState s q = 1 && tries s q ≠ 0 && atUse s q && !s.rb (Reg.SQ_STATE q) 26 then
      fbEval (if tries s q ≤ 16 then entryArrives q (useIndex s q) s else staleJob q s)
    else s

/-- SPILL_WRITE (R168, R169): a slot of completion ring `c` is free, and the oldest spilled completion for it is
written. -/
def execSpillWrite (c : Fin 4096) (s : State) : Res :=
  s.whenLive fun s =>
    if cqActive s c && cqCount s c + cqReserved s c < 2 ^ cqN s c then fbEval (refreshStalls (drainSpill c s)) else s

/-- COMPLETION_POST (R162, R168): the oldest started job of ring `q` has finished, and its completion is posted. A ring
in HELD posts nothing: its function's bus-master ports are blocked (R170). -/
def execCompletionPost (q : Fin 16384) (s : State) : Res :=
  s.whenLive fun s =>
    match oldestJob s q with
    | none => s
    | some j =>
      match j.done with
      | none => s
      | some o =>
        if sqState s q = 2 then s
        else if j.place = .slot && ringSpilled s q && (spillReady s j.cq).isNone then s
        else fbEval (staleJob q (refreshStalls (postJob j o s)))

/-- The position of a slot as the zone table in memory gives it, for the scheduler's arithmetic (R274, R431, R436). -/
def peekSect (s : State) (b : List Byte) : Sect :=
  let e := zDecode (s.bytes (zoneAddr s (medZone b)) 24)
  let n := min (e.defIdx + e.defCount) (s.rf Reg.ZONE_DEF_SIZE 23 0) - e.defIdx
  let slot := medPba b % 2 ^ 17
  let p := slotPos e (decodeDefects (s.bytes (defAddr s e.defIdx) (n * 8)) n) slot
  let spt := orOne e.spt
  ⟨medZone b, slot, none, e.head, e.start + p / spt, p % spt, e.kind = 1⟩

/-- Sectors per track of the job's zone. -/
def peekSpt (s : State) (b : List Byte) : Nat := orOne (zDecode (s.bytes (zoneAddr s (medZone b)) 24)).spt

/-- Distance in tracks from the present track to the job's first track (R431). -/
def seekDist (s : State) (x track : Nat) : Nat := ((sv s x).target / 4096 - track).natAbs

/-- Charge at the start of a MEDx class 0 job whose first track is given (Table "Charges"). -/
def medCharge (s : State) (e : Nat) (b : List Byte) (track : Nat) : Nat :=
  let d := seekDist s (e / 2) track
  let seek := s.rf Reg.BA_COST_MED 31 16 + s.rf Reg.BA_COST_SEEK 15 0 * (d / 65536)
  if 5 ≤ eOp b then seek else (if d = 0 then 0 else seek) + unitCharge s e (eOp b)

/-- An eft between jobs that may take a new one (R177): with RUN 0 it only ends those it has parked (R197). -/
def eftFree (s : State) (e : Nat) : Bool := (s.eft e).st = .idle && (s.eft e).unit.isNone && s.rb (Reg.EFT_CTRL e) 0

/-- The eft a MEDx class 0 job goes to now (R177). -/
def eftFor (s : State) (f : Nat) (b : List Byte) : Option Nat :=
  let e := if f = 2 then 0 else 2
  match medEftSel b with
  | 0 => if eftFree s e then some e else none
  | 1 => if eftFree s (e + 1) then some (e + 1) else none
  | _ => if eftFree s e then some e else if eftFree s (e + 1) then some (e + 1) else none

/-- A job of STG may be dispatched to its LUN now (R185, R201, R214, R218, R234, R448). Over a LUN with preempted units only
the job that preempted the last of them is. -/
def stgMay (s : State) (q : Nat) (b : List Byte) : Bool :=
  let c := stgCh b
  let x := s.eft (4 + c)
  let d := jobDie s b
  let k := chan s c
  let here (u : EftUnit) : Bool := jobDie s u.job.entry = d
  let parked := x.parked.filter fun p => p.die = d
  let pre := x.preempted.filter fun p => here p.unit
  let lunFree := (parked.isEmpty || (eOp b = 1 && parked.all fun p => p.kind = .suspended && !p.woken))
    && pre.getLast?.all fun p => p.bySq = q && p.byFirst = sqF s q
  if !k.ready then eftFree s (4 + c)
  else eftFree s (4 + c) && !(x.parked.any Parked.woken) && !k.switchPending && !calActive s 4 && !s.cal.forced.contains 4
    && !(s.stg.pwrLoss && eOp b = 3) && lunFree

/-- While HOLD is 1, NET starts only work requests posted before it rose (R62). -/
def holdLets (s : State) (q k : Nat) : Bool :=
  !s.rb Reg.NET_CTRL 16
    || (match s.net.holdProd.find? fun (e : Nat × Nat) => e.1 = q with
        | some (_, p) => k ≤ ringCount (sqN s q) p (sqF s q)
        | none => false)

/-- The engine of ring `q` can take its ready job now. -/
def engineReady (s : State) (q : Nat) (es : List (List Byte)) : Bool :=
  let b := es.headD []
  match sqFunc s q, sqClass s q with
  | 2, 0 => (eftFor s 2 b).isSome && (5 ≤ eOp b || !s.zone.scan)
  | 3, 0 => (eftFor s 3 b).isSome && (5 ≤ eOp b || !s.zone.scan)
  | 4, _ => stgMay s q b
  | 5, c => laneReady s c
  | 0, 1 => holdLets s q es.length
  | _, _ => true

/-- Charge of a ready job as the arbiter sees it before the start. -/
def startCharge (s : State) (q : Nat) (es : List (List Byte)) : Nat :=
  let b := es.headD []
  let f := sqFunc s q
  match f, sqClass s q with
  | 4, _ => if (chan s (stgCh b)).ready then unitCharge s (4 + stgCh b) (eOp b) else 0
  | 5, c => xfmCharge s c b
  | _, c => if (f = 2 || f = 3) && c = 0 then medCharge s (2 * (f - 2)) b (peekSect s b).track else 0

/-- The job may start as far as its balance goes (R431). -/
def budgetReady (s : State) (q : Nat) (es : List (List Byte)) : Bool :=
  startCharge s q es = 0 || balanceOk s (sqFunc s q)

/-- Rings of the same function and class with a ready job that its engine can take. -/
def rivals (s : State) (q : Nat) : List (Nat × List (List Byte)) :=
  (ringsOf s (sqFunc s q)).filterMap fun r =>
    if sqClass s r = sqClass s q then
      match goodJob s r with
      | some es => if engineReady s r es then some (r, es) else none
      | none => none
    else none

/-- Those at the highest PRIO among them. -/
def topPrio (s : State) (l : List (Nat × List (List Byte))) : List (Nat × List (List Byte)) :=
  let p := (l.map fun r => sqPrio s r.1).foldl max 0
  l.filter fun r => sqPrio s r.1 = p

/-- Distance of a ring past the one that last started a job, in ring order (R152). -/
def turnOf (s : State) (q r : Nat) : Nat :=
  let l := Sparse.get (fun _ => 0) s.rings.lastStart (sqFunc s q * 64 + sqClass s q * 4 + sqPrio s q)
  (r + 16384 - l % 16384) % 16384

/-- Cost of a media job in wedges (R436). -/
def schedCost (s : State) (x : Nat) (b : List Byte) : Nat :=
  let t := peekSect s b
  let d := seekDist s x t.track
  let k := ((List.range 16).find? fun k => d ≤ s.rf (Reg.BA_SEEK k) 23 0).getD 15
  let seek := s.rf (Reg.BA_SEEK k) 31 24 + (if t.head = (med s x).wr.head then 0 else s.rf Reg.BA_SCHED_CFG 23 16)
  let target := t.sector * 512 / peekSpt s b
  let now := (sv s x).wedge.getD 0
  seek + (target + 512 * 1024 - (now + seek)) % 512

/-- R436 replaces the round robin of this ring. -/
def scheduled (s : State) (q : Nat) : Bool :=
  s.rb Reg.BA_CTRL 1 && (sqFunc s q = 2 || sqFunc s q = 3) && sqClass s q = 0

/-- Candidates of R436 at the highest PRIO, without those the budget or a hot head holds. -/
def schedCands (s : State) (q : Nat) : List (Nat × List (List Byte)) :=
  (topPrio s (rivals s q)).filter fun r =>
    budgetReady s r.1 r.2 && heatOk s (2 * (sqFunc s q - 2)) (r.2.headD [])

/-- The ring manager's choice falls on ring `q` (R152, R436). `aged`: its job has been ready for longer than AGE_MS, the
longest of all. -/
def chosen (s : State) (q : Nat) (aged : Bool) : Bool :=
  if scheduled s q then
    let l := schedCands s q
    let x := sqFunc s q - 2
    match l.find? fun r => r.1 = q with
    | some (_, es) => aged || l.all fun r => schedCost s x (es.headD []) ≤ schedCost s x (r.2.headD [])
    | none => false
  else
    let l := topPrio s ((rivals s q).filter fun r => budgetReady s r.1 r.2)
    (l.any fun r => r.1 = q) && l.all fun r => turnOf s q q ≤ turnOf s q r.1

/-- A REDETECT job starts (R347): the slot's work queues; an empty slot ends it. -/
def startRedetect (x q first : Nat) (b : List Byte) (s : State) : State :=
  let k := field b 8 1 % 2
  if (slotOf (med s x).sr k).valid then
    takeJob q first (addOffline x k (signed 8 (field b 9 1)) (field b 10 1) false (2 * x) (some (q, first)) s)
  else finishJob q first ⟨4, 0, 0, 0, 0x82F1⟩ s

/-- Units of a MEDx job: a shingled WRITE writes the parity slots it completes as units of their own (R269, R272). -/
def medUnits (e : ZEnt) (b : List Byte) : Nat :=
  let slot := medPba b % 2 ^ 17
  if e.kind = 1 && eOp b = 2 then jobStop true true slot (medCount b) - slot else medCount b

/-- A shingled WRITE reserves its slots (R270). -/
def reserveSlots (x q first : Nat) (e : ZEnt) (b : List Byte) (s : State) : State :=
  let z := medZone b
  let slot := medPba b % 2 ^ 17
  if e.kind = 1 && eOp b = 2 then
    let stop := slot + medUnits e b
    modCtx x z (fun c => { c with rwp := stop })
      { s with zone := { s.zone with writes := s.zone.writes ++ [⟨q, first, x, z, slot, stop, e.wp = slot⟩] } }
  else s

/-- A MEDx class 0 job goes to its eft, charged (R431). -/
def medDispatch (q first e : Nat) (b : List Byte) (units track : Nat) (s : State) : State :=
  let s := charge (eftFunc e) (medCharge s e b track) s
  startEftJob e q first b units s

/-- A MEDx class 0 job starts on eft `e`: R267 and R268 are judged for OP READ to CAPTURE, and its slots reserved. -/
def medStart (q e : Nat) (es : List (List Byte)) (s : State) : State :=
  let b := es.headD []
  let x := e / 2
  let first := sqF s q
  let slot := medPba b % 2 ^ 17
  let z := medZone b
  let bad (r : BusRes) (s : State) : State := withPlace q es (failAccess q first r) s
  if 5 ≤ eOp b then
    withSect z slot bad (fun t s => withPlace q es (medDispatch q first e b 0 t.track) s) s
  else
    withZone z bad (fun ent s =>
      if z ∉ s.zone.absent && !zoneSlotOk ent (eOp b) slot then malformedJob q first 4 b s
      else
        let code := zoneCode s x ent (eOp b) z slot (medCount b)
        if code ≠ 0 then
          withPlace q es (fun s => zoneEvent 1 ((finishJob q first ⟨8, 0, 0, 0, code⟩ s).bump Reg.ZONE_WP_FAULTS)) s
        else
          withSect z slot bad (fun t s =>
            withPlace q es (fun s =>
              medDispatch q first e b (medUnits ent b) t.track (reserveSlots x q first ent b s)) s) s) s

/-- A chosen job starts on its engine. The unit count of a STG job, whose count word R178 does not name, is 1 (DESIGN CHOICE,
log entry 51). -/
def dispatchJob (q : Nat) (es : List (List Byte)) (s : State) : State :=
  let b := es.headD []
  let f := sqFunc s q
  let c := sqClass s q
  let first := sqF s q
  match f with
  | 4 =>
    let e := 4 + stgCh b
    withPlace q es (fun s =>
      if (chan s (stgCh b)).ready then stgAdmit (stgCh b) (startEftJob e q first b 1 (charge 4 (unitCharge s e (eOp b)) s))
      else
        let o : Outcome := ⟨4, 0, 0, 0, engineDetail 0x8008 (lastCause s e) (lastPc s e)⟩
        match stgOutcome b o 0 s with
        | (.ok _, s) => finishJob q first o s
        | (r, s) => failAccess q first r s) s
  | 5 => withPlace q es (fun s => fbEval (xfmDispatch q first c es (charge 5 (xfmCharge s c b) s))) (fbEval s)
  | 0 => withPlace q es (fun s =>
      { s with net := { s.net with startedInHold := s.net.startedInHold || (s.rb Reg.NET_CTRL 16 && c = 1) } }) s
  | _ =>
    let x := f - 2
    if c = 1 then withPlace q es (startRedetect x q first b) s
    else
      match eftFor s f b with
      | none => s
      | some e => medStart q e es s

/-- JOB_START (R152, R156, R164, R167, R431, R436): the ring manager turns to the next job of ring `q`. A malformed job
completes MALFORMED; a good one starts where the choice falls on it, its engine can take it, its balance allows it and a
completion place is free. -/
def execJobStart (q : Fin 16384) (aged : Bool) (s : State) : Res :=
  s.whenLive fun s =>
    match readyJob s q with
    | none => s
    | some (es, long) =>
      match malformedAt s q es long with
      | some (k, r) => malformedJob q ((sqF s q + k) % 2 ^ (sqN s q + 1)) r (es.headD []) s
      | none =>
        if engineReady s q es && budgetReady s q es && chosen s q aged then
          let s := if scheduled s q then
              let x := sqFunc s q - 2
              s.setReg (Reg.BA_SCHED_LAST x)
                (BitVec.ofNat 32 (q.val + schedCost s x (es.headD []) % 1024 * 2 ^ 16 + b2n aged * 2 ^ 31))
            else s
          dispatchJob q es s
        else s

end Sys2Proof.Machine
end

