-- ==== Sys2Proof/Machine/MemCmds.lean ====
section
/-!
DEFINITION. Machine/MemCmds.lean: commands of the memory-protection unit and the DRAM controller (spec/17): the scrubber,
the error tables, the vote, refresh, training and the wipe.
-/

namespace Sys2Proof.Machine

open Sys2Proof Host

/-- Raise bit `k` of MEM_EVENT_STATUS for no particular error (R476). -/
def memEvent (k : Nat) (s : State) : State := raiseWith (56 + k) 0 (some (memPayload 0 0 0 0 0)) s

/-- Range of a scrub (R470). -/
def scrubBase (s : State) : Nat := s.rf Reg.MEM_SCRUB_BASE_LO 31 3 * 8 + s.rf Reg.MEM_SCRUB_BASE_HI 7 0 * 2 ^ 32
def scrubLimit (s : State) : Nat := s.rf Reg.MEM_SCRUB_LIMIT_LO 31 3 * 8 + s.rf Reg.MEM_SCRUB_LIMIT_HI 7 0 * 2 ^ 32

/-- Change the scrubber. -/
def modScrub (f : Scrub → Scrub) (s : State) : State := { s with mu := { s.mu with scrub := f s.mu.scrub } }

/-- SCRUB_START (R470): MEM_SCRUB_CTRL is written with GO and the word `v`. -/
def execScrubStart (v : BitVec 32) (s : State) : Res :=
  s.whenLive fun s =>
    let s := s.setReg Reg.MEM_SCRUB_CTRL (v &&& 0xFF02)
    let b := scrubBase s
    let l := scrubLimit s
    let n := l + 8 - b
    if s.mu.scrub.busy || l < b || !(s.inDram b n || inSram b n) then
      memEvent 6 (s.setRb Reg.MEM_SCRUB_STATUS 2 true)
    else
      let s := s.resetRegs fun a => Reg.MEM_SCRUB_WORDS_LO ≤ a && a ≤ Reg.MEM_SCRUB_LAST_HI
      modScrub (fun _ => ⟨true, b, false⟩) (s.setReg Reg.MEM_SCRUB_STATUS 1)

/-- Record a failing word in the summary (R471). -/
def scrubNote (a : Nat) (un : Bool) (s : State) : State :=
  let s := s.bump (if un then Reg.MEM_SCRUB_UNCORR else Reg.MEM_SCRUB_CORR)
  let lo := BitVec.ofNat 32 a
  let hi := BitVec.ofNat 32 (a / 2 ^ 32 % 256 + 2 ^ 31)
  let s := if s.rb Reg.MEM_SCRUB_FIRST_HI 31 then s
    else (s.setReg Reg.MEM_SCRUB_FIRST_LO lo).setReg Reg.MEM_SCRUB_FIRST_HI hi
  (s.setReg Reg.MEM_SCRUB_LAST_LO lo).setReg Reg.MEM_SCRUB_LAST_HI hi

/-- Upsets strike a stored word: their pattern adds to its error pattern. -/
def strike (key : Nat) (pat : BitVec 80) (s : State) : State :=
  let e := Sparse.get (fun _ => (0 : BitVec 80)) s.mu.errs key ^^^ pat
  { s with mu := { s.mu with errs := Sparse.set (fun _ => 0) s.mu.errs key e } }

/-- The scrubber reads one word (R471). -/
def scrubRead (a : Nat) (s : State) : State :=
  let m := memIndex a
  let key := errKey m a
  match eccDecode (Sparse.get (fun _ => (0 : BitVec 80)) s.mu.errs key) with
  | .clean => s
  | .corrected j r =>
    let s := scrubNote a false (memFail m a j 9 s)
    if s.rb Reg.MEM_SCRUB_CTRL 1 then
      let s := s.setBytes a (applyResidue a (s.bytes a 8) a r)
      { s with mu := { s.mu with errs := Sparse.clear s.mu.errs fun k => k = key } }
    else s
  | .uncorrectable => scrubNote a true (memFail m a 0xF 9 s)

/-- One more word read is counted (R471). -/
def scrubCounted (s : State) : State :=
  let n := (s.reg Reg.MEM_SCRUB_WORDS_LO).toNat + (s.reg Reg.MEM_SCRUB_WORDS_HI).toNat * 2 ^ 32 + 1
  (s.setReg Reg.MEM_SCRUB_WORDS_LO (BitVec.ofNat 32 n)).setReg Reg.MEM_SCRUB_WORDS_HI (BitVec.ofNat 32 (n / 2 ^ 32))

/-- SCRUB_WORD (R471): the scrubber reads its next word; `pat` is the pattern of upsets that have struck the word since
it was written. -/
def execScrubWord (pat : BitVec 80) (s : State) : Res :=
  s.whenLive fun s =>
    let a := s.mu.scrub.next
    if s.mu.scrub.busy && a ≤ scrubLimit s then
      modScrub (fun c => { c with next := a + 8 }) (scrubCounted (scrubRead a (strike (errKey (memIndex a) a) pat s)))
    else s

/-- SCRUB_STOP (R472): STOP is written: the scrub ends after the word in progress, with DONE and ABORTED. -/
def execScrubStop (s : State) : Res :=
  s.whenLive fun s =>
    if s.mu.scrub.busy then
      modScrub (fun c => { c with busy := false, stop := true }) (s.setReg Reg.MEM_SCRUB_STATUS 0xA)
    else s

/-- SCRUB_END (R472): the scrub has read LIMIT. -/
def execScrubEnd (s : State) : Res :=
  s.whenLive fun s =>
    if s.mu.scrub.busy && scrubLimit s < s.mu.scrub.next then
      memEvent 3 (modScrub (fun c => { c with busy := false }) (s.setReg Reg.MEM_SCRUB_STATUS 2))
    else s

/-- ERROR_TABLE_CLEAR (R465): CLR is written for memory `m`. -/
def execErrorTableClear (m : Fin 13) (s : State) : Res :=
  s.whenLive fun s =>
    s.resetRegs fun a =>
      a = Reg.MEM_TAB_OVF m || a = Reg.MEM_TAB_STATUS m
        || (Reg.MEM_TABE_LO m 0 ≤ a && a ≤ Reg.MEM_TABE_HI m 31)

/-- Triplicated word `w` (R473). -/
def tripOf (s : State) (w : Nat) : Trip :=
  match w with
  | 0 => s.mu.trip0
  | 1 => s.mu.trip1
  | 2 => s.mu.trip2
  | 3 => s.mu.trip3
  | _ => s.mu.trip4

/-- Replace triplicated word `w`. -/
def setTrip (w : Nat) (t : Trip) (s : State) : State :=
  match w with
  | 0 => { s with mu := { s.mu with trip0 := t } }
  | 1 => { s with mu := { s.mu with trip1 := t } }
  | 2 => { s with mu := { s.mu with trip2 := t } }
  | 3 => { s with mu := { s.mu with trip3 := t } }
  | _ => { s with mu := { s.mu with trip4 := t } }

/-- An upset strikes one copy of a triplicated word. -/
def upset (s : State) (u : Fin 5 × Fin 3 × BitVec 32) : State :=
  let t := tripOf s u.1
  setTrip u.1 (match u.2.1.val with
    | 0 => { t with c0 := t.c0 ^^^ u.2.2 }
    | 1 => { t with c1 := t.c1 ^^^ u.2.2 }
    | _ => { t with c2 := t.c2 ^^^ u.2.2 }) s

/-- Compare the copies of a word, and rewrite the minority (R473). -/
def voteWord (s : State) (w : Nat) : State :=
  let t := tripOf s w
  if t.c0 = t.c1 && t.c1 = t.c2 then s
  else
    let s := (setTrip w (Trip.of t.vote) s).bump Reg.MEM_VOTE_DISAGREE
    memEvent 4 (s.setReg Reg.MEM_VOTE_LAST (BitVec.ofNat 32 (w + 2 ^ 31)))

/-- The oldest job of a ring that runs. -/
def runningJob (s : State) (q : Nat) : Option Job := s.rings.jobs.find? fun j => j.sq = q && j.done.isNone

/-- A failing word of an internal memory was read (R462 to R464). An uncorrectable one of the level-2 cache traps the core that
consumes it and nothing else (R466); one that XFM met in a job's lane buffer ends that job (R467); any other is an error of the
function that read it (R468). -/
def readUpset (s : State) (u : ReadUpset) : State :=
  let m := u.mem.val
  let a := u.addr.toNat
  match eccDecode u.pat with
  | .clean => s
  | .corrected j _ => memFail m a j u.src s
  | .uncorrectable =>
    let s := memFail m a 0xF u.src s
    if m = 2 || 8 < u.src.val then s
    else match u.job.bind fun q => runningJob s q.val with
      | some j => if m = 10 then failAccess j.sq j.first (.uncorr a) s else s
      | none => hwError u.src 2 (leBytes 5 a ++ [BitVec.ofNat 8 m]) s

/-- VOTE_CHECK (R473): the comparison of every 1 ms; `o` lists what has struck the memories since the last one (log entry 36). -/
def execVoteCheck (o : UpsetObs) (s : State) : Res :=
  .next <|
    let s := o.stored.foldl (fun s u => strike (errKey (memIndex u.1.toNat) u.1.toNat) u.2 s) s
    let s := if s.live then o.reads.foldl readUpset s else s
    (List.range 5).foldl voteWord (o.trips.foldl upset s)

/-- DRAM_REFRESH (R458): one all-bank refresh. -/
def execDramRefresh (s : State) : Res :=
  s.whenLive fun s =>
    if s.mu.dramReady && !s.mu.selfRefresh then { s with mu := { s.mu with refreshes := s.mu.refreshes + 1 } } else s

/-- DRAM_TEMP_POLL (R458): MR4 of the five devices is read; the highest range decides the refresh interval. -/
def execDramTempPoll (a b c d e : BitVec 5) (s : State) : Res :=
  s.whenLive fun s =>
    if s.mu.dramReady then { s with mu := { s.mu with mr4 := [a.toNat, b.toNat, c.toNat, d.toNat, e.toNat] } } else s

/-- DRAM_TRAINING_DONE (R457, R474): the training of a cold reset ends, `top` the highest RATE at which it passes. The
wipe of the reset follows. -/
def execDramTrainingDone (top : Option (Fin 4)) (s : State) : Res :=
  s.whenLive fun s =>
    if s.mu.training && s.pwr.inReset.isNone then
      let s := { s with mu := { s.mu with training := false, wipeBusy := true } }
      match top with
      | some r =>
        { s with mu := { s.mu with dramReady := true, selfRefresh := false, rate := min r.val (s.rf Reg.MEM_DRAM_CFG 2 0),
                                   cap := if s.rb Reg.MEM_DRAM_CFG 4 then 2 else 1 } }
      | none => memEvent 5 { s with mu := { s.mu with retained := false } }
    else s

/-- WIPE_DONE (R474, R475): the wipe of DRAM ends: unless it is retained it holds zeros with valid check symbols, and
RETAINED is cleared. The SRAMs, wiped at the reset, have long held their zeros. -/
def execWipeDone (s : State) : Res :=
  s.whenLive fun s =>
    if s.mu.wipeBusy then
      let gone (a : Nat) : Bool := !s.mu.retained && dramBase ≤ a
      { s with mem := Sparse.clear s.mem gone,
               mu := { s.mu with wipeBusy := false, retained := false,
                                 errs := Sparse.clear s.mu.errs fun k => !s.mu.retained && k < 2 ^ 40 } }
    else s

end Sys2Proof.Machine
end

