-- ==== Sys2Proof/Machine/MotCmds.lean ====
section
/-!
DEFINITION. Machine/MotCmds.lean: commands of MOT: the spindle, its bridge and brake, and the actuators' drive (spec/14).
-/

namespace Sys2Proof.Machine

open Sys2Proof Host

/-- RETRACT_PHASE_END (R410): RET_MS of retract drive end, and the latch hold begins. -/
def execRetractPhaseEnd (x : Fin 2) (s : State) : Res :=
  .next <| if (actu s x).retract = .drive then modAct x (fun a => { a with retract := .latch }) s else s

/-- RETRACT_DONE (R410): the latch hold ends. -/
def execRetractDone (x : Fin 2) (s : State) : Res :=
  .next <|
    if (actu s x).retract = .latch then
      motEvent (9 + x) (modAct x (fun a => { a with retract := .none, retDone := true }) s)
    else s

/-- RAMP_LATCHED (R385, R410): the actuator is at rest against the latch. -/
def execRampLatched (x : Fin 2) (s : State) : Res := .next (rampLatched x s)

/-- FORCE_PARK_ASSERT (R16, R386, R569): a filtered assertion of FORCE_PARK_N. -/
def execForceParkAssert (s : State) : Res :=
  .next <|
    if s.pwr.sif4.out then
      parkAll { s with pwr := { s.pwr with sif4 := { s.pwr.sif4 with out := false, raw := false } } }
    else s

/-- SERVO_LANE_FRAME (R408): a lane frame arrives with the engine's published commands; `good`: its check holds. -/
def execServoLaneFrame (x : Fin 2) (good : Bool) (s : State) : Res :=
  .next <|
    if good then
      let v := sv s x
      let active := engineUp s x && !s.fenced 6
      if (actu s x).retract = .none then
        modAct x (fun a => { a with lastBad := false, armed := active, vcm := if active then v.vcm else 0,
                                    ma := if active then v.ma else 0 }) s
      else modAct x (fun a => { a with lastBad := false, armed := active }) s
    else
      let s := if x.val = 0 then s.bumpRf Reg.MOT_LANE_ERR 15 0 else s.bumpRf Reg.MOT_LANE_ERR 31 16
      if (actu s x).lastBad then laneFault x s else modAct x (fun a => { a with lastBad := true }) s

/-- LANE_TIMEOUT (R408): LANE_TMO µs without a valid frame while the watchdog is armed. -/
def execLaneTimeout (x : Fin 2) (s : State) : Res :=
  .next <| if (actu s x).armed then laneFault x s else s

/-- SPEED_COMMAND (R399): `t` is written to MOT_SPD_CMD. -/
def execSpeedCommand (v : BitVec 32) (s : State) : Res :=
  s.whenLive fun s => speedCommand (fld v 12 0) s

/-- SPEED_REF_TICK (R399, R400): the 1 ms step of the reference and the check of SPIN_OK. -/
def execSpeedRefTick (rev : Bool) (s : State) : Res :=
  .next <|
    if spinDriven s.mot && !s.mot.aligning then spinCheck rev (spinDown (refTick s)) else spinCheck rev s

/-- SPEED_LOOP_TICK (R397, R398, R400, R401): the 100 µs step of the PI loop with the achieved speed and current measured;
`emf`: amplitude of the back-EMF in µV; `inBand`: it stayed within 25 % of KE × speed since the last tick, 500 of which make
50 ms. The loop's fractions are exact and its command is truncated (DESIGN CHOICE, log entry 26). -/
def execSpeedLoopTick (act : BitVec 32) (iq : BitVec 16) (emf : BitVec 32) (inBand : Bool) (s : State) : Res :=
  .next <|
    let full := motKe s * act.toInt.natAbs
    let near := inBand && ((emf.toNat * 16 : Int) - full).natAbs * 4 ≤ full
    let s := modMot (fun m => { m with iq := iq.toInt, emfRun := if near then min 500 (m.emfRun + 1) else 0 }) s
    let s := newSpeed act.toInt s
    let s := if s.mot.st = .sine && emf.toNat * 32 < full then rotorLost s else s
    let s := if s.mot.st = .openLoop && !s.mot.aligning && rpm600 ≤ act.toInt && s.mot.emfRun = 500 then enterSpin .sine s else s
    let m := s.mot
    let lim := motLimit s
    match m.st with
    | .openLoop => modMot (fun m => { m with iqRef := lim }) s
    | .hall6 | .sine | .relock =>
      let e := (m.speedRef : Int) - m.act
      let integ := m.integ + (s.rf Reg.MOT_SPD_LOOP 31 16 : Int) * e
      let v := Int.tdiv ((s.rf Reg.MOT_SPD_LOOP 15 0 : Int) * e * 10000 + integ) 40960000
      modMot (fun m => { m with integ := integ, iqRef := clampI (-lim) lim v }) s
    | _ => modMot (fun m => { m with iqRef := 0 }) s

/-- DETECT_END (R395): DET_MS of detection end. With TARGET 0 by then the spindle is left to coast or is STOPPED. -/
def execDetectEnd (o : DetectObs) (s : State) : Res :=
  .next <|
    if s.mot.st ≠ .detect then s
    else
      let v := detectSpeed s o
      let det := if v = 0 then 1 else if 0 < v then 2 else 3
      let s := modMot (fun m => { m with det := det, act := v, dir := v < 0 }) s
      if spdTarget s = 0 then enterSpin (if v = 0 then .stopped else .coast) s
      else if v = 0 then startRest s
      else if v < 0 then motEvent 4 (enterSpin .revBrake s)
      else
        let s := modMot (fun m => { m with speedRef := v.toNat, remUp := 0, remDn := 0, integ := 0,
                                           starting := v < rpm600 }) s
        if rpm600 ≤ v then enterSpin .sine s else hallDrive s

/-- STOP_DETECTED (R394, R395): no Hall edge for STOP_MS with back-EMF below KE × 30 rpm. -/
def execStopDetected (s : State) : Res :=
  .next <|
    let z (s : State) : State := modMot (fun m => { m with act := 0, speedRef := 0, dir := false }) s
    match s.mot.st with
    | .coast => enterSpin .stopped (z s)
    | .brake => enterSpin .stopped (z s)
    | .revBrake => if spdTarget s = 0 then enterSpin .stopped (z s) else startRest (z s)
    | .fault => modMot (fun m => { m with act := 0 }) s
    | _ => s

/-- START_TIMEOUT (R396). -/
def execStartTimeout (s : State) : Res :=
  .next <| if s.mot.starting && spinDriven s.mot then spinFault 3 s else s

/-- The transition of a Hall edge (R401): three from a code of MAP to one not adjacent to it, in MAP or not, within one
revolution are a Hall fault; one from a code outside MAP has no adjacent code and is not counted (DESIGN CHOICE, log entry 26). -/
def hallStep (code : Nat) (s : State) : State :=
  let m := s.mot
  if (hallIndex s m.hall).isNone then modMot (fun m => { m with hall := code }) s
  else
    let d := hallDir s m.hall code
    let n := m.edges + 1
    let j := m.jumps + b2n (d = 0)
    let s := modMot (fun m => { m with hall := code, edges := if n = 36 then 0 else n, jumps := if n = 36 then 0 else j,
                                       dir := if d = 0 then m.dir else d = -1 }) s
    if 3 ≤ j then hallFault true s else s

/-- HALL_EDGE (R397, R398, R401): a filtered Hall edge. One to a code that is not in MAP has no angle: it is neither within
LOCK_TOL nor beyond LOSS_TOL (DESIGN CHOICE, log entry 26). -/
def execHallEdge (o : HallObs) (s : State) : Res :=
  .next <|
    if s.mot.hallSubst then s
    else
      let err := (edgeIndex s o.code.toNat).map fun n => edgeErr s n o.angle.toNat
      let s := hallStep o.code.toNat s
      if s.mot.hallSubst then s
      else
        let tol := s.rf Reg.MOT_OBS 23 16 * 6
        let loss := s.rf Reg.MOT_OBS 31 24 * 6
        match s.mot.st with
        | .sine =>
          let n := if err.any (loss < ·) then s.mot.lossEdges + 1 else 0
          let s := modMot (fun m => { m with lossEdges := n }) s
          if orOne (s.rf Reg.MOT_OBS2 7 4) ≤ n then rotorLost s else s
        | .hall6 | .relock =>
          let s := newSpeed o.act.toInt s
          let n := if err.any (· ≤ tol) then s.mot.lockEdges + 1 else 0
          let s := modMot (fun m => { m with lockEdges := n }) s
          if rpm600 ≤ o.act.toInt && orOne (s.rf Reg.MOT_OBS2 3 0) ≤ n then enterSpin .sine s else s
        | _ => s

/-- RELOCK_TIMEOUT (R398). -/
def execRelockTimeout (s : State) : Res := .next <| if s.mot.st = .relock then spinFault 2 s else s

/-- ALIGN_END (R401). -/
def execAlignEnd (s : State) : Res :=
  .next <| if s.mot.st = .openLoop then modMot (fun m => { m with aligning := false }) s else s

/-- Currents of phases A and B from the samples of a period (R402): `two`: both windows of a period, else one pair. -/
def phaseCurrents (o : PwmObs) (two : Bool) : Int × Int :=
  let h := o.i1.toInt
  let l : Int := if two then -o.i2.toInt else -h
  let third := -(h + l)
  let i (p : Fin 3) : Int := if p = o.high then h else if p = o.low then l else third
  (i 0, i 1)

/-- PWM_PERIOD (R401 to R404): a PWM period ends. -/
def execPwmPeriod (o : PwmObs) (s : State) : Res :=
  .next <|
    let m := s.mot
    let two := m.st = .sine || m.st = .holdup || (m.st = .openLoop && !m.aligning)
    if !(spinDriven m || m.st = .holdup) || o.high = o.low then s
    else
      let per := s.rf Reg.MOT_PWM 11 0
      let shut := two && per < 2 * s.rf Reg.MOT_PWM 23 16 + s.rf Reg.MOT_PWM 31 24
      let s := if shut then s
        else
          let (a, b) := phaseCurrents o two
          let (a, s) := fit16 a s
          let (b, s) := fit16 b s
          s.setReg Reg.MOT_PHASE_I (BitVec.ofNat 32 (a + b * 2 ^ 16))
      let s := if o.trip && !o.recent then motEvent 13 s else s
      if o.code = 0 || o.code = 7 then
        if s.mot.badCodes = 1 then hallFault true (modMot (fun m => { m with badCodes := 0 }) s)
        else modMot (fun m => { m with badCodes := 1 }) s
      else modMot (fun m => { m with badCodes := 0 }) s

/-- BRAKE_CHOPPER (R405): VM rises above SHUNT_V, or falls back; in HOLDUP the chopper is out of use (R413). -/
def execBrakeChopper (up : Bool) (s : State) : Res :=
  .next <|
    if s.mot.st = .holdup || s.mot.chopFault then modMot (fun m => { m with chopOn := false }) s
    else modMot (fun m => { m with chopOn := up }) s

/-- VM_OVERVOLTAGE (R406, R414): VM exceeds OV_V with the chopper on, or during HOLDUP. -/
def execVmOvervoltage (s : State) : Res :=
  .next <| if s.mot.chopOn || s.mot.st = .holdup then chopperFault s else s

end Sys2Proof.Machine
end

