-- ==== Sys2Proof/Machine/NetCmds.lean ====
section
/-!
DEFINITION. Machine/NetCmds.lean: the commands of NET (spec/02): ports, received frames and messages, queue pairs, work
requests and raw transmission.
-/

namespace Sys2Proof.Machine

open Sys2Proof Host

/-- What NET does while it is not fenced, starting with nothing sent. -/
def whenNet (k : State → State) (s : State) : State := if netLive s then k (netFresh s) else s

/-- SVC_FENCE_TIMEOUT (R34): SVC has stayed fenced for 2.0 s: Crucible drops NET. -/
def execSvcFenceTimeout (s : State) : Res := s.whenLive fun s => if s.fenced 1 then tailDrop 0 3 s else s

/-- PORT_MODE_SET (R36): a write of NET_CTRL, or of NET_Px_CFG of a port, with a new PORT_MODE or MEDIUM. -/
def execPortModeSet (p : Option (Fin 2)) (v : BitVec 32) (s : State) : Res :=
  s.whenLive fun s =>
    match p with
    | none => netCtrlWrite v s
    | some k => netCfgWrite k v s

/-- PORT_ENABLE (R37): Px_EN is written 1. -/
def execPortEnable (p : Fin 2) (s : State) : Res :=
  s.whenLive fun s => netCtrlWrite (putBit (s.reg Reg.NET_CTRL) (4 + p) true) s

/-- NET_HOLD_SET (R62): HOLD is written 1. -/
def execNetHoldSet (s : State) : Res := s.whenLive fun s => netCtrlWrite (putBit (s.reg Reg.NET_CTRL) 16 true) s

/-- NET_HOLD_CLEAR (R62): HOLD is written 0. -/
def execNetHoldClear (s : State) : Res := s.whenLive fun s => netCtrlWrite (putBit (s.reg Reg.NET_CTRL) 16 false) s

/-- LINK_UP (R37, R56): training of an enabled port completes; retransmission resumes. -/
def execLinkUp (p : Fin 2) (s : State) : Res :=
  s.whenLive fun s => whenNet (fun s =>
    if (port s p).training && portOn s p && nbit s.pwr.pg 6 then resendPort p (releaseWaiting p (setLink p true s)) else s) s

/-- LINK_DOWN (R38, R56): a port loses link and trains again; its queue pairs stay as they are. -/
def execLinkDown (p : Fin 2) (s : State) : Res :=
  s.whenLive fun s => if (port s p).up then
      modPort p (fun x => { x with training := portOn s p, neg := portOn s p && s.rb (Reg.NET_P_CFG p) 0 }) (setLink p false s)
    else s

/-- RX_FRAME (R46): a frame arrives at a port. -/
def execRxFrame (p : Fin 2) (o : FrameObs) (s : State) : Res :=
  s.whenLive fun s => whenNet (fun s => if (port s p).up then takeFrame p o s else s) s

/-- FEC_BURST_REARM (R40): a second without an uncorrectable codeword has passed. -/
def execFecBurstRearm (p : Fin 2) (s : State) : Res :=
  s.whenLive fun s => modPort p (fun x => { x with burstArmed := true, fec := [] }) s

/-- PFC_XON (R42): occupancy falls to `occ` bytes; XON goes out at XON KiB or less. -/
def execPfcXon (p : Fin 2) (occ : Fin 262145) (s : State) : Res :=
  s.whenLive fun s => whenNet (fun s =>
    let s := modPort p (fun x => { x with occ := occ }) s
    if (port s p).xoff && occ.val ≤ s.rf (Reg.NET_P_BUF_THR p) 31 16 * 1024 then
      netSend (.xon p (s.rf (Reg.NET_P_PFC p) 7 0)) (modPort p (fun x => { x with xoff := false }) s)
    else s) s

/-- CONTEXT_FETCH_DONE (R51, R53): the context of a queue pair arrives from DRAM; the packets held for it proceed. It waits
where no context can be evicted. -/
def execContextFetchDone (q : Fin 16384) (s : State) : Res :=
  s.whenLive fun s => whenNet (fun s =>
    if q.val ∈ s.net.fetching && (makeRoom s).isSome then
      let drop (x : Port) : Port := { x with missQ := x.missQ.filter (· ≠ q.val) }
      readOr 0 (qpcAddr s q) 256 (ctxBad q)
        (fun _ s => cacheTouch q (modNet (fun n => { n with port0 := drop n.port0, port1 := drop n.port1 }) s)) s
    else s) s

/-- PFC_PAUSE_RECEIVED (R43): a PFC frame pauses the enabled priorities of `on` and resumes those of `off`. -/
def execPfcPauseReceived (p : Fin 2) (on off : BitVec 8) (s : State) : Res :=
  s.whenLive fun s => whenNet (fun s =>
    let en := BitVec.ofNat 8 (s.rf (Reg.NET_P_PFC p) 7 0)
    let now := ((BitVec.ofNat 8 (port s p).paused ||| on) &&& ~~~off) &&& en
    let was := (port s p).paused
    let s := modPort p (fun x => { x with paused := now.toNat }) s
    let prio := s.rf (Reg.NET_P_PFC p) 10 8
    let s := releaseWaiting p s
    if nbit was prio && !now.getLsbD prio then resendPort p s else s) s

/-- PFC_STORM (R43): a priority has stayed paused for longer than STORM_MS. -/
def execPfcStorm (p : Fin 2) (s : State) : Res :=
  s.whenLive fun s => whenNet (fun s => if (port s p).paused ≠ 0 then netEvent 5 s else s) s

/-- CNP_RECEIVED (R45): a congestion notification for a queue pair. -/
def execCnpReceived (q : Fin 16384) (s : State) : Res :=
  s.whenLive fun s => whenNet (fun s =>
    let x := qp s q
    if qpUp x && x.lastDec.all (fun t => t + s.rf Reg.NET_CC_CFG 23 16 ≤ s.timeUs) then
      setQp q { x with rate := max (s.rf Reg.NET_CC_RATE 11 0) (x.rate - x.rate / 4), lastDec := some s.timeUs,
                       incFrom := some s.timeUs } s
    else s) s

/-- RATE_INCREASE (R45): the increase timer of a queue pair reaches INC_PERIOD. -/
def execRateIncrease (q : Fin 16384) (s : State) : Res :=
  s.whenLive fun s => whenNet (fun s =>
    let x := qp s q
    match x.incFrom with
    | some t =>
      if x.made && t + s.rf Reg.NET_CC_RATE 23 16 ≤ s.timeUs then
        setQp q { x with rate := min (lineRate s x.port) (x.rate + s.rf Reg.NET_CC_RATE 31 24), incFrom := some s.timeUs } s
      else s
    | none => s) s

/-- RAW_CONS_WRITE (R48): NET_RAW_CONS is written; a value beyond PROD is ignored. A value behind the present CONS is no
such value, and is taken (DESIGN CHOICE, log entry 51). -/
def execRawConsWrite (v : BitVec 32) (s : State) : Res :=
  s.whenLive fun s =>
    let c := v.toNat % 2 ^ 13
    let n := rawN s
    if c < 2 ^ (n + 1) && ringCount n (rawProd s) c ≤ 2 ^ n then s.setRf Reg.NET_RAW_CONS 12 0 c else netEvent 11 s

/-- RAW_RING_CONFIG (R48): NET_RAW_SIZE (`size`) or NET_RAW_BASE is written. A SIZE outside 4 to 12 is taken as written
(DESIGN CHOICE, log entry 51). -/
def execRawRingConfig (size : Bool) (v : BitVec 32) (s : State) : Res :=
  s.whenLive fun s =>
    if anyPortOn s then netEvent 11 s
    else ((s.setReg (if size then Reg.NET_RAW_SIZE else Reg.NET_RAW_BASE) v).setReg Reg.NET_RAW_PROD 0).setReg
      Reg.NET_RAW_CONS 0

/-- MBX_CONS_WRITE (R69): NET_MBX_m_CONS is written: SIZE while no queue pair is bound to the ring, and CONS. -/
def execMbxConsWrite (m : Fin 256) (v : BitVec 32) (s : State) : Res :=
  s.whenLive fun s =>
    let size := fld v 19 16
    let move := size ≠ s.rf (Reg.NET_MBX_CONS m) 19 16
    let bad := move && (mbxBound s m || 8 < size)
    let s := if move && !bad then
        (s.setRf (Reg.NET_MBX_CONS m) 19 16 size).setRf (Reg.NET_MBX_PROD m) 19 16 size
      else s
    let n := mbxN s m
    let c := fld v 12 0
    let s := s.setRf (Reg.NET_MBX_CONS m) 12 0 c
    let ok := c < 2 ^ (n + 1) && ringCount n (mbxProd s m) c ≤ 2 ^ n
    let rest := s.net.badCons.filter (· ≠ m.val)
    let s := modNet (fun x => { x with badCons := if ok then rest else m.val :: rest }) s
    if ok && !bad then s else netEvent 11 s

/-- A message for a queue pair that can take it. -/
def whenQp (q : Nat) (k : State → State) (s : State) : State :=
  whenNet (fun s => if qpUp (qp s q) && (port s (qp s q).port).up then k s else s) s

/-- What a queue pair does with a packet that comes for it: a CE mark is answered first (R44). -/
def whenPkt (q : Nat) (ce : Bool) (k : State → State) (s : State) : State :=
  whenQp q (fun s => k (if ce then cnpSend q s else s)) s

/-- A capsule in a mailbox slot whose opcode no major defines, and that no row of its own places, reaches the service
image (R60, R84). -/
def sendPlaced (q : Nat) (bytes : List Byte) (was now : State) : State :=
  let op := capOp bytes
  if (qp now q).rqPsn ≠ (qp was q).rqPsn && !opDefined 2 op && !opDefined 3 op && mayPlace q now then rawCapsule q bytes now
  else now

/-- RX_SEND (R60): a SEND message of a queue pair, with the PSNs of its first and last packet and its CE mark. -/
def execRxSend (q : Fin 16384) (psns : Psns) (bytes : List Byte) (ce : Bool) (s : State) : Res :=
  s.whenLive fun s => whenPkt q ce (inOrder q psns.first.toNat (ackAgain q) (fun s =>
    sendPlaced q bytes s (takeSend q psns.last.toNat bytes s))) s

/-- RX_RDMA_WRITE (R58): in PSN order. -/
def execRxRdmaWrite (h : PktHead) (addr : BitVec 64) (key : BitVec 32) (bytes : List Byte) (psns : Psns) (s : State) : Res :=
  s.whenLive fun s => whenPkt h.qp h.ce (inOrder h.qp psns.first.toNat (ackAgain h.qp) fun s =>
    if advHolds s h.qp addr.toNat bytes.length key.toNat then
      writeOr 0 addr.toNat bytes (unownedBad 0) (fun s =>
        netSend (.ack h.qp psns.last.toNat) (modQp h.qp (fun x => { x with rqPsn := (psns.last.toNat + 1) % 2 ^ 24 }) s)) s
    else remoteBad h.qp s) s

/-- RX_RDMA_READ (R58): in PSN order; a repeated request is served again. -/
def execRxRdmaRead (h : PktHead) (addr : BitVec 64) (key len : BitVec 32) (psn : BitVec 24) (s : State) : Res :=
  let serve (next : Qp → Nat) (s : State) : State :=
    if advHolds s h.qp addr.toNat len.toNat key.toNat then
      readOr 0 addr.toNat len.toNat (unownedBad 0) (fun bs s =>
        netSend (.readResponse h.qp bs) (modQp h.qp (fun x => { x with rqPsn := next x }) s)) s
    else remoteBad h.qp s
  s.whenLive fun s => whenPkt h.qp h.ce (inOrder h.qp psn.toNat (serve fun x => x.rqPsn)
    (serve fun _ => (psn.toNat + packets h.qp len.toNat) % 2 ^ 24)) s

/-- The oldest RDMA READ of a queue pair in flight. -/
def oldestRead (s : State) (q : Nat) : Option NetWr := s.net.wrs.find? fun w => w.qp = q && w.read

/-- RX_READ_RESPONSE (R57): data of the oldest RDMA READ goes to its local buffer; the last bytes complete it, with the work
requests before it. -/
def execRxReadResponse (h : PktHead) (bytes : List Byte) (s : State) : Res :=
  s.whenLive fun s => whenPkt h.qp h.ce (fun s =>
    match oldestRead s h.qp with
    | none => s
    | some w =>
      match findJob s w.sq w.first with
      | none => s
      | some j =>
        let n := field j.entry 24 4
        let done := (qp s h.qp).readDone
        let data := bytes.take (n - done)
        let s := ackUpTo h.qp ((w.psn + 2 ^ 24 - 1) % 2 ^ 24) s.net.wrs (refreshRetries h.qp s)
        writeOr 0 (field j.entry 16 5 + done) data
          (fun r s => failAccess w.sq w.first r
            (modNet (fun x => { x with wrs := x.wrs.filter fun v => !(v.sq = w.sq && v.first = w.first) })
              (modQp h.qp (fun x => { x with readDone := 0 }) s)))
          (fun s =>
            if n ≤ done + data.length then endWr w (modQp h.qp (fun x => { x with readDone := 0 }) s)
            else modQp h.qp (fun x => { x with readDone := done + data.length }) s) s) s

/-- RX_ACK (R57): an ACK up to a PSN. -/
def execRxAck (h : PktHead) (psn : BitVec 24) (s : State) : Res :=
  s.whenLive fun s => whenPkt h.qp h.ce (fun s => ackUpTo h.qp psn.toNat s.net.wrs (refreshRetries h.qp s)) s

/-- RX_NAK (R54, R55): an RNR NAK spends an RNR retry and waits for the RNR timer; any other NAK ends the queue pair. -/
def execRxNak (h : PktHead) (rnr : Bool) (s : State) : Res :=
  s.whenLive fun s => whenPkt h.qp h.ce (fun s =>
    let x := qp s h.qp
    if !rnr then qpError h.qp s
    else if x.rnrRetry = 7 then setQp h.qp { x with rnrWait := true } s
    else if x.rnrLeft = 0 then qpError h.qp s
    else setQp h.qp { x with rnrLeft := x.rnrLeft - 1, rnrWait := true } s) s

/-- ACK_TIMEOUT (R54, R55): the local ACK timer of a queue pair expires. -/
def execAckTimeout (q : Fin 16384) (s : State) : Res :=
  s.whenLive fun s => whenNet (fun s =>
    let x := qp s q
    if x.made && x.st = .rts && x.timeout ≠ 0 && !x.rnrWait && s.net.wrs.any (fun w => w.qp = q) then
      if x.triesLeft = 0 then qpError q s else resend q (setQp q { x with triesLeft := x.triesLeft - 1 } s)
    else s) s

/-- RNR_TIMER_EXPIRY (R54): the refused request is tried again. -/
def execRnrTimerExpiry (q : Fin 16384) (s : State) : Res :=
  s.whenLive fun s => whenNet (fun s =>
    if (qp s q).made && (qp s q).rnrWait then resend q (modQp q (fun x => { x with rnrWait := false }) s) else s) s

/-- QP_ERR_FIFO_POP (R55): a read of NET_QP_ERR_FIFO. -/
def execQpErrFifoPop (s : State) : Res :=
  s.whenLive fun s =>
    let (w, rest) := match s.net.errFifo with
      | (q, r) :: t => (q + r * 2 ^ 16 + 2 ^ 31, t)
      | [] => (0, [])
    { modNet (fun n => { n with errFifo := rest, errOvf := 0 }) s with
      resp := ⟨BitVec.ofNat 64 (w + s.net.errOvf * 2 ^ 24), false⟩ }

/-! QP control. -/

/-- End a QP-control job with a status and results. -/
def endCtl (j : Job) (st r0 r1 r2 : Nat) (s : State) : State := finishJob j.sq j.first ⟨st, r0, r1, r2, 0⟩ s

/-- Run the next QP-control entry of a ring if its OP is the one named: job, entry and queue-pair index. -/
def qpCtl (r op : Nat) (k : Job → List Byte → Nat → State → State) (s : State) : State :=
  whenNet (fun s =>
    match nextWr s r 0 op with
    | some j => k j j.entry (field j.entry 8 2 % 16384) s
    | none => s) s

/-- A queue pair with the parameters of an entry (Table "First-entry bodies"). -/
def qpOf (s : State) (b : List Byte) : Qp :=
  let p := (byteAt b 11).toNat % 2
  { Qp.none with made := true, port := p, gid := (byteAt b 11).toNat / 2 % 8, destQpn := field b 12 3,
                 remoteGid := (b.drop 16).take 16, remoteMac := (b.drop 32).take 6, timeout := field b 38 1 % 32,
                 retry := field b 39 1 % 8, rnrRetry := field b 39 1 / 16 % 8, rnrTimer := field b 40 1 % 32,
                 maxRd := field b 41 1 % 32, sqPsn := field b 44 3, rqPsn := field b 48 3, rate := lineRate s p }

/-- CREATE (R51, R52): a queue pair in RESET; one that exists already makes no transition. -/
def execCreate (r : Fin 16384) (s : State) : Res :=
  s.whenLive fun s => qpCtl r 1 (fun j b q s =>
    if (qp s q).made then endCtl j 6 0 0 0 s
    else storeCtx q (failAccess j.sq j.first) (fun s => endCtl j 0 0 0 0 (setQp q (qpOf s b) s)) s) s

/-- The transitions of the reliable-connected service (R52). -/
def qpMoves (st : QpSt) (target : Nat) : Bool :=
  match st, target with
  | _, 0 => true
  | _, 4 => true
  | .reset, 1 => true
  | .init, 1 => true
  | .init, 2 => true
  | .rtr, 3 => true
  | .rts, 3 => true
  | _, _ => false

/-- The parameters that the transition to a state takes from an entry (R158): the port for INIT, the path and the
responder's for RTR, the requester's for RTS. -/
def qpTake (target : Nat) (x y : Qp) : Qp :=
  match target with
  | 1 => { x with st := .init, port := y.port, gid := y.gid, rate := y.rate }
  | 2 => { x with st := .rtr, gid := y.gid, destQpn := y.destQpn, remoteGid := y.remoteGid, remoteMac := y.remoteMac,
                  rqPsn := y.rqPsn, rnrTimer := y.rnrTimer, maxRd := y.maxRd }
  | _ => { x with st := .rts, sqPsn := if x.st = .rts then x.sqPsn else y.sqPsn, timeout := y.timeout, retry := y.retry,
                  rnrRetry := y.rnrRetry, maxRd := y.maxRd, triesLeft := y.retry, rnrLeft := y.rnrRetry }

/-- Move a queue pair to TARGET. -/
def qpMove (q target : Nat) (b : List Byte) (s : State) : State :=
  match target with
  | 0 => dropConns (fun k => k = q) (qpFlush q (modQp q (fun x =>
      { x with st := .reset, lastDec := none, incFrom := none, lastCnp := none, triesLeft := 0, rnrLeft := 0,
               rnrWait := false, readDone := 0 }) s))
  | 4 => if (qp s q).st = .error then s else qpError q s
  | t => modQp q (fun x => qpTake t x (qpOf s b)) s

/-- MODIFY (R52). -/
def execModify (r : Fin 16384) (s : State) : Res :=
  s.whenLive fun s => qpCtl r 2 (fun j b q s =>
    let x := qp s q
    let t := field b 10 1 % 8
    if x.made && qpMoves x.st t then
      storeCtx q (failAccess j.sq j.first) (fun s => endCtl j 0 0 0 0 (qpMove q t b s)) s
    else endCtl j 6 0 0 0 s) s

/-- Number of a queue-pair state, as TARGET. -/
def QpSt.code : QpSt → Nat
  | .reset => 0
  | .init => 1
  | .rtr => 2
  | .rts => 3
  | .error => 4

/-- QUERY (R161): state, rate limit, PSNs. -/
def execQuery (r : Fin 16384) (s : State) : Res :=
  s.whenLive fun s => qpCtl r 3 (fun j _ q s =>
    let x := qp s q
    if x.made then endCtl j 0 x.st.code x.rate (x.sqPsn + x.rqPsn * 2 ^ 32) s else endCtl j 6 0 0 0 s) s

/-- DESTROY (R51): the queue pair is gone, its work requests flushed. -/
def execDestroy (r : Fin 16384) (s : State) : Res :=
  s.whenLive fun s => qpCtl r 4 (fun j _ q s =>
    if (qp s q).made then
      storeCtx q (failAccess j.sq j.first) (fun s =>
        endCtl j 0 0 0 0 (dropConns (fun k => k = q) (cacheForget q (setQp q Qp.none (qpFlush q s))))) s
    else endCtl j 6 0 0 0 s) s

/-- PIN (R53): at most 64 contexts; a context that is not cached is fetched. Where none can be evicted for it, the pin is
answered as one beyond 64 (DESIGN CHOICE, log entry 51). -/
def execPin (r : Fin 16384) (s : State) : Res :=
  s.whenLive fun s => qpCtl r 5 (fun j _ q s =>
    if !(qp s q).made then endCtl j 6 0 0 0 s
    else if q ∈ s.net.pinned then endCtl j 0 0 0 0 s
    else if 64 ≤ s.net.pinned.length || !(q ∈ s.net.cache || (makeRoom s).isSome) then endCtl j 7 0 0 0 s
    else withCtx q (fun r s => failAccess j.sq j.first r (ctxBad q r s)) (fun s =>
      endCtl j 0 0 0 0 (modNet (fun n => { n with pinned := q :: n.pinned }) s)) s) s

/-- UNPIN (R53). -/
def execUnpin (r : Fin 16384) (s : State) : Res :=
  s.whenLive fun s => qpCtl r 6 (fun j _ q s =>
    endCtl j 0 0 0 0 (modNet (fun n => { n with pinned := n.pinned.filter (· ≠ q) }) s)) s

/-- BIND_MAILBOX (R59): in RESET or INIT. -/
def execBindMailbox (r : Fin 16384) (s : State) : Res :=
  s.whenLive fun s => qpCtl r 7 (fun j b q s =>
    let x := qp s q
    if x.made && (x.st = .reset || x.st = .init) then
      endCtl j 0 0 0 0 (setQp q { x with mailbox := some (byteAt b 10).toNat } s)
    else endCtl j 6 0 0 0 s) s

/-- ADVERTISE (R58): an entry of the advertised-buffer table is written, where it is free. The table is kept in `Net.adv`,
since the spec gives it no address in DRAM (DESIGN CHOICE, log entry 51). -/
def execAdvertise (r : Fin 16384) (s : State) : Res :=
  s.whenLive fun s => qpCtl r 8 (fun j b _ s =>
    let e := field b 8 2 % 4096
    if (Sparse.get (fun _ => Adv.none) s.net.adv e).qp ≠ 0 then endCtl j 7 0 0 0 s
    else
      let a : Adv := ⟨field b 10 2 % 16384, field b 16 5, field b 24 8, field b 32 4⟩
      endCtl j 0 0 0 0 (modNet (fun n => { n with adv := Sparse.set (fun _ => Adv.none) n.adv e a }) s)) s

/-- WITHDRAW (R58): an entry is removed. -/
def execWithdraw (r : Fin 16384) (s : State) : Res :=
  s.whenLive fun s => qpCtl r 9 (fun j b _ s =>
    let e := field b 8 2 % 4096
    endCtl j 0 0 0 0 (modNet (fun n => { n with adv := Sparse.set (fun _ => Adv.none) n.adv e Adv.none }) s)) s

/-! Work requests. -/

/-- Run the next work request of a ring if its OP is the one named and its queue pair does not wait for the RNR timer. -/
def runWr (r op : Nat) (k : Job → List Byte → State → State) (s : State) : State :=
  whenNet (fun s =>
    match nextWr s r 1 op with
    | some j => if (qp s (field j.entry 8 2 % 16384)).rnrWait then s else k j j.entry s
    | none => s) s

/-- A work request that reads its local buffer first. -/
def runLocal (j : Job) (out : Nat → List Byte → NetOut) (s : State) : State :=
  readOr 0 (field j.entry 16 5) (field j.entry 24 4) (failAccess j.sq j.first)
    (fun bs s => startWr false j (fun q s => netSend (out q bs) s) s) s

/-- SEND (R57). -/
def execSend (r : Fin 16384) (s : State) : Res :=
  s.whenLive fun s => runWr r 1 (fun j _ s => runLocal j (fun q bs => .send q bs) s) s

/-- RDMA_WRITE (R57). -/
def execRdmaWrite (r : Fin 16384) (s : State) : Res :=
  s.whenLive fun s => runWr r 2 (fun j b s => runLocal j (fun q bs => .rdmaWrite q (field b 32 8) (field b 40 4) bs) s) s

/-- RDMA_READ (R54, R57): at most MAX_RD of a queue pair are outstanding. -/
def execRdmaRead (r : Fin 16384) (s : State) : Res :=
  s.whenLive fun s => runWr r 3 (fun j b s =>
    let q := field b 8 2 % 16384
    if (qp s q).maxRd ≤ (s.net.wrs.filter fun w => w.qp = q && w.read).length && (qp s q).st = .rts then s
    else startWr true j (fun q s => netSend (.rdmaRead q (field b 32 8) (field b 40 4) (field b 24 4)) s) s) s

/-- TRANSMIT (R41, R47): one raw frame leaves on priority 0 of a port, once it may. -/
def execTransmit (r : Fin 16384) (s : State) : Res :=
  s.whenLive fun s => whenNet (fun s =>
    match nextWr s r 2 1 with
    | some j =>
      let p := (byteAt j.entry 8).toNat % 2
      let n := field j.entry 24 2
      if mayTransmit s p 0 then
        readOr 0 (field j.entry 16 5) n (failAccess j.sq j.first)
          (fun bs s => netSend (.raw p bs) (finishJob j.sq j.first ⟨0, n, 0, 0, 0⟩ s)) s
      else s
    | none => s) s

end Sys2Proof.Machine
end

