-- ==== Sys2Proof/Machine/PwrCmds.lean ====
section
/-!
DEFINITION. Machine/PwrCmds.lean: commands of the supplies, the resets and the slow-input filter (spec/14 R412 to R415,
spec/21, spec/23 R584, R598).
-/

namespace Sys2Proof.Machine

open Sys2Proof Host

/-- INPUT_DIP (R412): an input, VIN12 or VIN5, falls below its threshold. A fall of VIN12 ends the wait of R550. -/
def execInputDip (v12 : Bool) (s : State) : Res :=
  .next <|
    let s := modPwr (fun p => if v12 then { p with vin12Good := false } else { p with vin5Good := false }) s
    let s := modMot (fun m => { m with dip := true }) s
    match s.pwr.powerUp with
    | .holding => modPwr (fun p => { p with powerUp := .off }) s
    | .gaveUp => if v12 then modPwr (fun p => { p with powerUp := .off }) s else s
    | _ => s

/-- INPUT_GOOD (R412, R549): both inputs are above their thresholds: a dip that did not last is counted, and a power-up
that waits for them begins its hold. -/
def execInputGood (s : State) : Res :=
  .next <|
    let was := s.mot.dip
    let s := modPwr (fun p => { p with vin12Good := true, vin5Good := true }) s
    let s := modMot (fun m => { m with dip := false }) s
    let s := if was && isUp s then motEvent 15 (s.bump Reg.MOT_DIP_CNT) else s
    match s.pwr.powerUp with
    | .off => if s.mot.bootDue || s.pwr.holdup then s else modPwr (fun p => { p with powerUp := .holding }) s
    | _ => s

/-- POWER_LOSS (R413): a dip has lasted DEGLITCH. -/
def execPowerLoss (s : State) : Res :=
  .next <| if s.mot.dip && !inputsGood s then powerLoss (modMot (fun m => { m with dip := false }) s) else s

/-- INPUT_OVERVOLTAGE (R584): VIN12 has exceeded SHUNT_V for DEGLITCH. -/
def execInputOvervoltage (s : State) : Res :=
  .next <| powerLoss (modPwr (fun p => { p with vin12Good := false }) s)

/-- HOLDUP_DONE (R415, R416): MOT_PL_CTRL.DONE is written 1. -/
def execHoldupDone (s : State) : Res := .next <| holdupEnd s

/-- VM_BELOW_HOLD_MIN (R415). -/
def execVmBelowHoldMin (s : State) : Res := .next <| holdupEnd s

/-- INPUT_GOOD_BOOT (R415, R555, R561): the input has been good for 100 ms after hold-up. -/
def execInputGoodBoot (s : State) : Res :=
  .next <|
    if s.mot.bootDue && inputsGood s && !s.pwr.resetPinLow && s.bud.quenched.isNone then
      modPwr (fun p => { p with powerUp := .holding }) (modMot (fun m => { m with bootDue := false }) s)
    else s

/-- POWER_UP_START (R549): the conditions have held for 2 ms. -/
def execPowerUpStart (s : State) : Res :=
  .next <|
    match s.pwr.powerUp with
    | .holding =>
      if inputsGood s && (!s.rb Reg.PWR_CTRL 1 || !s.pwr.sif3.out) then
        modPwr (fun p => { p with isoOn := true, powerUp := .ramping, tries := 0 }) s
      else s
    | _ => s

/-- RAMP_FAILURE (R550): VM has not reached 10.8 V within 40 ms. -/
def execRampFailure (s : State) : Res :=
  .next <|
    match s.pwr.powerUp with
    | .ramping =>
      modPwr (fun p => { p with isoOn := false, tries := min 3 (p.tries + 1),
                                powerUp := if 3 ≤ p.tries + 1 then .gaveUp else .retryWait }) s
    | _ => s

/-- RAMP_RETRY (R550): one second after a failed ramp. -/
def execRampRetry (s : State) : Res :=
  .next <|
    match s.pwr.powerUp with
    | .retryWait => modPwr (fun p => { p with isoOn := true, powerUp := .ramping }) s
    | _ => s

/-- VM_GOOD (R551): VM reaches 10.8 V; VAON has started, and V18 starts. -/
def execVmGood (s : State) : Res :=
  .next <|
    match s.pwr.powerUp with
    | .ramping => modPwr (fun p => { p with vmGood := true, pg := 1, powerUp := .rails 1 }) s
    | _ => s

/-- RAIL_SEQUENCE_STEP (R551): the rail started last is good, and the next one starts; after VCORE the reset hold. -/
def execRailSequenceStep (s : State) : Res :=
  .next <|
    match s.pwr.powerUp with
    | .rails k =>
      modPwr (fun p => { p with pg := if nbit p.pg k then p.pg else p.pg + 2 ^ k,
                                powerUp := if 7 ≤ k then .resetHold else .rails (k + 1) }) s
    | _ => s

/-- COLD_RESET_RELEASE (R551, R557, R598): every rail has been good for 10 ms; with a failed reference crystal (`xtal`
false) the release is withheld, and while RESET_N is low it waits. -/
def execColdResetRelease (xtal : Bool) (s : State) : Res :=
  .next <|
    match s.pwr.powerUp with
    | .resetHold =>
      if xtal && s.pwr.pg = 0xFF then
        let s := modPwr (fun p => { p with powerUp := .up }) s
        if s.pwr.resetPinLow || s.bud.quenched.isSome then s else releaseReset s
      else s
    | _ => s

/-- RAIL_FAULT (R551, R552): the rail of order `k` is out of its window, or not good 2 ms after its start. -/
def execRailFault (k : Fin 8) (s : State) : Res :=
  .next <|
    match s.pwr.powerUp with
    | .up => railFault k s
    | .rails j => if k.val ≤ j then railFault k s else s
    | .resetHold => railFault k s
    | _ => s

/-- RAIL_FAULT_RESTART (R552): 100 ms after a rail fault the rails start again. -/
def execRailFaultRestart (s : State) : Res :=
  .next <|
    match s.pwr.powerUp with
    | .railFault _ => modPwr (fun p => { p with powerUp := .rails 1 }) s
    | _ => s

/-- PRESENCE_REMOVAL (R555): PRESENT_N is negated and filtered. -/
def execPresenceRemoval (s : State) : Res :=
  .next <|
    if s.pwr.sif3.out then s else sifLevel 3 true s

/-- RESET_PIN_ASSERT (R557, R561): RESET_N has been low for 10 µs; ignored during hold-up. -/
def execResetPinAssert (s : State) : Res :=
  .next <|
    let s := modPwr (fun p => { p with resetPinLow := true }) s
    if s.pwr.holdup then s else beginReset .warm 6 s

/-- RESET_PIN_LONG (R557): RESET_N has been low for 1 s. -/
def execResetPinLong (s : State) : Res :=
  .next <| if s.pwr.resetPinLow && !s.pwr.holdup then beginReset .cold 5 s else s

/-- RESET_PIN_RELEASE (R557): RESET_N rises; what it held is released. -/
def execResetPinRelease (s : State) : Res :=
  .next <|
    let s := modPwr (fun p => { p with resetPinLow := false }) s
    if isUp s && s.bud.quenched.isNone then releaseReset s else s

/-- PWR_RESET of a kind (R557, R561): ignored during hold-up. -/
def pwrReset (k : ResetKind) (s : State) : State := if s.pwr.holdup then s else beginReset k 7 s

/-- PWR_RESET_WARM (R557): KIND 1 is written with GO by Crucible. -/
def execPwrResetWarm (s : State) : Res := s.whenLive fun s => pwrReset .warm s

/-- PWR_RESET_DEVICE (R557): KIND 2. -/
def execPwrResetDevice (s : State) : Res := s.whenLive fun s => pwrReset .device s

/-- PWR_RESET_COLD (R557): KIND 3. -/
def execPwrResetCold (s : State) : Res := s.whenLive fun s => pwrReset .cold s

/-- SIF_EDGE (R565, R566): input `n` shows a level; one that did not hold for MINW (`held` false) is discarded and
counted. -/
def execSifEdge (n : Fin 8) (level held : Bool) (s : State) : Res :=
  .next <|
    if held then sifLevel n level s
    else
      let r := if n.val < 4 then Reg.SIF_GLITCH_0 else Reg.SIF_GLITCH_1
      let b := n.val % 4 * 8
      s.bumpRf r (b + 7) b

/-- SIF_WINDOW (R566): a window of WIN_MS of input `n` ends. -/
def execSifWindow (n : Fin 8) (s : State) : Res := .next <| sifWindow n s

/-- SIF_STUCK (R567): input `n` has held its active level, or a Hall input has made no accepted transition at 600 rpm or
more, for STUCK_MS; a STUCK_MS of 0 disables the check. -/
def execSifStuck (n : Fin 8) (s : State) : Res :=
  .next <|
    let x := sif s n
    let held := if n.val < 3 then rpm600 ≤ s.mot.act.natAbs else x.out = sifActive n
    if fld x.cfgB 31 16 ≠ 0 && held && !sifFaulty s n then sifFail n (8 + n.val) s else s

/-- SIF_REARM (R568): a word is written to SIF_FAULT. -/
def execSifRearm (m : BitVec 16) (s : State) : Res :=
  .next <| (List.range 8).foldl (fun s n => if m.getLsbD n || m.getLsbD (8 + n) then sifRearm n s else s) s

/-- WAKE_ASSERT (R570): WAKE is asserted and filtered. -/
def execWakeAssert (s : State) : Res := .next <| if s.pwr.sif5.out then s else sifLevel 5 true s

/-- VAON_RETENTION_LOSS (R558): VAON falls below its retention level as VM decays. -/
def execVaonRetentionLoss (s : State) : Res :=
  .next <|
    match s.pwr.powerUp with
    | .up => s
    | _ => if s.pwr.inReset.isSome then modPwr (fun p => { p with aonLost := true, pg := p.pg / 2 * 2 }) s else s

/-- AON_OSC_FAIL (R598): the internal oscillator takes the place of the AON crystal, and UNSYNC is set until SET_TIME. -/
def execAonOscFail (s : State) : Res :=
  .next <| { modPwr (fun p => { p with aonInternalOsc := true }) s with evc := { s.evc with unsync := true } }

/-- AON_WRITE_DONE (R31): the handshake of an AON register write ends. -/
def execAonWriteDone (s : State) : Res := .next <| modPwr (fun p => { p with aonBusy := false }) s

end Sys2Proof.Machine
end

