-- ==== Sys2Proof/Machine/ServoCmds.lean ====
section
/-!
DEFINITION. Machine/ServoCmds.lean: commands of the servo engines (spec/13): timeouts, FAULT_CLR, retargets, the trace, and
the SEEK, LOAD and UNLOAD macro-operations as the shipped routines run them (R387).
-/

namespace Sys2Proof.Machine

open Sys2Proof Host

/-- RAMP_TIMEOUT (R385). -/
def execRampTimeout (x : Fin 2) (s : State) : Res :=
  s.whenLive fun s => if (sv s x).st = .loading || (sv s x).st = .unloading then servoFault x 4 s else s

/-- FAULT_CLR (R364, R386): it takes effect once the power die has reported the retract complete. -/
def execFaultClr (x : Fin 2) (s : State) : Res :=
  s.whenLive fun s =>
    if (sv s x).st = .fault then
      if (actu s x).retDone then clearFault x s else svEvent x 5 s
    else s

/-- SV_CMD_RETARGET (R376, R388, R393): `v` is written to MEDx_SV_CMD with GO. -/
def execSvCmdRetarget (x : Fin 2) (v : BitVec 32) (s : State) : Res :=
  s.whenLive fun s =>
    if !(s.eft (2 * x)).owns && !(s.eft (2 * x + 1)).owns then
      let r := retarget x ⟨fld v 23 0, bit v 30, bit v 29⟩ (s.setReg (Reg.MED_SV_CMD x) (v &&& 0x60FFFFFF))
      if !following s x && refusesTarget (sv s x) then svEvent x 5 r else r
    else svEvent x 5 s

/-- TRACE_ARM (R389). -/
def execTraceArm (x : Fin 2) (s : State) : Res :=
  s.whenLive fun s => modSv x (fun v => { v with trace := .armed, wrapped := false, wptr := 0 }) s

/-- TRACE_TRIG_NOW (R389). -/
def execTraceTrigNow (x : Fin 2) (s : State) : Res := s.whenLive fun s => traceTrigger x s

/-- TRACE_STOP (R389). -/
def execTraceStop (x : Fin 2) (s : State) : Res := s.whenLive fun s => modSv x (fun v => { v with trace := .idle }) s

/-- The unit in a MEDx eft that stands at the start of a macro-operation `op`: running, uncommitted. -/
def medUnit (e op : Nat) (s : State) : Option EftUnit :=
  let x := s.eft e
  match x.unit with
  | some u => if x.st = .running && x.wait = .none && x.xfer.isNone && !u.committed && eOp u.job.entry = op then some u
              else none
  | none => none

/-- The routine takes the datapath token (R176, R387): none where the other eft or a sweep holds it. -/
def routineToken (e : Nat) (s : State) : Option State :=
  if (s.eft e).owns || tokenFree s (e / 2) then some (modEft e (fun x => { x with owns := true }) s) else none

/-- SVSTAT at the entry of a unit finds the actuator not available (R387). -/
def servoDown (s : State) (x : Nat) : Bool :=
  match (sv s x).st with
  | .seeking => false
  | .settling => false
  | .tracking => false
  | _ => true

/-- ENGINE_FAIL with a detail code, after `done` units (R191, R387). -/
def engineEnd (e code : Nat) (s : State) : State :=
  match (s.eft e).unit with
  | none => s
  | some u => eftJobDone e u.job.unit 0 ⟨4, u.res0, u.res1, u.res2, engineDetail code (lastCause s e) (lastPc s e)⟩ s

/-- The engine has settled on a retarget, its last PES observed, within SETTLE_THR (R377, R379, R383). A move to another target
asserts write-unsafe, which later wedges negate (R381). -/
def landAt (x : Nat) (t : Retarget) (pes : Int) (s : State) : State :=
  let s := modSv x (fun v => { v with latest := t, fresh := true }) s
  let (s, _) := takeTarget x s
  let s := if (sv s x).st = .tracking then s else assertWus x s
  let thr : Int := s.rf (Reg.MED_SV_SETTLE x) 11 0
  let p := clampI (-thr) thr pes
  let s := modSv x (fun v => { v with r := v.target, v := 0, a := 0, y := v.target + p, pes := p }) s
  wakeSettled x (svEnter x .tracking s)

/-- SEEK (R183, R384, R387): the routine retargets its actuator to the track of the job's PBA and waits 50 ms for
SETTLED. -/
def execSeek (e : Fin 4) (o : SettleObs) (s : State) : Res :=
  s.whenLive fun s =>
    match medUnit e 5 s, routineToken e s with
    | some u, some s =>
      let x := e.val / 2
      if servoDown s x then engineEnd e 0x8301 s
      else
        withSect (medZone u.job.entry) (medPba u.job.entry % 2 ^ 17) (eftAccessFail e) (fun t s =>
          if following s x then
            let s := retarget x ⟨t.track, false, false⟩ s
            match o with
            | .settled _ => eftJobDone e 1 0 ⟨0, 0, 0, 0, 0⟩ s
            | _ => engineEnd e 0x8302 s
          else match o with
            | .settled pes =>
              eftJobDone e 1 0 ⟨0, 0, 0, 0, 0⟩ (landAt x ⟨t.track, false, false⟩ pes (retarget x ⟨t.track, false, false⟩ s))
            | .timeout => engineEnd e 0x8302 (retarget x ⟨t.track, false, false⟩ s)
            | .fault => engineEnd e 0x8301 (servoFault x 1 (retarget x ⟨t.track, false, false⟩ s))) s
    | _, _ => s

/-- LOAD (R183, R363, R385, R387): the load, with the track of the job's PBA as its initial retarget. -/
def execLoad (e : Fin 4) (o : SettleObs) (s : State) : Res :=
  s.whenLive fun s =>
    match medUnit e 6 s, routineToken e s with
    | some u, some s =>
      let x := e.val / 2
      withSect (medZone u.job.entry) (medPba u.job.entry % 2 ^ 17) (eftAccessFail e) (fun t s =>
        let ok := (sv s x).st = .off && spinOk s && !forcePark s
        let s := rampOff x ⟨t.track, false, false⟩ s
        if !ok then engineEnd e 0x8303 s
        else match o with
          | .settled pes =>
            eftJobDone e 1 0 ⟨0, 0, 0, 0, 0⟩ (landAt x ⟨t.track, false, false⟩ pes (svEnter x .seeking s))
          | .timeout => engineEnd e 0x8302 (svEnter x .seeking s)
          | .fault => engineEnd e 0x8304 (servoFault x 4 s)) s
    | _, _ => s

/-- UNLOAD (R183, R384, R385): the unload up to the ramp latch, or its timeout (DEDUCED, log entry 22). -/
def execUnload (e : Fin 4) (latched : Bool) (s : State) : Res :=
  s.whenLive fun s =>
    match medUnit e 7 s, routineToken e s with
    | some _, some s =>
      let x := e.val / 2
      let ok := (sv s x).st = .tracking
      let s := rampOn x s
      if !ok then engineEnd e 0x8303 s
      else if latched then eftJobDone e 1 0 ⟨0, 0, 0, 0, 0⟩ (rampLatched x s)
      else engineEnd e 0x8301 (servoFault x 4 s)
    | _, _ => s

end Sys2Proof.Machine
end

