-- ==== Sys2Proof/Machine/MediaOps.lean ====
section
/-!
DEFINITION. Machine/MediaOps.lean: the shipped READ, VERIFY, CAPTURE and WRITE routines of the MEDx efts (R303, R351 to
R357, R387), unit by unit, over the operations of the ports.
-/

namespace Sys2Proof.Machine

open Sys2Proof

/-- A fault of an uncommitted unit that every run meets again: the unit restarts until RESTART_LIMIT ends the job
(R185, R190). -/
def faultOut (e cause : Nat) (s : State) : State := (List.range 17).foldl (fun s _ => unitFault e cause s) s

/-- A job is still in the eft, between units or inside one. -/
def unitLives (s : State) (e : Nat) : Bool := (s.eft e).unit.isSome

/-- The routine's wait for its actuator (R387): on track at once, settled on the slot's retarget, or the job's end. -/
def settleFor (e : Nat) (t : Retarget) (o : SettleObs) (k : State → State) (s : State) : State :=
  let x := e / 2
  if onTrack s x t.track t.write then k s
  else match o with
    | .settled pes => k (if following s x then s else landAt x t pes s)
    | .timeout => engineEnd e 0x8302 s
    | .fault => engineEnd e 0x8301 (servoFault x 1 s)

/-- One ordinary read of a slot (R351): RSECT, RARM and WAIT RDONE. -/
def attemptRead (e slot : Nat) (settle : SettleObs) (a : AttemptObs) (s : State) : State :=
  let x := e / 2
  withSect (medZone (eftEntry s e)) slot (eftAccessFail e) (fun t s =>
    settleFor e ⟨t.track, false, false⟩ settle (fun s =>
      let s := rarm e s
      match (med s x).rc.armed with
      | none => s
      | some r =>
        let s := readPass x r a.pass s
        if (med s x).rc.rdone then s else readOutcome x a.out s) (rsectLoad x t s)) s

/-- OUTCOME of the last armed sector, and its weight. -/
def lastOutcome (s : State) (x : Nat) : Nat := fld (med s x).rc.rstat 3 0
def lastSw (s : State) (x : Nat) : Nat := fld (med s x).rc.rstat 27 16

/-- State of the offline actions after an attempt (R351, R352): what the runs meet beside the samples, the offset last tried,
whether one has delivered, and the weight of the last. -/
structure Chain where
  st : State
  obs : OutcomeObs
  off : Int
  won : Bool
  sw : Nat

/-- Offline work that the routine asks for and waits for: it runs after all that started before it (R328, R347). -/
def chainWork (x : Nat) (off : Int) (tgt : Nat) (probe : Bool) (c : Chain) : Chain :=
  let s := addOffline x (med c.st x).sr.lastSlot off tgt probe (med c.st x).rc.armedBy none c.st
  let s := (List.range (med s x).sr.offline.length).foldl (fun s _ => offlineNext x c.obs s) s
  let w := (med s x).sr.ostat.getD 1
  { c with st := s, off := off, won := !probe && fld w 3 0 = 0, sw := fld w 27 16 }

/-- A full offline run at an offset with a target (R347). -/
def chainRun (x : Nat) (off : Int) (tgt : Nat) (c : Chain) : Chain := chainWork x off tgt false c

/-- The offset search (R352): `acc` the accepted offset with its weight, none for NO_SYNC. -/
def chainSearch (x : Nat) (acc : Option (Int × Nat)) (tgt : Nat) (c : Chain) : Chain :=
  let (c, ws) := offsets15.foldl (fun (p : Chain × List (Int × Nat)) e =>
    match acc with
    | some (a, sw) => if e = a then (p.1, p.2 ++ [(e, sw)]) else let c := chainWork x e tgt true p.1; (c, p.2 ++ [(e, c.sw)])
    | none => let c := chainWork x e tgt true p.1; (c, p.2 ++ [(e, c.sw)])) (c, [])
  let pick := ((bestOffset ws).getD (0, 0)).1
  if (acc.map fun p => p.1) = some pick then { c with off := pick }
  else
    let c := chainRun x pick tgt c
    if c.won && pick ≠ ((acc.map fun p => p.1).getD 0) then
      { c with st := srEvent x 1 (c.st.bump (Reg.MED_SR_FALSE_SYNC x)) }
    else c

/-- SW_HIGH in effect. -/
def swHigh (s : State) (x : Nat) : Nat := min 3584 (s.rf (Reg.MED_SR_LADDER x) 11 0)

/-- TGT of the entry in use, and the alternate target. -/
def lastTgt (s : State) (x : Nat) : Nat := (med s x).rc.entry.tgt
def altTgt (s : State) (x : Nat) : Nat := s.rf (Reg.MED_SR_LADDER x) 31 28

/-- The alternate target, after a chain that has not won (R351). -/
def chainAlt (x : Nat) (c : Chain) : Chain :=
  if c.won || altTgt c.st x = lastTgt c.st x then c else chainRun x c.off (altTgt c.st x) c

/-- Offline actions apply to the last attempt at all (Table "Offline actions by outcome", R353 for L1). -/
def chainApplies (s : State) (x : Nat) : Bool :=
  let o := lastOutcome s x
  s.rb (Reg.MED_SR_CTRL x) 0 && (med s x).sr.lastKept
    && (o = 3 || o = 4 || (o = 1 && (swHigh s x ≤ lastSw s x || altTgt s x ≠ lastTgt s x)))

/-- The offline actions after an attempt (Table "Offline actions by outcome"): whether one delivered the sector. -/
def offlineActions (x : Nat) (a : AttemptObs) (s : State) : Bool × State :=
  if !chainApplies s x then (false, s)
  else
    let w := (med s x).sr.sync
    let accOff := signed 4 (fld w 7 4)
    let tgt := lastTgt s x
    let c0 : Chain := ⟨s, a.out, accOff, false, 0⟩
    let c := match lastOutcome s x with
      | 4 => chainRun x accOff tgt c0
      | 3 =>
        if fld w 29 24 ≤ s.rf (Reg.MED_SR_SYNC x) 19 16 then
          let c := chainRun x (signed 4 (fld w 19 16)) tgt c0
          let c := if !c.won && swHigh s x ≤ c.sw then chainSearch x none tgt c else c
          chainAlt x c
        else
          let c := chainSearch x none tgt c0
          chainAlt x c
      | _ =>
        let c := if swHigh s x ≤ lastSw s x then chainSearch x (some (accOff, lastSw s x)) tgt c0 else c0
        chainAlt x c
    (c.won, c.st)

/-- What the ladder keeps of a sector: the recovery time of the job so far, the step that ran last, the least weight with its
slot among the kept attempts, the slots the routine has pinned, and the outcome of the last attempt (R353 to R356). -/
structure Lad where
  used : Nat
  step : Nat
  least : Option (Nat × Nat)
  pins : List Nat
  last : Nat
  deriving DecidableEq, Repr

/-- PIN of a slot. -/
def pinSlot (x k : Nat) (b : Bool) (s : State) : State := s.setRb (Reg.MED_SR_PIN x) k b

/-- After an attempt that failed, its outcome, and where it was kept the slot of least weight pinned in place of the one the
routine had pinned (R356). -/
def ladKeep (x : Nat) (l : Lad) (s : State) : Lad × State :=
  let l := { l with last := lastOutcome s x }
  if (med s x).sr.lastKept && l.last ≤ 4 then
    let sw := lastSw s x
    let k := (med s x).sr.lastSlot
    let best := match l.least with
      | some (w, j) => if sw ≤ w then (sw, k) else (w, j)
      | none => (sw, k)
    ({ l with least := some best, pins := [best.2] },
      pinSlot x best.2 true (if l.pins.contains (1 - best.2) then pinSlot x (1 - best.2) false s else s))
  else (l, s)

/-- The slots that the routine pinned for a delivered sector are unpinned (R356). -/
def ladUnpin (x : Nat) (l : Lad) (s : State) : State := l.pins.foldl (fun s k => pinSlot x k false s) s

/-- An attempt of which nothing is said reads no signal, and takes the worst-case time of its step. -/
def quietAttempt (cost : Nat) : AttemptObs := ⟨⟨[], [], 0⟩, ⟨false, false, [], []⟩, cost⟩

/-- How a sector ends: delivered, or failed with FAIL's KIND, or the job is gone. -/
inductive SectEnd where
  | delivered | failed (kind : Nat) | gone
  deriving DecidableEq, Repr

/-- The read offset is set, and taken at once by an engine that settles on it (R353, R384). -/
def ladOffset (x : Nat) (o : Int) (s : State) : State :=
  if (sv s x).roffset = o || refusesTarget (sv s x) then s
  else landAt x (sv s x).latest (sv s x).pes (readOffset x o s)

/-- Steps L2 and L3 (R351, R353). -/
def ladReread (e slot budget : Nat) (settle : SettleObs) : List (Nat × Int × Nat) → List AttemptObs → Lad → State →
    Lad × Option SectEnd × State
  | [], _, l, s => (l, none, ladOffset (e / 2) 0 s)
  | (step, off, cost) :: plan, obs, l, s =>
    let x := e / 2
    if budget < l.used + cost then (l, some (.failed 2), ladOffset x 0 s)
    else
      let a := obs.headD (quietAttempt cost)
      let s := attemptRead e slot settle a (ladOffset x off s)
      if !unitLives s e then (l, some .gone, s)
      else
        let l := { l with step := step, used := l.used + a.us }
        if lastOutcome s x = 0 then (l, some .delivered, ladOffset x 0 s)
        else
          let (l, s) := ladKeep x l s
          match offlineActions x a s with
          | (true, s) => (l, some .delivered, ladOffset x 0 s)
          | (false, s) => ladReread e slot budget settle plan obs.tail l s

/-- The reads of the other slots of a group, once each (R354). -/
def groupReads (e : Nat) (settle : SettleObs) : List Nat → List AttemptObs → State → State
  | [], _, s => s
  | k :: ks, as, s =>
    let s := attemptRead e k settle (as.headD (quietAttempt 0)) s
    if unitLives s e then groupReads e settle ks as.tail s else s

/-- OCSOLVE of a slot to its end, where the group is ready: whether it delivered (R354). -/
def solveNow (e slot : Nat) (s : State) : Bool × State :=
  let x := e / 2
  match (med s x).sr.rebuild with
  | some r =>
    if 256 ≤ r.have_.length then
      let s := ocsolveDone x (ocsolve e (slot % 264) s)
      (((med s x).sr.rebuild.map Rebuild.ok).getD false, s)
    else (false, s)
  | none => (false, s)

/-- The job that eft `e` runs: its ring and FIRST index. -/
def eftJobId (s : State) (e : Nat) : Option (Nat × Nat) := (s.eft e).unit.map fun u => (u.job.sq, u.job.first)

/-- Step L4 (R354); a step with nothing to do leaves the ladder as it stands. -/
def ladRebuild (e slot budget : Nat) (o : ReadUnitObs) (l : Lad) (s : State) : Lad × SectEnd × State :=
  let x := e / 2
  let sh := ((med s x).rc.loaded.map Sect.shingled).getD false
  if !(s.rb (Reg.MED_SR_CTRL x) 1 && sh) then (l, .failed 1, s)
  else
    let s := ocstart e (slot / 264) s
    if !unitLives s e then (l, .gone, s)
    else if !(((med s x).sr.rebuild.map Rebuild.isSealed).getD false) then (l, .failed 1, s)
    else if budget < l.used + (2 * revUs s + 130) then (l, .failed 2, s)
    else
      let job := eftJobId s e
      let s := modSr x (fun r => { r with rebuild := r.rebuild.map fun b => { b with l4 := job } }) s
      let others := ((List.range 264).map fun i => slot / 264 * 264 + i).filter fun k => k ≠ slot
      let s := groupReads e o.settle others o.group s
      if !unitLives s e then (l, .gone, s)
      else
        let l := { l with step := 4, used := l.used + (o.group.map AttemptObs.us).foldl (· + ·) 0 }
        let (ok, s) := solveNow e slot s
        (l, if ok then .delivered else .failed 1, s)

/-- The whole recovery of one sector (R351 to R356). -/
def ladSector (e slot budget : Nat) (o : ReadUnitObs) (used : Nat) (s : State) : Lad × SectEnd × State :=
  let x := e / 2
  let a := o.attempts.headD (quietAttempt 0)
  let s := attemptRead e slot o.settle a s
  let l : Lad := ⟨used, 0, none, [], 0⟩
  if !unitLives s e then (l, .gone, s)
  else if lastOutcome s x = 0 then (l, .delivered, s)
  else
    let (l, s) := ladKeep x l s
    let one := chainApplies s x
    if budget = 0 || (one && budget < l.used + 130) then (l, .failed 2, s)
    else
      let l := if one then { l with step := 1, used := l.used + a.us } else l
      match offlineActions x a s with
      | (true, s) => (l, .delivered, s)
      | (false, s) =>
        match ladReread e slot budget o.settle (ladPlan s x) o.attempts.tail l s with
        | (l, some r, s) => (l, r, s)
        | (l, none, s) => ladRebuild e slot budget o l s

/-- A failed sector ends the job (R355 to R357): the slot of least weight stays pinned, and the other is unpinned. -/
def sectorFails (e slot kind : Nat) (l : Lad) (s : State) : State :=
  let x := e / 2
  let b := eftEntry s e
  let pba := medZone b * 2 ^ 17 + slot
  let code := 0x8200 + 0x10 * l.step + l.last
  let (sw, k, pinned) := match l.least with
    | some (w, k) => (w, k, true)
    | none => (0, 0, false)
  let s := if pinned then pinSlot x (1 - k) false (pinSlot x k true s) else s
  let s := s.setReg (Reg.MED_SR_LAST_FAIL x) (BitVec.ofNat 32 (sw + k * 2 ^ 16 + b2n pinned * 2 ^ 17))
  let payload := leBytes 6 pba ++ leBytes 2 code ++ leBytes 2 sw
    ++ [BitVec.ofNat 8 (med s x).rc.head, BitVec.ofNat 8 ((med s x).rc.band.getD 0)]
  let n := 72 + 32 * x
  let s := if kind = 1 then raiseWith (n + 4) 0 (some payload) (s.bump (Reg.MED_SR_UNRECOVERED x))
    else raiseWith (n + 5) 0 (some payload) (s.bump (Reg.MED_SR_BUDGET x))
  match (s.eft e).unit with
  | some u => eftJobDone e u.job.unit 0 ⟨if kind = 1 then 8 else 9, u.res0, l.used, pba, code⟩ s
  | none => s

/-- A unit of the job ends well: RESULT0 counts it, RESULT1 holds the recovery time (R161, R184). -/
def unitEnds (e count used : Nat) (s : State) : State :=
  unitDone e (modUnit e (fun u => { u with res0 := u.res0 + count, res1 := used, committed := true }) s)

/-- The bytes of a unit lie inside the job's buffer (R182). -/
def unitFits (b : List Byte) (unit : Nat) : Bool := (unit + 1) * 4160 ≤ entLen b

/-- Deliver the block at hand to BUF (R351), and end the unit. -/
def deliver (e : Nat) (move : Bool) (used : Nat) (s : State) : State :=
  match (s.eft e).unit with
  | none => s
  | some u =>
    let b := u.job.entry
    if !move then unitEnds e 1 used s
    else if !unitFits b u.job.unit then faultOut e 4 s
    else writeOr (eftFunc e) (entBuf b + u.job.unit * 4160) (med s (e / 2)).rc.out (eftAccessFail e) (unitEnds e 1 used) s

/-- Step L4 has bound the group of a data slot for the job that eft `e` runs, and has not read the slot itself (R354). -/
def l4Pending (s : State) (e z slot : Nat) : Bool :=
  match (med s (e / 2)).sr.rebuild with
  | some r => r.l4.isSome && r.l4 = eftJobId s e && r.zone = z && r.group = slot / 264 && slot % 264 < 256
      && !(r.have_.any fun h => h.1 = slot % 264)
  | none => false

/-- The routine comes to a unit of the read side (R351, R387): token, actuator, head and zone. -/
def unitEntry (e op : Nat) (k : EftUnit → ZEnt → State → State) (s : State) : State :=
  match medUnit e op s, routineToken e s with
  | some u, some s =>
    let x := e / 2
    let b := u.job.entry
    if servoDown s x then engineEnd e 0x8301 s
    else
      withZone (medZone b) (eftAccessFail e) (k u)
        (if (med s x).rc.head = medHead b && (med s x).rc.run then s else rhead x (medHead b % 16) s)
  | _, _ => s

/-- The slot of a READ, VERIFY or CAPTURE unit. -/
def readSlot (u : EftUnit) (z : ZEnt) : Nat := unitSlot (z.kind = 1) false (medPba u.job.entry % 2 ^ 17) u.job.unit

/-- A unit of a READ or VERIFY (R351, R354). -/
def readUnit (e op : Nat) (move : Bool) (o : ReadUnitObs) (s : State) : State :=
  unitEntry e op (fun u z s =>
    let b := u.job.entry
    let slot := readSlot u z
    if l4Pending s e (medZone b) slot then
      let us := (o.attempts.map AttemptObs.us).foldl (· + ·) 0
      match solveNow e slot s with
      | (true, s) => deliver e move (u.res1 + us) s
      | (false, s) => sectorFails e slot 1 ⟨u.res1 + us, 4, none, [], lastOutcome s (e / 2)⟩ s
    else
      match ladSector e slot (medBudgetMs b * 1000) o u.res1 s with
      | (_, .gone, s) => s
      | (l, .failed k, s) => sectorFails e slot k l s
      | (l, .delivered, s) => deliver e move l.used (ladUnpin (e / 2) l s)) s

/-- A unit of a CAPTURE (R183; DEDUCED, log entry 24): one ordinary read, whatever its outcome. -/
def captureUnit (e : Nat) (o : ReadUnitObs) (s : State) : State :=
  unitEntry e 4 (fun u z s =>
    let s := attemptRead e (readSlot u z) o.settle (o.attempts.headD (quietAttempt 0)) s
    if unitLives s e then unitEnds e 1 0 s else s) s

/-- Units of a job, one per observation; a job that has ended takes no more. -/
def runUnits {α : Type} (unit : α → State → State) (obs : List α) (s : State) : State := obs.foldl (fun s o => unit o s) s

/-- What ends an armed sector, by its cause (R302, Table "Write stop causes"); one that ends UNSAFE before its gate rose was
missed UNSAFE_REVS times, and stays as it was on the medium (R301). -/
def sectorCause (x cause : Nat) (s : State) : State :=
  match cause with
  | 0 => writtenEnd x s
  | 1 => if (med s x).wr.writing then stopNow x 1 s else sectorEnd x 1 s
  | 2 => servoFault x 1 s
  | 3 => touchdown x s
  | 4 => stopNow x 4 (wrEvent x 4 s)
  | 5 => linkError x s
  | c => writtenEnd x (stopAtEnd x c s)

/-- The strobes that pass while an armed sector waits for its gate: the heater goes to HEAT_W and PREHEAT strobes follow (R293),
and write-unsafe is negated (R381). -/
def waitForGate (x : Nat) (s : State) : State :=
  let s := if (med s x).wr.begun || preheated s x then s
    else modWr x (fun w => { w with preheat := max w.preheat (s.rf (Reg.MED_WR_CFG x) 11 8 + 1) }) (heaterStep x s)
  modSv x (fun v => { v with wus := false }) s

/-- The arming of a unit's slot and the sector's end (R301, R303 step 3): its gate rises at a pass where everything holds, the
strobes it waits for behind it, or a cause ends it before. -/
def writeArm (e : Nat) (o : WriteUnitObs) (s : State) : State :=
  let x := e / 2
  let s := arm e (modUnit e (fun u => { u with committed := true }) s)
  match (med s x).wr.armed with
  | none => s
  | some t =>
    match armedData s x t with
    | none => s
    | some d =>
      if !o.rises then (if o.cause = 0 || 6 ≤ o.cause.val then s else sectorCause x o.cause s)
      else
        let s := waitForGate x s
        if releasedFor s e && onTrack s x t.track true && !s.fenced 6 then sectorCause x o.cause (gateUp x t d o.idle s) else s

/-- The end of a WRITE unit (R303 step 4): END, or FAIL with the write detail code; the eft waits where its sector is still
armed (R20, R301). -/
def writeUnitEnd (e slot : Nat) (isData : Bool) (s : State) : State :=
  let x := e / 2
  match (s.eft e).unit with
  | none => s
  | some u =>
    let w := (med s x).wr
    if w.armed.isSome then s
    else if w.wstat = 0 then unitEnds e (b2n isData) 0 s
    else
      eftJobDone e u.job.unit 0 ⟨8, u.res0, 0, medZone u.job.entry * 2 ^ 17 + slot,
        0x8100 + w.wstat + w.dac % 1024 * 2 ^ 16⟩ s

/-- A unit of a WRITE (R272, R303, R387): data from BUF, a parity sector from the zone's context. -/
def writeUnit (e : Nat) (o : WriteUnitObs) (s : State) : State :=
  match medUnit e 2 s, if releasedFor s e then routineToken e s else none with
  | some u, some s =>
    let x := e / 2
    let b := u.job.entry
    if servoDown s x then engineEnd e 0x8301 s
    else
      let s := if (med s x).wr.head = medHead b % 16 && (med s x).wr.run then s else whead x (medHead b % 16) s
      let slot := medPba b % 2 ^ 17 + u.job.unit
      withSect (medZone b) slot (eftAccessFail e) (fun t s =>
        let par := t.shingled && isParitySlot slot
        let t' := if par then { t with parity := some (slot % 264 - 256) } else t
        settleFor e ⟨t.track, true, t.shingled⟩ o.settle (fun s =>
          let go (s : State) : State := writeUnitEnd e slot (!par) (writeArm e o s)
          if par then go s
          else if !unitFits b u.res0 then faultOut e 4 s
          else readOr (eftFunc e) (entBuf b + u.res0 * 4160) 4160 (eftAccessFail e) (fun d s =>
            go (modWr x (fun w => { w with fifo := d }) s)) s) (wsectLoad x t' s)) s
  | _, _ => s

end Sys2Proof.Machine
end

