-- ==== Sys2Proof/Machine/ReadCmds.lean ====
section
/-!
DEFINITION. Machine/ReadCmds.lean: commands of the read channel and of sector recovery (spec/11, spec/12), and the READ,
WRITE, VERIFY and CAPTURE macro-operations as the shipped routines run them.
-/

namespace Sys2Proof.Machine

open Sys2Proof Host

/-- READ_SECTOR_PASS (R311, R313, R317 to R321, R328, R329, R339 to R344): the armed sector passes with its head on track, and a
codeword slot of the online stream is free. -/
def execReadSectorPass (x : Fin 2) (o : SectorObs) (s : State) : Res :=
  s.whenLive fun s =>
    match (med s x).rc.armed with
    | some a => if onTrack s x a.sect.track false && (med s x).rc.decoding.length < 3 then readPass x a o s else s
    | none => s

/-- SECTOR_READ_OUTCOME (R326, R327): decoding of the oldest sector in the decoder ends. -/
def execSectorReadOutcome (x : Fin 2) (o : OutcomeObs) (s : State) : Res := s.whenLive fun s => readOutcome x o s

/-- SECTOR_GAP (R314, R315, R322, R331, R332, R334): corrections and adaptation; none while a sector is being written, and none
once the channel has been stopped by tail drop. -/
def execSectorGap (x : Fin 2) (s : State) : Res :=
  s.whenLive fun s => if (med s x).wr.writing || s.fenced (2 + x.val) then s else sectorGap x s

/-- OFFLINE_DONE (R347, R348): the offline work of an OREDET ends. -/
def execOfflineDone (x : Fin 2) (o : OutcomeObs) (s : State) : Res :=
  s.whenLive fun s =>
    match (med s x).sr.offline with
    | w :: _ => if w.job.isNone then offlineDone x o s else s
    | [] => s

/-- OCSOLVE_DONE (R354). -/
def execOcsolveDone (x : Fin 2) (s : State) : Res := s.whenLive fun s => ocsolveDone x s

/-- REDETECT (R347, R349): the work of the job that stands first among the offline work of its MEDx runs to its end. -/
def execRedetect (x : Fin 2) (o : OutcomeObs) (s : State) : Res :=
  s.whenLive fun s =>
    match (med s x).sr.offline with
    | w :: _ => if w.job.isSome then offlineNext x o s else s
    | [] => s

/-- MEDIA_READ (R351 to R357, R387): units of a READ, one per observation. -/
def execMediaRead (e : Fin 4) (obs : List ReadUnitObs) (s : State) : Res := s.whenLive fun s => runUnits (readUnit e 1 true) obs s

/-- VERIFY (R351): as READ, moving no data. -/
def execVerify (e : Fin 4) (obs : List ReadUnitObs) (s : State) : Res := s.whenLive fun s => runUnits (readUnit e 3 false) obs s

/-- CAPTURE (R183, R343). -/
def execCapture (e : Fin 4) (obs : List ReadUnitObs) (s : State) : Res := s.whenLive fun s => runUnits (captureUnit e) obs s

/-- MEDIA_WRITE (R303): units of a WRITE, one per observation. -/
def execMediaWrite (e : Fin 4) (obs : List WriteUnitObs) (s : State) : Res := s.whenLive fun s => runUnits (writeUnit e) obs s

end Sys2Proof.Machine
end

