-- ==== Sys2Proof/Machine/RegView.lean ====
section
/-!
DEFINITION. Machine/RegView.lean: what the read-only registers show that are views of the state beyond the register
file: one function per window, from the offset in it.
-/

namespace Sys2Proof.Machine

open Sys2Proof

/-- A word from a number and from an integer. -/
def w32 (n : Nat) : Word := BitVec.ofNat 32 n
def i32 (i : Int) : Word := BitVec.ofInt 32 i

/-- Words LO and HI of a 36-bit two's complement position (Table "Servo registers"). -/
def pos36 (hi : Bool) (i : Int) : Word := w32 (unsigned 36 i / (if hi then 2 ^ 32 else 1) % 2 ^ 32)

/-- A list of truth values as bits, the first in bit 0. -/
def flagBits : List Bool → Nat
  | [] => 0
  | b :: bs => b2n b + 2 * flagBits bs

/-- Registers of the NET window (spec/02). -/
def netView (s : State) (o : Nat) : Option Word :=
  if o = 0x08 then
    let sp := if !s.net.port0.up then 0 else if portMode s = 1 then 2 else 1
    some (w32 (b2n s.net.port0.up + b2n s.net.port1.up * 2 + b2n (s.rb Reg.NET_CTRL 16 && !s.net.startedInHold) * 4 + sp * 16))
  else if o = 0x3C then some (w32 (s.net.cache.length + s.net.pinned.length * 2 ^ 16))
  else none

/-- Registers of the ring manager and the zone keeper (spec/05, spec/09). -/
def ringView (s : State) (o : Nat) : Option Word :=
  if o < 0xB00000 then
    let c := (o - 0x900000) / 0x20
    if 0x900000 ≤ o && o < 0x920000 && o % 0x20 = 0xC then
      some (w32 (b2n (cqActive s c) * 2 ^ 24 + b2n (cqCount s c = 2 ^ cqN s c) * 2 ^ 25 + b2n (cqPending s c) * 2 ^ 26
        + b2n (s.rings.spill.any fun x => x.cq = c) * 2 ^ 27))
    else none
  else if 0xB00040 ≤ o && o < 0xB00060 then
    let f := (o - 0xB00040) / 4
    let l := s.rings.spill.filter fun x => x.func = f
    let head := match l with | x :: _ => x.cq | [] => 0
    let stalled := (ringsOf s f).any fun q => s.rb (Reg.SQ_STATE q) 26
    some (w32 (l.length % 128 + b2n stalled * 2 ^ 8 + head * 2 ^ 16))
  else if o = 0xC00008 then
    let n (l : List (Option Ctx)) : Nat := (l.filter Option.isSome).length
    some (w32 (b2n s.zone.scan * 2 + n s.zone.ctxA * 2 ^ 8 + n s.zone.ctxB * 2 ^ 16))
  else if 0xC00100 ≤ o && o < 0xC00300 then
    let a := o % 0x100 / 0x40
    let k := o % 0x40 / 4
    let c := ((if a = 0 then s.zone.ctxA else s.zone.ctxB).getD k none)
    match c with
    | none => some 0
    | some c =>
      if o < 0xC00200 then
        let e := zDecode (s.bytes (zoneAddr s c.zone) 24)
        some (w32 (c.zone % 2 ^ 19 + b2n e.hold * 2 ^ 30 + 2 ^ 31))
      else some (w32 (c.rwp % 2 ^ 17 + c.fill % 512 * 2 ^ 17))
  else none

/-- Registers of the memory-protection unit and the XIP controller (spec/17, spec/18). -/
def memView (s : State) (o : Nat) : Option Word :=
  if o = 0x500008 then
    some (w32 (b2n s.mu.dramReady + s.mu.rate % 8 * 2 + b2n s.mu.wipeBusy * 2 ^ 5 + s.mu.cap % 4 * 2 ^ 8
      + b2n s.mu.scrub.busy * 2 ^ 12))
  else if o = 0x500018 then some (putBit (s.reg Reg.MEM_RETAIN) 8 s.mu.retained)
  else if o = 0x500020 then some (putBit (s.reg Reg.MEM_SCRUB_CTRL) 0 s.mu.scrub.busy)
  else if o = 0x600008 then some (putBit (s.reg Reg.CFX_STATUS) 2 (s.rb Reg.CF_HIDE 30))
  else none

/-- The request of a source holds (R526): its status bit and its enable bit, the enable register following the status
register; of an eft, any bit of EFT_ATTN. -/
def requestHolds (s : State) (n : Nat) : Bool :=
  match sourceBit n 0 with
  | none => false
  | some (a, b) => if isEftSource n then s.reg a ≠ 0 else s.rb a b && s.rb (a + 4) b

/-- The claim of target `t` (R528): of the requests routed to it the one of highest PRIO, the lowest source on ties. -/
def claimOf (s : State) (t : Nat) : Option Nat :=
  ((List.range 256).filter fun n => s.rf (Reg.EVC_SRC n) 6 4 = t && requestHolds s n).foldl (fun best n =>
    match best with
    | none => some n
    | some m => if s.rf (Reg.EVC_SRC m) 2 0 < s.rf (Reg.EVC_SRC n) 2 0 then some n else some m) none

/-- A target's interrupt line is high (R163, R527): a request of a source routed to it, or one of a completion ring to that
core. -/
def lineHigh (s : State) (t : Nat) : Bool := (claimOf s t).isSome || cqRequest s t

/-- Registers of the event controller and the power die (spec/20, spec/21). -/
def evcView (s : State) (o : Nat) : Option Word :=
  if o = 0x700008 then some (evcStatus s)
  else if o = 0x700014 then some (w32 (fld s.fenceMask 7 0))
  else if o = 0x700018 then some (s.recFault &&& 0xFFF01)
  else if o = 0x70001C then some (w32 (s.evc.timeMs % 2 ^ 32))
  else if o = 0x700020 then some (w32 (s.evc.timeMs / 2 ^ 32 % 2 ^ 31 + b2n s.evc.unsync * 2 ^ 31))
  else if o = 0x70002C then some (w32 s.evc.nextSeq)
  else if 0x700060 ≤ o && o < 0x700080 then
    match s.evc.buf with
    | r :: _ => some (w32 (field (recordBytes r) (o - 0x700060) 4))
    | [] => some 0
  else if 0x700800 ≤ o && o < 0x70081C then
    match claimOf s ((o - 0x700800) / 4) with
    | some n => some (w32 (n + s.rf (Reg.EVC_SRC n) 2 0 * 2 ^ 8 + 2 ^ 31))
    | none => some 0
  else if o = 0xD00004 then
    some (w32 (s.pwr.pg % 256 + b2n s.pwr.isoOn * 2 ^ 8 + b2n s.pwr.vmGood * 2 ^ 9 + b2n s.pwr.holdup * 2 ^ 10
      + b2n s.pwr.resetPinLow * 2 ^ 11 + s.pwr.tries % 4 * 2 ^ 12))
  else if o = 0xD00024 then
    let l := [s.pwr.sif0, s.pwr.sif1, s.pwr.sif2, s.pwr.sif3, s.pwr.sif4, s.pwr.sif5, s.pwr.sif6, s.pwr.sif7]
    some (w32 (flagBits (l.map (·.raw)) + flagBits (l.map (·.out)) * 2 ^ 8))
  else none

/-- Registers of the SYS window. -/
def sysView (s : State) (o : Nat) : Option Word :=
  if 0x800000 ≤ o && o < 0xD00000 then ringView s o
  else if o = 0x400014 then some (w32 (s.rf Reg.CAL_STATUS 15 8))
  else if 0x500000 ≤ o && o < 0x700000 then memView s o
  else if 0x700000 ≤ o then evcView s o
  else none

/-- EFT_STATE.STATE (R197). -/
def EftSt.code : EftSt → Nat
  | .stopped => 0
  | .idle => 1
  | .running => 2
  | .held => 3
  | .debugHalt => 4
  | .loading => 5

/-- Registers of eft `e` (Table "Eft registers"). -/
def eftView (s : State) (e o : Nat) : Option Word :=
  let x := s.eft e
  match o, x.unit with
  | 0x08, some u =>
    some (w32 (x.st.code + b2n x.valid * 2 ^ 4 + b2n u.committed * 2 ^ 5 + b2n (u.restarts ≠ 0) * 2 ^ 6
      + u.stack.length % 16 * 2 ^ 8 + u.pc % 8192 * 2 ^ 16))
  | 0x08, none => some (w32 (x.st.code + b2n x.valid * 2 ^ 4))
  | 0x20, _ => some (w32 (b2n x.loadErr * 2 ^ 8 + x.loadAddr % 2 ^ 14 * 2 ^ 16))
  | 0x34, some u => if x.st = .debugHalt then some (u.get (s.rf (Reg.EFT_DBG_SEL e) 3 0)) else some 0
  | 0x34, none => some 0
  | 0x38, some u => some (w32 (eJobId u.job.entry + u.job.unit % 2 ^ 16 * 2 ^ 16))
  | 0x38, none => some 0
  | 0x3C, some u => some (w32 (b2n u.z + b2n u.c * 2 + b2n u.n * 4 + u.stack.length % 16 * 16))
  | 0x3C, none => some 0
  | _, _ => none

/-- Registers of the STG window (spec/07). -/
def stgView (s : State) (o : Nat) : Option Word :=
  if 0x400000 ≤ o then eftView s (4 + (o - 0x400000) / 0x1000) (o % 0x1000)
  else if o = 0x08 then some (w32 (b2n s.stg.pwrLoss + b2n s.stg.blkCmd.isSome * 2))
  else if 0x1000 ≤ o && o < 0x1200 && o % 0x40 = 0x18 then
    let c := (o - 0x1000) / 0x40
    let x := chan s c
    let l := x.luns.toList
    some (w32 (b2n x.ready + b2n x.switchPending * 2 + x.rate % 16 * 2 ^ 4 + flagBits (l.map (·.busy)) * 2 ^ 8
      + flagBits (l.map fun d => d.susp = .yes) * 2 ^ 16 + (s.eft (4 + c)).parked.length % 32 * 2 ^ 24))
  else none

/-- Registers of the XFM window (spec/08). -/
def xfmView (s : State) (o : Nat) : Option Word :=
  let lanes (c : Nat) : Nat := flagBits ((List.range (laneNumber c)).map fun l => (laneOf s c l).isSome)
  let keys (k : Nat) : Nat := flagBits ((List.range 32).map fun b => s.xfm.keys.any fun e => e.1 = k + b)
  match o with
  | 0x08 => some (w32 (s.xfm.ciph % 16 + b2n s.xfm.fallback * 2 ^ 4 + lanes 0 * 2 ^ 8 + lanes 1 * 2 ^ 16 + lanes 2 * 2 ^ 24
      + lanes 5 * 2 ^ 25 + lanes 4 * 2 ^ 26))
  | 0x40 => some (w32 (keys 0))
  | 0x44 => some (w32 (keys 32))
  | _ => none

/-- Registers of the write block and read channel of MEDx (spec/10, spec/11). -/
def medWrRcView (s : State) (x o : Nat) : Option Word :=
  let w := (med s x).wr
  let r := (med s x).rc
  if o = 0x100008 then
    some (w32 (b2n w.gate + b2n w.aen * 2 + b2n w.sweep.isSome * 4 + b2n w.linkUp * 8 + b2n w.fltSubst * 16
      + w.head % 16 * 2 ^ 8 + w.wstat % 16 * 2 ^ 16))
  else if o = 0x100020 then some (putBit (s.reg (Reg.MED_TD_CTRL x)) 31 w.sweep.isSome)
  else if o = 0x200008 then
    some (w32 (b2n r.locked + b2n r.synced * 2 + r.decoding.length % 4 * 2 ^ 4 + b2n (!(med s x).sr.offline.isEmpty) * 2 ^ 6
      + b2n r.armed.isSome * 2 ^ 7))
  else if o = 0x200048 then
    if r.run then
      some (w32 (r.head % 16 + r.band.getD 0 % 16 * 2 ^ 4 + r.gain % 256 * 2 ^ 8 + unsigned 16 r.freq * 2 ^ 16))
    else some 0
  else if o = 0x200640 || o = 0x200644 then
    let rd := (o - 0x200640) / 4
    let sp := ((spareSlices s x rd).filter fun k => !sliceBad s x rd k).length
    let deg := if rd = 0 then r.degraded1 else r.degraded2
    some (w32 (sp % 4 + b2n deg * 4 + r.shadow.getD (2 * rd) 0 % 64 * 2 ^ 8 + r.shadow.getD (2 * rd + 1) 0 % 64 * 2 ^ 16))
  else none

/-- Registers of sector recovery of MEDx (spec/12). -/
def medSrView (s : State) (x o : Nat) : Option Word :=
  let r := (med s x).sr
  let slot (k : Nat) : Sample := if k = 0 then r.slot0 else r.slot1
  if o = 0x30001C then
    some (w32 (b2n r.slot0.valid + b2n r.slot1.valid * 2 + b2n (slotHeld s x 0) * 4 + b2n (slotHeld s x 1) * 8
      + r.lastSlot % 2 * 16 + b2n r.lastKept * 32))
  else if 0x300100 ≤ o && o < 0x300140 then
    let k := slot ((o - 0x300100) / 0x20)
    match o % 0x20 with
    | 0x00 => some (w32 (k.pba % 2 ^ 32))
    | 0x04 => some (w32 (k.pba / 2 ^ 32 % 2 ^ 16))
    | 0x08 => some (w32 (k.head % 16 + k.band % 16 * 2 ^ 4 + k.tgt % 16 * 2 ^ 8 + k.outcome % 16 * 2 ^ 12
        + k.ranges.length % 16 * 2 ^ 16 + b2n k.valid * 2 ^ 31))
    | 0x0C => some k.sync
    | 0x10 => some (w32 (k.sw % 4096))
    | _ => none
  else if 0x300200 ≤ o && o < 0x300240 then
    match (slot ((o - 0x300200) / 0x20)).ranges[(o % 0x20 / 4)]? with
    | some g => some (w32 (g.first % 2 ^ 16 + g.last % 2 ^ 16 * 2 ^ 16))
    | none => some 0
  else none

/-- TRACE_STATUS.STATE (R389). -/
def TraceSt.code : TraceSt → Nat
  | .idle => 0
  | .armed => 1
  | .triggered => 2
  | .done => 3

/-- Registers of the servo engine of MEDx (spec/13). -/
def medSvView (s : State) (x o : Nat) : Option Word :=
  let v := sv s x
  match o with
  | 0x500008 => some (svStatus s x)
  | 0x500054 => some (pos36 false v.target)
  | 0x500058 => some (pos36 true v.target)
  | 0x50005C => some (pos36 false v.r)
  | 0x500060 => some (pos36 true v.r)
  | 0x500064 => some (pos36 false v.y)
  | 0x500068 => some (pos36 true v.y)
  | 0x50006C => some (i32 v.v)
  | 0x500070 => some (i32 v.a)
  | 0x500074 => some (i32 v.pes)
  | 0x500078 => some (w32 (unsigned 16 v.vcm + unsigned 16 v.ma * 2 ^ 16))
  | 0x50007C => some (w32 (unsigned 16 v.roffset))
  | 0x500080 => some (w32 (v.cycles % 4096))
  | 0x5000B0 => some (w32 (v.trace.code + b2n v.wrapped * 4 + v.wptr % 8192 * 2 ^ 4 + v.trigIdx % 8192 * 2 ^ 17))
  | _ =>
    if 0x580000 ≤ o && o < 0x5A0000 then
      match v.trace with
      | .armed => some 0
      | .triggered => some 0
      | _ =>
        let (a, b, c, d) := Sparse.get (fun _ => (0, 0, 0, 0)) v.records ((o - 0x580000) / 16)
        some (match o % 16 / 4 with | 0 => a | 1 => b | 2 => c | _ => d)
    else none

/-- Registers of the window of MEDx. -/
def medView (s : State) (x o : Nat) : Option Word :=
  if o < 0x300000 then medWrRcView s x o
  else if o < 0x400000 then medSrView s x o
  else if o < 0x500000 then eftView s (2 * x + (o - 0x400000) / 0x1000) (o % 0x1000)
  else medSvView s x o

/-- MOT_STATUS.STATE (Table "Spindle states"). -/
def Spin.code : Spin → Nat
  | .stopped => 0
  | .detect => 1
  | .revBrake => 2
  | .openLoop => 3
  | .hall6 => 4
  | .sine => 5
  | .relock => 6
  | .brake => 7
  | .coast => 8
  | .holdup => 9
  | .fault => 10

/-- Registers of the MOT window (spec/14). -/
def motView (s : State) (o : Nat) : Option Word :=
  let m := s.mot
  match o with
  | 0x08 => some (w32 (m.st.code + b2n m.dir * 2 ^ 4 + b2n m.spinOk * 2 ^ 5 + b2n m.hallSubst * 2 ^ 6 + b2n m.chopFault * 2 ^ 7
      + b2n m.regenRefused * 2 ^ 8 + b2n m.pwrLoss * 2 ^ 9 + b2n m.actA.retDone * 2 ^ 10 + b2n m.actB.retDone * 2 ^ 11
      + b2n m.actA.latched * 2 ^ 12 + b2n m.actB.latched * 2 ^ 13 + m.det % 4 * 2 ^ 14))
  | 0x18 => some (w32 (m.speedRef % 2 ^ 17))
  | 0x1C => some (i32 m.act)
  | 0x74 => some (w32 (unsigned 16 m.iqRef + unsigned 16 m.iq * 2 ^ 16))
  | _ => none

/-- Levels of the mailbox FIFOs, from the side that sends on `out` and receives on `inn` (R519, R522, R523). -/
def mbxStatus (out inn : List (List Byte)) : Word :=
  w32 (out.length % 32 + inn.length % 32 * 2 ^ 8 + b2n (16 ≤ out.length) * 2 ^ 16)

/-- Word `w` of the head message of a FIFO, 0 when empty. -/
def mbxHead (l : List (List Byte)) (w : Nat) : Word :=
  match l with
  | m :: _ => w32 (field m (4 * w) 4)
  | [] => 0

/-- Registers of the CRU window (spec/18, spec/19). -/
def cruView (s : State) (o : Nat) : Option Word :=
  let c := s.cru
  if o = 0x04 then some (w32 (s.lcState + b2n (s.rb Reg.CRU_LC 3) * 8 + b2n c.debugOpen * 16))
  else if o = 0x08 then some s.lcWord
  else if o = 0x0C then some (s.vaultWord &&& 0x1FFF)
  else if o = 0x18 then some s.mu.trip4.vote
  else if o = 0x20 then some (putBit (s.reg Reg.CRU_FUSE_CMD) 31 c.burn.isSome)
  else if o = 0x48 then some (w32 (c.fuses.kek % 4096))
  else if o = 0x4C then
    some (w32 (c.fuses.svnCru % 64 + c.fuses.svnSvc % 64 * 2 ^ 8 + c.fuses.svnProf % 64 * 2 ^ 16))
  else if 0x60 ≤ o && o < 0xE0 then some (w32 (field (slotDigest s ((o - 0x60) / 0x20)) (o % 0x20) 4))
  else if o = 0x140 then some (putBit (s.reg Reg.CRU_HASH_CTRL) 0 c.hashing)
  else if o = 0x200 then some (putBit (s.reg Reg.CRU_BAND_CMD) 31 c.band.isSome)
  else if 0x300 ≤ o && o < 0x320 then some (mbxHead c.rx ((o - 0x300) / 4))
  else if o = 0x324 then some (mbxStatus c.tx c.rx)
  else if o = 0x100008 then some (putBit (s.reg Reg.CF_ACTL_CMD) 31 s.cf.op.isSome)
  else none

/-- Registers of the SVC window (R523). -/
def svcView (s : State) (o : Nat) : Option Word :=
  if o = 0x700024 then some (mbxStatus s.cru.rx s.cru.tx)
  else if 0x700040 ≤ o && o < 0x700060 then some (mbxHead s.cru.tx ((o - 0x700040) / 4))
  else none

/-- What the register at an address shows, where that is a view. -/
def regView (s : State) (a : Nat) : Option Word :=
  let o := a % 0x1000000
  match a / 0x1000000 with
  | 0x20 => netView s o
  | 0x21 => svcView s o
  | 0x22 => medView s 0 o
  | 0x23 => medView s 1 o
  | 0x24 => stgView s o
  | 0x25 => xfmView s o
  | 0x26 => motView s o
  | 0x27 => cruView s o
  | 0x28 => sysView s o
  | _ => none

end Sys2Proof.Machine
end

