-- ==== Sys2Proof/Machine/ThermCmds.lean ====
section
/-!
DEFINITION. Machine/ThermCmds.lean: commands of the thermal model, the sensors, the budget arbiter and the AVFS loop
(spec/15).
-/

namespace Sys2Proof.Machine

open Sys2Proof Host

/-- MODEL_STEP (R421, R422, R429, R433, R447): the 1 ms step, with each head's share of AEN in it. -/
def execModelStep (duty : List (Fin 257)) (s : State) : Res :=
  s.whenLive fun s =>
    let s := heatStep duty (derateStep (thermStep s))
    let s := (List.range 8).foldl calTrigger ((List.range 8).foldl calAge s)
    retryEnter (fastMode s)

/-- SENSOR_SAMPLE (R423 to R427): one sample of all twenty sensors, `none` for one that returns no conversion. While
quenched the AON monitor alone samples. -/
def execSensorSample (t : List (Option (BitVec 16))) (s : State) : Res :=
  .next <|
    let s := (List.range 20).foldl (takeReading t) s
    if s.bud.quenched.isSome then s
    else
      let s := fastMode ((List.range 20).foldl crossCheck s)
      let now := (List.range 20).map (quenchHot s)
      let was := s.bud.hot
      let s := { s with bud := { s.bud with hot := now } }
      match (List.range 20).find? fun k => was.getD k false && now.getD k false with
      | some k => quench k s
      | none => s

/-- QUENCH_COOLED (R427): every usable sensor has read below 115 °C for 2 s, and the device starts a cold boot. -/
def execQuenchCooled (s : State) : Res :=
  .next <|
    match s.bud.quenched with
    | none => s
    | some (k, peak) =>
      if (List.range 20).all fun j => !usable s j || sensorT s j < 1840 then
        let s := beginReset .cold 2 { s with bud := { s.bud with quenched := none } }
        raise 215 (s.setReg Reg.TH_QUENCH_INFO (BitVec.ofNat 32 (k + 2 ^ 7 + peak * 2 ^ 16)))
      else s

/-- SENSOR_REARM (R424): a 1 written to a TH_EXCLUDED bit re-arms the sensor. -/
def execSensorRearm (m : BitVec 20) (s : State) : Res :=
  s.whenLive fun s => s.aonWrite fun s =>
    countUsable ((List.range 20).foldl (fun s k =>
      if m.getLsbD k then
        ((s.setRb Reg.TH_EXCLUDED k false).setRb (Reg.TH_SENSOR k) 16 false).setRf (Reg.TH_SENSOR k) 23 20 0
      else s) s)

/-- Metered functions (R430). -/
def metered : List Nat := [2, 3, 4, 5]

/-- WEIGHT and BMAX of a function. -/
def baWeight (s : State) (f : Nat) : Nat := s.rf (Reg.BA_FUNC f) 7 0
def baMax (s : State) (f : Nat) : Int := s.rf (Reg.BA_FUNC f) 31 16

/-- One pass of the grant rule (R430): grants so far of functions 2 to 5, and the pool left. -/
def grantPass (s : State) (g : List Nat) (pool : Nat) : List Nat × Nat :=
  let room (f : Nat) : Int := baMax s f - balance s f - (g.getD (f - 2) 0 : Int)
  let set := metered.filter fun f => 0 < baWeight s f && 0 < room f
  if set.isEmpty || pool = 0 then (g, pool)
  else
    let w := (set.map (baWeight s)).foldl (· + ·) 0
    let add (f : Nat) : Nat := if set.contains f then min (pool * baWeight s f / w) (room f).toNat else 0
    (metered.map fun f => g.getD (f - 2) 0 + add f, pool - (metered.map add).foldl (· + ·) 0)

/-- Sum over the last ten windows. -/
def winSum (s : State) (f : BaWindow → Nat) : Nat := (s.bud.windows.map f).foldl (· + ·) 0

/-- power_headroom_mW of an actuator (R435). -/
def powerHeadroom (s : State) (a : Nat) : Nat :=
  winSum s (fun w => w.grants.getD a 0)
    - winSum s (fun w => w.meters.getD (4 + a) 0 + w.meters.getD (11 + a) 0) / 10

/-- The readings of a window: the 12 V power and the fifteen meters (R428, R435), and the current at the VM balls, a
measurement that no command brings (R420): a free value. -/
def meterWindow (p12 : Nat) (ms : List Nat) (s : State) : State :=
  let (b, s) := s.drawBytes 2
  ms.zipIdx.foldl (fun s (v, m) => s.setReg (Reg.BA_METER m) (BitVec.ofNat 32 v))
    ((s.setRf Reg.MOT_IIN 31 16 p12).setRf Reg.MOT_IIN 15 0 (leNat b))

/-- CAP_EFF and the trim of a window whose input power is `pIn` (R429). -/
def budgetTrim (pIn : Nat) (s : State) : State :=
  let cap := if s.rb Reg.BA_STATUS 16 then min (capReg s) (capEff s) else capReg s
  let s := setCapEff cap s
  s.setReg Reg.BA_TRIM (BitVec.ofNat 32 (clampI 0 cap ((s.rf Reg.BA_TRIM 15 0 : Int)
    + ((pIn : Int) - cap) / (2 ^ (s.rf Reg.BA_FIXED 19 16) : Nat))).toNat)

/-- Energy that a window may grant, µJ (R428). -/
def windowPool (s : State) : Nat := (capEff s - s.rf Reg.BA_FIXED 15 0 - (s.reg Reg.BA_TRIM).toNat) / 10

/-- The grants of functions 2 to 5 from a pool: two passes (R430). -/
def windowGrants (s : State) (pool : Nat) : List Nat :=
  let (g, pool) := grantPass s [0, 0, 0, 0] pool
  (grantPass s g pool).1

/-- The grants are shown and added to the balances (R430). -/
def giveGrants (g : List Nat) (s : State) : State :=
  metered.foldl (fun s f =>
    let v := g.getD (f - 2) 0
    setBalance f (balance s f + v) (s.setReg (Reg.BA_GRANT f) (BitVec.ofNat 32 v))) s

/-- A window joins the last ten; BA_POWER and both headrooms follow (R435). -/
def keepWindow (ms : List Nat) (pIn : Nat) (g : List Nat) (s : State) : State :=
  let s := { s with bud := { s.bud with windows := (⟨ms, pIn, g⟩ :: s.bud.windows).take 10 } }
  let (p, s) := fitU16 pIn s
  let (avg, s) := fitU16 (winSum s BaWindow.pIn / 10) s
  let s := s.setReg Reg.BA_POWER (BitVec.ofNat 32 (p + avg * 2 ^ 16))
  [0, 1].foldl (fun s a =>
    let (v, s) := fitU16 (powerHeadroom s a) s
    s.setReg (Reg.BA_HEADROOM a) (BitVec.ofNat 32 v)) s

/-- BUDGET_WINDOW (R428 to R430, R435): a window ends; `p12` is the 12 V input power over it and `meters` the fifteen
meters, in mW. -/
def execBudgetWindow (p12 : BitVec 16) (meters : List (BitVec 16)) (s : State) : Res :=
  s.whenLive fun s =>
    let ms := (List.range 15).map fun m => (meters.getD m 0).toNat
    let s := meterWindow p12.toNat ms s
    let pIn := p12.toNat + s.rf Reg.BA_P5 15 0
    let s := budgetTrim pIn s
    let g := windowGrants s (windowPool s)
    retryEnter (keepWindow ms pIn g (giveGrants g s))

/-- FREQ_REQ in effect, MHz. -/
def freqReq (s : State) : Nat := clampN 400 2000 (s.rf Reg.AV_FREQ_REQ 11 0 / 50 * 50)

/-- Set VCODE and FREQ; LIMITED clears when FREQ has reached FREQ_REQ (R439). -/
def setAv (v f : Nat) (lim : Bool) (s : State) : State :=
  s.setReg Reg.AV_STATUS (BitVec.ofNat 32 (v + f * 2 ^ 16 + b2n (lim && f ≠ freqReq s) * 2 ^ 31))

/-- AVFS_TICK (R439, R441): the loop reads the eight monitors. -/
def execAvfsTick (slack : List (BitVec 8)) (s : State) : Res :=
  s.whenLive fun s =>
    if !s.rb Reg.AV_CTRL 0 then setAv 80 (freqReq s) false s
    else
      let l := (List.range 8).map fun m => ((slack.getD m 0).toNat, m)
      let low := l.foldl (fun a b => if b.1 < a.1 then b else a) (256, 0)
      let s := s.setReg Reg.AV_SLACK (BitVec.ofNat 32 (low.1 % 256 + low.2 * 2 ^ 8))
      let v := s.rf Reg.AV_STATUS 6 0
      let f := s.rf Reg.AV_STATUS 27 16
      let hi := s.bud.avHi
      let lim := s.bud.avLim
      let (v, f, hi, lim) :=
        if low.1 < s.rf Reg.AV_CTRL 15 8 then (if v < 80 then (v + 1, f, 0, lim) else (v, f, 0, lim + 1))
        else if s.rf Reg.AV_CTRL 23 16 < low.1 then
          (if hi + 1 = 100 then (if f < freqReq s then (v, f + 50, 0, lim) else (v - 1, f, 0, lim)) else (v, f, hi + 1, lim))
        else (v, f, 0, lim)
      let limited := s.rb Reg.AV_STATUS 31
      let (f, lim, limited, s) :=
        if lim = 10 then (max 400 (f - 50), 0, true, raise 214 (s.bump Reg.AV_LIMITS)) else (f, lim, limited, s)
      let f := min f (freqReq s)
      setAv v f limited { s with bud := { s.bud with avHi := hi, avLim := lim } }

/-- CORE_DROOP (R440): a monitor shows slack of 4/256 or less; CORE runs at half rate for 64 cycles. -/
def execCoreDroop (s : State) : Res := s.whenLive fun s => s.bump Reg.AV_DROOPS

end Sys2Proof.Machine
end

