-- ==== Sys2Proof/Machine/RegOps.lean ====
section
/-!
DEFINITION. Machine/RegOps.lean: reads and writes of a register by their access codes (R10 to R15), and the registers
whose writes the chapters restrict or give an effect at once.
-/

namespace Sys2Proof.Machine

open Sys2Proof

/-- A write by the access code alone (R13). Bits that a command of their own carries out, reserved bits and read-only
fields keep their values; a write-only register that holds data keeps it for its command. -/
def plainWrite (r : Reg.Row) (a : Nat) (v : Word) (s : State) : State :=
  let m := r.mask &&& ~~~r.act
  match r.access with
  | .rw => s.setReg a ((s.reg a &&& ~~~m) ||| (v &&& m))
  | .w1c => s.setReg a (s.reg a &&& ~~~(v &&& m))
  | .w1s => s.setReg a (s.reg a ||| (v &&& m))
  | .wo =>
    if (Reg.CRU_FUSE_DATA 0 ≤ a && a < Reg.CRU_FUSE_DATA 8) || (0x27100100 ≤ a && a < 0x27100200) then s.setReg a v else s
  | .ro => s
  | .rc => s

/-- A refused write: the register keeps its value, and the block raises its CFG_REJECT. -/
def gated (ok : Bool) (reject : State → State) (w : State → State) (s : State) : State := if ok then w s else reject s

/-- Writes of NET registers that R36, R62 and R69 restrict; the ring registers with commands of their own keep their
values. CFG_REJECT comes back while a CONS stands beyond PROD (R69), and packets of a priority that is no longer under flow
control leave (R43). -/
def netWrite (o : Nat) (v : Word) (w : State → State) (s : State) : State :=
  if o = 0x04 then netCtrlWrite v s
  else if o = 0x100 then netCfgWrite 0 v s
  else if o = 0x140 then netCfgWrite 1 v s
  else if o = 0x50 || o = 0x54 || o = 0x5C then s
  else if o = 0x0C then (if s.net.badCons.isEmpty then w s else netEvent 11 (w s))
  else if o = 0x10C || o = 0x14C then releaseWaiting (if o = 0x10C then 0 else 1) (w (netFresh s))
  else if 0x1000 ≤ o && o < 0x2000 then
    match o % 0x10 with
    | 0x0 => gated (!mbxBound s ((o - 0x1000) / 0x10)) (netEvent 11) w s
    | 0x4 => gated (!mbxBound s ((o - 0x1000) / 0x10)) (netEvent 11) w s
    | _ => s
  else w s

/-- Writes of ring registers (R145): BASE_LO, BASE_HI and CFG take a value only while the ring is UNBOUND; an ENABLE that a
refused enable left at 1 takes a 0. -/
def ringWrite (o : Nat) (v : Word) (w : State → State) (s : State) : State :=
  let a := 0x28000000 + o
  let w (s : State) : State := let s := w s; if o % 0x20 = 8 && !bit v 31 then s.setRb a 31 false else s
  if 0xA00000 ≤ o || 8 < o % 0x20 then s
  else gated (s.rf (a - o % 0x20 + 0xC) 25 24 = 0) (ringEvent 2) w s

/-- ZONE_CTRL.EN is written 0 (R264, R602): the scan ends, and the zones held back are forgotten. -/
def zoneDisable (s : State) : State :=
  let s := s.setRb Reg.ZONE_CTRL 0 false
  { s with zone := { s.zone with scan := false, absent := [], locked := [] } }

/-- Writes of zone-keeper registers (R265). -/
def zoneWrite (o : Nat) (v : Word) (w : State → State) (s : State) : State :=
  if o = 0xC00004 then (if bit v 0 then s else zoneDisable s)
  else if 0xC00014 ≤ o && o ≤ 0xC00028 then (if s.rb Reg.ZONE_CTRL 0 then s else w s)
  else if o = 0xC00040 then s
  else w s

/-- Writes of the other SYS registers (R418, R439, R445, R450, R477, R479, R541). Which writes are writes of the AON domain,
with its handshake, R31 does not list: MEM_RETAIN here is one, as are TH_EXCLUDED, EVC_RFAULT and the load of the time, and
a write of TH_QUENCH_INFO.VALID is none (DESIGN CHOICE, log entry 51). -/
def sysWrite (o : Nat) (v : Word) (w : State → State) (s : State) : State :=
  if 0x800000 ≤ o && o < 0xB00000 then ringWrite o v w s
  else if 0xC00000 ≤ o && o < 0xD00000 then zoneWrite o v w s
  else if o = 0x300004 || o = 0x300008 then
    let s := w s
    if s.rb Reg.AV_CTRL 0 then s else setAv 80 (freqReq s) false s
  else if o = 0x400140 || o = 0x400160 || o = 0x400180 then gated (!bit v 6) (calEvent 5) w s
  else if 0x400300 ≤ o && o < 0x400380 then
    let a := 0x28000000 + o
    let s := w s
    (s.setRf a 11 8 0).setRb a 12 false
  else if o = 0x500014 then gated (fld v 2 0 < 4) (memEvent 6) w s
  else if o = 0x500018 then s.aonWrite w
  else if o = 0x600004 then
    let s := w s
    let s := if bit v 0 then s else { s with cf := { s.cf with pf0 := [], pf1 := [] } }
    if bit v 1 then s else { s with cf := { s.cf with bc := [] } }
  else if o = 0x700200 || o = 0x700400 then s
  else w s

/-- Writes of the registers of an eft: DEBUG_EN takes a 1 only in MOULD (R197). -/
def eftWrite (e : Nat) (o : Nat) (w : State → State) (s : State) : State :=
  if o = 0x4 then
    let was := s.rb (Reg.EFT_CTRL e) 1
    let s := w s
    if s.lcState = 1 || was then s else s.setRb (Reg.EFT_CTRL e) 1 false
  else w s

/-- Writes of STG registers (R205, R210, R228). -/
def stgWrite (o : Nat) (v : Word) (w : State → State) (s : State) : State :=
  let en (c : Nat) : Bool := s.rb (Reg.CH_MODE c) 0
  if 0x400000 ≤ o then eftWrite (4 + (o - 0x400000) / 0x1000) (o % 0x1000) w s
  else if o = 0x04 then
    let was := s.rb Reg.STG_CTRL 2
    let s := w s
    if bit v 2 && !was && s.lcState ≠ 1 then s.setRb Reg.STG_CTRL 2 false else s
  else if o = 0x14 then (if (List.range 8).any en then s else w s)
  else if o = 0x4C then (if s.stg.blkCmd.isSome then s else w s)
  else if 0x1000 ≤ o && (o % 0x40 = 0x04 || o % 0x40 = 0x08) then (if en ((o - 0x1000) / 0x40) then s else w s)
  else w s

/-- The slices that phase register `q` of a reader would name, with the other seven registers as they stand. -/
def phasesAfter (s : State) (x rd q : Nat) (v : Word) : List Nat :=
  (List.range 8).flatMap fun k =>
    let u := if k = q then v else s.reg (Reg.MED_ADC_PHASE x rd k)
    [fld u 5 0, fld u 13 8, fld u 21 16, fld u 29 24]

/-- No element occurs twice. -/
def allDifferent : List Nat → Bool
  | [] => true
  | k :: ks => !ks.contains k && allDifferent ks

/-- Writes of the write block and read channel of MEDx (R298, R309, R316, R336). -/
def medWrRcWrite (x o : Nat) (v : Word) (w : State → State) (s : State) : State :=
  let armed := (med s x).rc.armed.isSome
  if o = 0x100004 then
    let owned := (s.eft (2 * x)).owns || (s.eft (2 * x + 1)).owns
    let kind := s.rf (Reg.MED_WR_CTRL x) 1 0
    if fld v 1 0 = 3 || (owned && fld v 1 0 ≠ kind) then wrEvent x 7 ((w s).setRf (Reg.MED_WR_CTRL x) 1 0 kind) else w s
  else if 0x102000 ≤ o && o < 0x102C00 then
    let s := w s
    if (o - 0x102000) / 0x100 = (med s x).wr.head && (med s x).wr.touched then
      modWr x (fun k => { k with touched := false, entryOf := none }) s
    else s
  else if 0x200100 ≤ o && o < 0x200300 then
    let a := Reg.medBase x + o
    let was := s.rb a 31
    let s := w s
    if armed then s.setRb a 31 was else s
  else if 0x200600 ≤ o && o < 0x200640 then
    let rd := (o - 0x200600) / 0x20
    let l := phasesAfter s x rd (o % 0x20 / 4) v
    let named := [fld v 5 0, fld v 13 8, fld v 21 16, fld v 29 24]
    gated (!armed && allDifferent l && named.all fun k => k < 34 && !sliceBad s x rd k) (rcEvent x 7) w s
  else if 0x208000 ≤ o && o < 0x20E300 then
    modRc x (fun r => { r with written := (Reg.medBase x + o) :: r.written.erase (Reg.medBase x + o) }) (w s)
  else w s

/-- Writes of servo registers (R371, R373, R388). -/
def medSvWrite (x o : Nat) (v : Word) (w : State → State) (s : State) : State :=
  if o = 0x500004 then gated (bit v 0 || !bit v 1) (svEvent x 5) w s
  else if o = 0x500050 && x = 0 then
    let s := (w s).setRb (Reg.MED_SV_TANDEM 0) 31 false
    if bit v 31 then svEvent 0 5 s else s
  else if 0x510000 ≤ o && o < 0x510400 then gated ((o - 0x510000) / 0x200 ≠ (sv s x).bank) (svEvent x 5) w s
  else w s

/-- Writes of the registers of MEDx. -/
def medWrite (x o : Nat) (v : Word) (w : State → State) (s : State) : State :=
  if o < 0x300000 then medWrRcWrite x o v w s
  else if 0x400000 ≤ o && o < 0x500000 then eftWrite (2 * x + (o - 0x400000) / 0x1000) (o % 0x1000) w s
  else if 0x500000 ≤ o then medSvWrite x o v w s
  else w s

/-- Writes of XFM registers: the fallback state follows at once (R244). -/
def xfmWrite (o : Nat) (w : State → State) (s : State) : State := if o = 0x04 || o = 0x14 then fbEval (w s) else w s

/-- Writes of MOT registers (R409, R418). -/
def motWrite (o : Nat) (v : Word) (w : State → State) (s : State) : State :=
  if o = 0x14 then s
  else if o = 0x30 || o = 0x34 || o = 0x38 || o = 0x3C then
    gated (s.mot.st = .stopped || s.mot.st = .coast) (motEvent 14) w s
  else if o = 0x48 then gated (fld v 11 0 < fld v 27 16) (motEvent 14) w s
  else if o = 0x5C then gated (s.medA.sv.st = .off && s.medB.sv.st = .off) (motEvent 14) w s
  else w s

/-- Writes of CRU registers: the sticky protection registers (R490), the windows, whose writes let blocked completions go on
(R169), and the window set 7 that does not exist (R522). -/
def cruWrite (o : Nat) (w : State → State) (s : State) : State :=
  if (0x100040 ≤ o && o < 0x100050) || o = 0x100050 then (if s.rb (0x27000000 + o) 31 then s else w s)
  else if o = 0x114 then s
  else if 0x10700 ≤ o && o < 0x10800 then s
  else if 0x10000 ≤ o && o < 0x11400 then
    let f := if o < 0x11000 then (o - 0x10000) / 0x100 else 15
    let s := w s
    fbEval (refreshStalls { s with rings := { s.rings with blocked := s.rings.blocked.filter fun k => k.1 ≠ f } })
  else w s

/-- Write the register of a row at an address. -/
def regWrite (r : Reg.Row) (a : Nat) (v : Word) (s : State) : State :=
  let o := a % 0x1000000
  let w := plainWrite r a v
  match a / 0x1000000 with
  | 0x20 => netWrite o v w s
  | 0x22 => medWrite 0 o v w s
  | 0x23 => medWrite 1 o v w s
  | 0x24 => stgWrite o v w s
  | 0x25 => xfmWrite o w s
  | 0x26 => motWrite o v w s
  | 0x27 => cruWrite o w s
  | 0x28 => sysWrite o v w s
  | _ => w s

/-- Registers whose read pops a FIFO or is free and has a command of its own: this command does not read them. -/
def readHasRow (a : Nat) : Bool :=
  a = Reg.NET_QP_ERR_FIFO || a = Reg.RING_ERR_FIFO || a = Reg.STG_ADVISE_FIFO || a = 0x27000124

/-- Measured voltages, which the spec leaves to the board (R420): VM, VIN12 and VIN5, once they have been measured. -/
def measured (s : State) (a : Nat) : Bool := s.mot.sensed && (a = 0x2600006C || a = 0x26000070)

/-- Read the register of a row at an address (R13): a read-and-clear register clears, a write-only one reads 0, and the clearing
read of a corrected count arms CE_THRESH again (R463). -/
def regRead (r : Reg.Row) (a : Nat) (s : State) : Word × State :=
  if readHasRow a || r.access = .wo then (0, s)
  else if measured s a then
    let (bs, s) := s.drawBytes 4
    (w32 (leNat bs) &&& (if a = 0x2600006C then 0x0FFF0FFF else 0xFFF), s)
  else
    let v := (regView s a).getD (s.reg a)
    if r.access = .rc then
      let s := s.setReg a 0
      let m := (a - Reg.MEM_CORR 0) / 0x20
      if Reg.MEM_CORR 0 ≤ a && a < Reg.MEM_CORR 13 && a % 0x20 = 0 && v ≠ 0 then
        (v, { s with mu := { s.mu with ceDisarmed := s.mu.ceDisarmed.filter fun k => k ≠ m } })
      else (v, s)
    else (v, s)

/-- Who may access a register (R15, R482); window 1 of the recorder belongs to Crucible (R541). -/
def answersTo (r : Reg.Row) (a : Nat) : Reg.Answers := if 0x28700400 ≤ a && a < 0x28700600 then .crucible else r.who

/-- The initiator is Crucible, in the routine or outside it. -/
def isCrucible : Initiator → Bool
  | .crucible => true
  | .romRoutine => true
  | _ => false

/-- Set the answer of an access. -/
def respond (data : Nat) (bad : Bool) (s : State) : State := { s with resp := ⟨BitVec.ofNat 64 data, bad⟩ }

/-- A refusal of R15: read data 0, bus error, SEC_ACCESS. -/
def refuseAccess (s : State) : State := cruEvent 0 (respond 0 true s)

/-- A refusal of R482: as R15, and CF_GATE, counted (R489). -/
def refuseGate (s : State) : State := cruEvent 9 ((refuseAccess s).bump Reg.CF_GATES)

/-- An access inside a register window (R10, R11, R13, R15): `n` bytes at `a`, a write where `v` is given. -/
def windowAccess (ini : Initiator) (a n : Nat) (v : Option Nat) (s : State) : State :=
  if n ≠ 4 || a % 4 ≠ 0 then respond 0 true s
  else match Reg.rowAt a with
    | none => if a / 0x1000000 = 0x27 && !isCrucible ini then refuseAccess s else respond 0 false s
    | some r =>
      match answersTo r a, isCrucible ini, decide (ini = .romRoutine) with
      | .crucible, false, _ => refuseAccess s
      | .romRoutine, false, _ => refuseGate s
      | .romRoutine, true, false => refuseGate s
      | _, _, _ =>
        match v with
        | some v => regWrite r a (w32 v) (respond 0 false s)
        | none =>
          let (d, s) := regRead r a s
          respond d.toNat false s

end Sys2Proof.Machine
end

