-- ==== Sys2Proof/Machine/RegCmds.lean ====
section
/-!
DEFINITION. Machine/RegCmds.lean: REGISTER_WRITE: an access of a core, of the debug port or of an engine as bus master, to a
register or to memory, where no other command carries it out (R10 to R15, R22 to R27).
-/

namespace Sys2Proof.Machine

open Sys2Proof Host

/-- The initiator the debug port stands for: the core that its instruction gives access to, if the rights of the state still
allow that (R496, R579); none where it has no access. -/
def standsFor (ini : Initiator) (s : State) : Option Initiator :=
  match ini with
  | .debugPort =>
    match s.pwr.tap with
    | .core n => if !tapMay s s.pwr.tap then none else if h : n.val < 6 then some (.core ⟨n.val, h⟩) else some .crucible
    | _ => none
  | i => some i

/-- The address lies in a register window (R25). -/
def inWindows (a : Nat) : Bool := 0x20000000 ≤ a && a < 0x29000000

/-- Offset in the XIP window of an access that lies in it whole. -/
def xipOffset (a n : Nat) : Option Nat :=
  if 0x8000000 ≤ a && a + n ≤ 0xC000000 then some (a - 0x8000000) else none

/-- A memory access through the 80/64 code for source `src`: an uncorrectable word answers as a bus error, the trap of
R466. -/
def codedAccess (src a n : Nat) (v : Option Nat) (s : State) : State :=
  match v with
  | some v =>
    match eccWrite src a (leBytes n v) s with
    | (.ok _, s) => respond 0 false s
    | (_, s) => respond 0 true s
  | none =>
    match eccRead src a n s with
    | (.ok bs, s) => respond (leNat bs) false s
    | (_, s) => respond 0 true s

/-- An access of a service core (R23, R25 to R27). -/
def coreAccess (ini : Initiator) (a n : Nat) (v : Option Nat) (s : State) : State :=
  if inWindows a then windowAccess ini a n v s
  else match xipOffset a n, v with
    | some o, none => if xipHidden s (o / 32) then respond 0 true s else respond (leNat (s.flash o n)) false s
    | some _, some _ => respond 0 true s
    | none, _ =>
      if inSram a n || (s.inDram a n && s.grantedSvc a n) then codedAccess 1 a n v s else respond 0 true s

/-- An access of the Crucible core through its own map (R24). What the boot ROM holds is left open; a store to it, as one to the
XIP window, is answered with a bus error. -/
def crucibleAccess (ini : Initiator) (a n : Nat) (v : Option Nat) (s : State) : State :=
  if inWindows a then windowAccess ini a n v s
  else if a + n ≤ 0x40000 then
    if v.isSome then respond 0 true s
    else
      let (bs, s) := s.drawBytes n
      respond (leNat bs) false s
  else match xipOffset a n, v with
    | some o, none => respond (leNat (s.flash o n)) false s
    | some _, some _ => respond 0 true s
    | none, _ =>
      match s.cruAddr a n with
      | some p =>
        if 0x30000000 ≤ p && p < 0x30020000 then
          match v with
          | some v => respond 0 false (s.setBytes p (leBytes n v))
          | none => respond (leNat (s.bytes p n)) false s
        else codedAccess 7 p n v s
      | none => respond 0 true s

/-- An access of an engine of function `f` as bus master (R25 to R27): outside its windows the access does not reach memory and
the function's event is raised; outside every range of the map it has no effect beyond the bus error. -/
def engineAccess (f a n : Nat) (v : Option Nat) (s : State) : State :=
  if inWindows a then windowAccess (.engine (Fin.ofNat 9 f)) a n v s
  else if !(inSram a n || s.inDram a n) then respond 0 true s
  else
    match (match v with | some v => busWrite f a (leBytes n v) s | none => busRead f a n s) with
    | (.ok bs, s) => respond (if v.isSome then 0 else leNat bs) false s
    | (_, s) => respond 0 true s

/-- REGISTER_WRITE (R10 to R15, R22 to R27): an access of `2 ^ size` bytes by an initiator, a write where `v` gives the value. -/
def execRegisterWrite (ini : Initiator) (addr : BitVec 40) (size : Fin 4) (v : Option (BitVec 64)) (s : State) : Res :=
  s.whenLive fun s =>
    let a := addr.toNat
    let n := 2 ^ size.val
    let v := v.map fun x => x.toNat % 2 ^ (8 * n)
    match standsFor ini s with
    | none => respond 0 true s
    | some (.core k) => coreAccess (.core k) a n v s
    | some .crucible => if a < 2 ^ 32 then crucibleAccess .crucible a n v s else respond 0 true s
    | some .romRoutine => if a < 2 ^ 32 then crucibleAccess .romRoutine a n v s else respond 0 true s
    | some (.engine f) => engineAccess f.val a n v s
    | some .debugPort => respond 0 true s

end Sys2Proof.Machine
end

