-- ==== Sys2Proof/Machine/SbCmds.lean ====
section
/-!
DEFINITION. Machine/SbCmds.lean: the messages of the sideband, which Crucible serves (R71, R518, R544).
-/

namespace Sys2Proof.Machine

open Sys2Proof Host

/-- Crucible serves a sideband message, while it is free. -/
def sbServe (vendor : BitVec 32) (cmd lo hi : Nat) (k : State → Nat × List Byte × State) (s : State) : State :=
  if cruFree s then sideband vendor cmd lo hi k s else s

/-- A request's end as a sideband response. -/
def Rq.sb (r : Rq) : Nat × List Byte × State := (r.st, [], r.s)

/-- The device's address on the sideband (R70): on SMBus that of the retained settings, 0x1D where none is stored; on I3C
the dynamic address, once assigned. -/
def sbAddress (s : State) : Option (BitVec 7) :=
  if s.pwr.sbMode = 2 then s.cru.i3cAddr
  else
    let p := setting s 2
    some (if p.length < 25 then 0x1D else BitVec.ofNat 7 (byteAt p 24).toNat)

/-- MCTP_CONTROL_MESSAGE (R70, R71): a message of a type other than the vendor-defined one, to an address of the bus,
with the dynamic address that I3C may assign before it. A control message to the device is answered at once, as DSP0236
says: the type, the instance with its request bits clear, the command, and a completion code and data that this spec does
not give. A message of any other type is not accepted. -/
def execMctpControlMessage (msg : MctpObs) (s : State) : Res :=
  s.whenLive fun s =>
    match s.cru.boot with
    | .due => s
    | .held => s
    | _ =>
      let s := if s.pwr.sbMode = 2 && msg.assign.isSome then modCru (fun c => { c with i3cAddr := msg.assign }) s else s
      if sbAddress s = some msg.dest && msg.type = 0 then
        let (bs, s) := s.drawBytes 8
        sbSend ([0, byteAt msg.bytes 1 &&& 0x1F, byteAt msg.bytes 2] ++ bs) s
      else s

/-- IDENTITY_GET (R518). -/
def execIdentityGet (vendor : BitVec 32) (s : State) : Res :=
  s.whenLive fun s => sbServe vendor 1 1 4 (fun s => (0, identify s ++ identityKey s, s)) s

/-- SIDEBAND_ATTEST (R517, R518). -/
def execSidebandAttest (vendor : BitVec 32) (nonce : List Byte) (s : State) : Res :=
  s.whenLive fun s => sbServe vendor 2 1 4 (fun s => (0, report nonce s, s)) s

/-- SIDEBAND_LC_SET (R498, R518): nothing is answered where the transition is carried out, because the device resets. -/
def execSidebandLcSet (vendor : BitVec 32) (auth : List Byte) (fl : Option Nat) (s : State) : Res :=
  s.whenLive fun s =>
    if !cruFree s || lcWaits s || vendor.toNat ≠ vendorNumber s then s
    else if s.lcState < 1 || 3 < s.lcState then sbReply vendor 3 2 [] s
    else
      let r := reqLcSet auth fl s
      if r.st = 0 then r.s else sbReply vendor 3 r.st [] r.s

/-- KEYSLOT_SET (R499, R518): the digest of an unset owner slot is burnt, and the slot is set. -/
def execKeyslotSet (vendor : BitVec 32) (slot : BitVec 8) (digest : List Byte) (s : State) : Res :=
  s.whenLive fun s => sbServe vendor 4 1 1 (fun s =>
    let i := slot.toNat
    if i < 1 || 3 < i || digest.length ≠ 32 then (1, [], s)
    else if bit s.vaultWord (1 + i) then (2, [], s)
    else
      let s := modFuses (fun u =>
        match i with
        | 1 => { u with slot1 := orBytes u.slot1 digest }
        | 2 => { u with slot2 := orBytes u.slot2 digest }
        | _ => { u with slot3 := orBytes u.slot3 digest }) s
      (0, [], burnVault (2 ^ (1 + i)) s)) s

/-- AUTH_ACTION (R516, R518). -/
def execAuthAction (vendor : BitVec 32) (auth : List Byte) (fl : Option Nat) (s : State) : Res :=
  s.whenLive fun s => sbServe vendor 5 2 3 (fun s => (reqAuthAction auth fl s).sb) s

/-- REC_READ (R544): count, next SEQ and the records. -/
def execRecRead (vendor : BitVec 32) (seq : BitVec 32) (n : BitVec 8) (s : State) : Res :=
  s.whenLive fun s => sbServe vendor 0x10 1 4 (fun s =>
    if n.toNat < 1 || 8 < n.toNat then (1, [], s)
    else
      let rs := recordsFrom s seq.toNat n.toNat
      let next := match rs.getLast? with
        | some b => (field b 8 4 + 1) % 2 ^ 32
        | none => s.evc.nextSeq
      (0, leBytes 1 rs.length ++ leBytes 4 next ++ rs.flatten, s)) s

/-- REC_FREEZE (R540, R544): 1 freezes, 0 releases. -/
def execRecFreeze (vendor : BitVec 32) (on : BitVec 8) (s : State) : Res :=
  s.whenLive fun s => sbServe vendor 0x11 1 4 (fun s =>
    if 1 < on.toNat then (1, [], s) else (0, [], setFreeze true (on = 1) s)) s

/-- REC_CLEAR (R542, R544). -/
def execRecClear (vendor : BitVec 32) (auth : List Byte) (fl : Option Nat) (s : State) : Res :=
  s.whenLive fun s => sbServe vendor 0x12 1 3 (fun s =>
    let r := reqAuthClear auth s
    (r.st, [], if r.st = 0 then recClear fl r.s else r.s)) s

/-- REC_STATUS (R544): EVC_STATUS, next SEQ, oldest kept SEQ and the drop counters. -/
def execRecStatus (vendor : BitVec 32) (s : State) : Res :=
  s.whenLive fun s => sbServe vendor 0x13 1 4 (fun s =>
    let oldest := ((keptRecords s).find? recCrcOk).map fun b => field b 8 4
    (0, leBytes 4 (evcStatus s).toNat ++ leBytes 4 s.evc.nextSeq ++ leBytes 4 (oldest.getD 0)
      ++ ([Reg.EVC_LOST, Reg.EVC_FULL_DROPS, Reg.EVC_FROZEN_DROPS, Reg.EVC_SUPPRESSED].flatMap fun a =>
            leBytes 4 (s.reg a).toNat), s)) s

end Sys2Proof.Machine
end

