-- ==== Sys2Proof/Machine/SuspCmds.lean ====
section
/-!
DEFINITION. Machine/SuspCmds.lean: when a program or erase is suspended and resumed (R216, R217).
-/

namespace Sys2Proof.Machine

open Sys2Proof Host

/-- A READ_PAGE for a die is running or parked. -/
def readRunning (s : State) (c d : Nat) : Bool :=
  let x := s.eft (4 + c)
  let isRead (u : EftUnit) : Bool := eOp u.job.entry = 1 && jobDie s u.job.entry = d
  x.unit.any isRead || x.parked.any fun k => isRead k.unit

/-- SUSPEND_REQUEST (R213, R216): at least MIN_RUN µs of array time have passed on die `d`; `timeLeft` says that its
summed suspended time is below TOTAL. SREQ rises and wakes the parked job, or SUSP_LIMIT is raised once where a count or
time limit alone stands against it. -/
def execSuspendRequest (c : Fin 8) (d : Fin 8) (timeLeft : Bool) (s : State) : Res :=
  s.whenLive fun s =>
    let l := lun s c d
    let parkedOp := (s.eft (4 + c)).parked.find? fun k =>
      k.die = d.val && !k.woken && k.kind = .ready && k.unit.committed && (eOp k.unit.job.entry = 2 || eOp k.unit.job.entry = 3)
    match parkedOp with
    | none => s
    | some k =>
      let most := if eOp k.unit.job.entry = 2 then s.rf Reg.STG_SUSP_CFG 3 0 else s.rf Reg.STG_SUSP_CFG 11 4
      if s.rb Reg.STG_CTRL 0 && !s.stg.pwrLoss && readReady s c d then
        if l.suspends < most && timeLeft then
          wakeParked c d (fun k => k.kind = .ready) false (modLun c d (fun l => { l with sreq := true }) s)
        else if l.limitRaised then s
        else stgEvent 8 (modLun c d (fun l => { l with limitRaised := true }) s)
      else s

/-- SUSPEND_RESUME_CONDITION (R213, R217, R234): `byTime` says that the suspension has lasted EPISODE or that the sum
reached TOTAL. -/
def execSuspendResumeCondition (c : Fin 8) (d : Fin 8) (byTime : Bool) (s : State) : Res :=
  s.whenLive fun s =>
    let l := lun s c d
    let erase := l.heldOp = .erase
    let no := !(readReady s c d || readRunning s c d)
    if l.susp = .yes && !(erase && s.stg.pwrLoss) && !readRunning s c d && (byTime || no || s.stg.pwrLoss) then
      wakeParked c d (fun k => k.kind = .suspended) false s
    else s

end Sys2Proof.Machine
end

