-- ==== Sys2Proof/Machine/WriteCmds.lean ====
section
/-!
DEFINITION. Machine/WriteCmds.lean: commands of the write block and the zone keeper's release (spec/10, R270).
-/

namespace Sys2Proof.Machine

open Sys2Proof Host

/-- Try response frames in turn, at most three (R286): failed attempts and the good frame, if any. -/
def palTry (addr : Nat) (r1 r2 r3 : BitVec 32) : Nat × Option (BitVec 32) :=
  if palGood addr r1 then (0, some r1)
  else if palGood addr r2 then (1, some r2)
  else if palGood addr r3 then (2, some r3)
  else (3, none)

/-- The responses of a transaction's attempts are in (R286): the attempts beyond the `out` already sent go out, failed ones
are counted, and a third one is a link error. -/
def palRun (x out : Nat) (wr : Bool) (addr data : Nat) (r1 r2 r3 : BitVec 32) (s : State) : State :=
  let (n, f) := palTry addr r1 r2 r3
  let s := (palOut x (min 3 (n + 1) - out) wr addr data s).bump (Reg.MED_PAL_ERRORS x) n
  match f with
  | some f => palApply x addr (fld f 23 8) s
  | none => linkError x s

/-- The oldest unanswered write to `addr` is answered: its DATA, and the state without it. -/
def palTake (x addr : Nat) (s : State) : Option (Nat × State) :=
  ((med s x).wr.sent.find? fun p => p.1 = addr).map fun p =>
    (p.2, modWr x (fun w => { w with sent := w.sent.eraseP fun p => p.1 = addr }) s)

/-- PAL_TRANSACTION (R285 to R287): the responses of up to three attempts at the word `addr` (`wr`: a write). They answer the
oldest write of that word that MEDx has sent; with none out MEDx sends a transaction of its own, a write that of the value
it last sent. A link that is down is tried by reads of ID alone. -/
def execPalTransaction (x : Fin 2) (wr : Bool) (addr : Fin 9) (r1 r2 r3 : BitVec 32) (s : State) : Res :=
  s.whenLive fun s =>
    if wr && (addr.val = 0 || 6 ≤ addr.val) then s
    else if !(med s x).wr.linkUp && (wr || addr.val ≠ 0) then s
    else if wr then
      match palTake x addr s with
      | some (d, s) => palRun x 1 true addr d r1 r2 r3 s
      | none => palRun x 0 true addr (palHeld (med s x).wr addr) r1 r2 r3 s
    else palRun x 0 false addr 0 r1 r2 r3 s

/-- PREAMP_FAULT_INPUT (R289): PFLT_N falls and FAULT is read; a faulty input is replaced by the polls. -/
def execPreampFaultInput (x : Fin 2) (o : PalObs) (s : State) : Res :=
  s.whenLive fun s => if (med s x).wr.fltSubst || !(med s x).wr.linkUp then s else palSum x 8 o s

/-- No eft of an actuator owns the datapath token. -/
def noOwner (s : State) (x : Nat) : Bool := !(s.eft (2 * x)).owns && !(s.eft (2 * x + 1)).owns

/-- PAL_CMD (R287, R309): `v` is written to MEDx_PAL_CMD with GO. -/
def execPalCmd (x : Fin 2) (v : BitVec 32) (r1 r2 r3 : BitVec 32) (s : State) : Res :=
  s.whenLive fun s =>
    let addr := fld v 30 24
    let safe := !bit v 31 && (addr = 0 || (6 ≤ addr && addr ≤ 8))
    if noOwner s x && (safe || s.lcState = 1) then
      let s := s.setReg (Reg.MED_PAL_CMD x) (v &&& 0xFFFFFF00)
      let (n, f) := palTry addr r1 r2 r3
      let last := f.getD r3
      let crc := b2n (fld last 7 0 ≠ palCrc last) * 2
      let s := s.setReg (Reg.MED_PAL_RESP x) ((last &&& 0xFFFFFF00) ||| BitVec.ofNat 32 (b2n f.isSome + crc))
      let s := (palOut x (min 3 (n + 1)) (bit v 31) addr (fld v 23 8) s).bump (Reg.MED_PAL_ERRORS x) n
      match f with
      | some f => palApply x addr (fld f 23 8) s
      | none => linkError x s
    else wrEvent x 7 s

/-- TD_SWEEP (R299): `v` is written to MEDx_TD_CTRL with GO. -/
def execTdSweep (x : Fin 2) (v : BitVec 32) (s : State) : Res :=
  s.whenLive fun s => if tokenFree s x then startSweep x v s else wrEvent x 7 s

/-- WRITE_SECTOR_PASS (R290 to R295, R301): a sector position arrives. `mine`: it is that of the armed sector, or of the
loaded slot where none is armed; `o.idle`: the head's assist fell more than IDLE_MS ms ago. -/
def execWriteSectorPass (x : Fin 2) (mine : Bool) (o : PassObs) (s : State) : Res :=
  s.whenLive fun s =>
    let w := (med s x).wr
    match w.armed with
    | some t => if mine && !w.writing then armedPass x t o.idle s else s
    | none => unarmedPass x mine s

/-- SECTOR_WRITE_END (R302): the armed sector's position ends. -/
def execSectorWriteEnd (x : Fin 2) (s : State) : Res := s.whenLive fun s => writtenEnd x s

/-- WRITE_RELEASE (R270): WP has reached the first slot of a started shingled WRITE, and its arming is released: an eft
that waits for WREL goes on. -/
def execWriteRelease (z : Fin 524288) (s : State) : Res :=
  s.whenLive fun s =>
    if s.zone.writes.any fun w => w.zone = z.val && !w.released then
      withZone z keeperBad (fun e s =>
        let s := if e.hold then s else releaseWrites z e.wp s
        (List.range 4).foldl (fun s k => if releasedFor s k then wakeEft k 30 s else s) s) s
    else s

end Sys2Proof.Machine
end

