-- ==== Sys2Proof/Machine/XfmCmds.lean ====
section
/-!
DEFINITION. Machine/XfmCmds.lean: commands of the data transforms (spec/08): the job that a lane runs.
-/

namespace Sys2Proof.Machine

open Sys2Proof Host

/-- The job a lane runs, while its function is not fenced (R259). -/
def laneJob (s : State) (c l op : Nat) : Option (Lane × Job) :=
  match laneOf s c l with
  | none => none
  | some x =>
    match findJob s x.sq x.first with
    | some j => if sqClass s x.sq = c && eOp j.entry = op && !s.fenced 5 then some (x, j) else none
    | none => none

/-- The runs of a compression (R245, R246): the first three verify outcomes decide. `mis` says of each run whether a
mismatch is found before an overflow. -/
def compressRuns (l : Lane) (b data : List Byte) (depth : Nat) (fb : Bool) :
    Nat → Nat → Bool → List Bool → State → State
  | 0, _, _, _, s => xfmEnd l ⟨4, 0, b2n fb * 2, 0, 0x9001⟩ (xfmEvent 1 s)
  | k + 1, mode, retried, mis, s =>
    let (out, stored) := deflate data mode depth
    let r1 := b2n fb * 2 + b2n retried * 4
    if mis.headD false then
      let s := xfmEvent 0 (s.bump Reg.XFM_VERIFY_MISMATCH)
      compressRuns l b data depth fb k (if k = 1 then 1 else mode) true mis.tail s
    else if xCap b < out.length then
      let (bs, s) := s.drawBytes (xCap b)
      writeOr 5 (xDst b) bs (xfmBad l) (xfmEnd l ⟨10, 0, r1, xSrcLen b, 0⟩) s
    else
      let all := stored = (data.length + 32767) / 32768
      writeOr 5 (xDst b) out (xfmBad l)
        (fun s => xfmEnd l ⟨0, out.length, b2n all + r1, xSrcLen b, 0⟩ (s.bump Reg.XFM_CMP_STORED stored)) s

/-- COMPRESS (R241 to R246): compress lane `l` runs its job; `mis` says which runs fail their verify. -/
def execCompress (l : Fin 8) (mis : List Bool) (s : State) : Res :=
  s.whenLive fun s =>
    match laneJob s 0 l 1 with
    | none => s
    | some (x, j) =>
      let b := j.entry
      let fb := isFallback s x
      let mode := if fb then 2 else xMode b
      readOr 5 (xSrc b) (xSrcLen b) (xfmBad x)
        (fun data s => compressRuns x b data (xDepth b) fb 3 mode false mis s) (s.bump Reg.XFM_CMP_JOBS)

/-- DECOMPRESS (R247): decompress lane `l` runs its job. -/
def execDecompress (l : Fin 8) (s : State) : Res :=
  s.whenLive fun s =>
    match laneJob s 1 l 1 with
    | none => s
    | some (x, j) =>
      let b := j.entry
      readOr 5 (xSrc b) (xSrcLen b) (xfmBad x) (fun src s =>
        let (out, code) := inflate src (xCap b)
        writeOr 5 (xDst b) out (xfmBad x) (fun s =>
          if code = 0 then xfmEnd x ⟨0, out.length, 0, 0, 0⟩ s
          else if code = 1 then xfmEnd x ⟨10, out.length, 0, 0, 0⟩ s
          else xfmEnd x ⟨4, out.length, 0, 0, code⟩ (xfmEvent 2 (s.bump Reg.XFM_INFLATE_ERRORS))) s) s

/-- ENCODE (R249, R250): the erasure lane writes the parity fragments. -/
def execEncode (s : State) : Res :=
  s.whenLive fun s =>
    match laneJob s 2 0 1 with
    | none => s
    | some (x, j) =>
      let b := j.entry
      let n := xFrag b
      readAll n (xfmBad x) (fun fs s =>
        let d := fs.map natsOf
        let outs := (List.range (xM b)).map fun i => bytesOf (ecCombine (ecRow (xK b) (xK b + i)) d n)
        writeAll (xfmBad x) (xfmEnd x ⟨0, n, 0, 0, 0⟩) ((segDsts j.entries).zip outs) s) (segSrcs j.entries) [] s

/-- Fragment `i` of a coding group of K data fragments, from K fragments given with their numbers (R250). -/
def ecFragment (k n : Nat) (base : List (Nat × List Nat)) (i : Nat) : List Nat :=
  let inv := (solveMatrix gf8Mul gf8Inv (base.map fun p => ecRow k p.1)).getD []
  ecCombine (ecRow k i) (inv.map fun row => ecCombine row (base.map Prod.snd) n) n

/-- The fragments beyond the first K agree with those (R250). -/
def ecAgree (k n : Nat) (have_ : List (Nat × List Nat)) : Bool :=
  (have_.drop k).all fun p => ecFragment k n (have_.take k) p.1 = p.2

/-- ERASURE_DECODE (R250): the erasure lane solves for the wanted fragments; further present fragments are checked. -/
def execErasureDecode (s : State) : Res :=
  s.whenLive fun s =>
    match laneJob s 3 0 1 with
    | none => s
    | some (x, j) =>
      let b := j.entry
      let n := xFrag b
      let k := xK b
      readAll n (xfmBad x) (fun fs s =>
        let have_ := (bitsOf64 (xPresent b)).zip (fs.map natsOf)
        if ecAgree k n have_ then
          writeAll (xfmBad x) (xfmEnd x ⟨0, n, 0, 0, 0⟩)
            ((segDsts j.entries).zip ((bitsOf64 (xWant b)).map fun i => bytesOf (ecFragment k n (have_.take k) i))) s
        else
          let s := xfmEvent 3 (s.bump Reg.XFM_EC_INCONSISTENT)
          let (fresh, s) := s.drawBytes (n * (segDsts j.entries).length)
          writeAll (xfmBad x) (xfmEnd x ⟨4, 0, 0, 0, 0x9201⟩)
            (segDsts j.entries |>.mapIdx fun i a => (a, (fresh.drop (i * n)).take n)) s) (segSrcs j.entries) [] s

/-- Up to `n` units of a cipher job from unit `u` on (R252, R254): the band is checked at the start of each. -/
def cipherUnits (x : Lane) (b : List Byte) (enc : Bool) : Nat → Nat → State → State
  | 0, _, s => s
  | k + 1, u, s =>
    if field b 40 4 ≤ u then s
    else
      match s.xfm.keys.lookup (xBand b) with
      | none =>
        if u = 0 then xfmEnd x ⟨4, 0, 0, 0, 0x9301⟩ (xfmEvent 4 s) else xfmEnd x ⟨4, u, 0, 0, 0x9302⟩ s
      | some key =>
        readOr 5 (xSrc b + u * 4160) 4160 (xfmBad x) (fun bs s =>
          writeOr 5 (xDst4 b + u * 4160) (xts enc key (xTweak b + u) bs) (xfmBad x) (fun s =>
            let s := s.bump Reg.XFM_CIPH_UNITS
            if field b 40 4 ≤ u + 1 then xfmEnd x ⟨0, u + 1, 0, 0, 0⟩ s
            else
              cipherUnits x b enc k (u + 1)
                (modXfm (fun f => { f with units := (x.sq, x.first, u + 1) :: f.units.filter fun p => p.1 ≠ x.sq || p.2.1 ≠ x.first }) s)) s) s

/-- Units a cipher job has written. -/
def unitsDone (s : State) (x : Lane) : Nat :=
  ((s.xfm.units.find? fun p => p.1 = x.sq && p.2.1 = x.first).map fun p => p.2.2).getD 0

/-- ENCRYPT (R252, R254): cipher lane `l` encrypts the next `n` units of its job. -/
def execEncrypt (l : Fin 4) (n : Fin 4097) (s : State) : Res :=
  s.whenLive fun s =>
    match laneJob s 4 l 1 with
    | none => s
    | some (x, j) => cipherUnits x j.entry true n (unitsDone s x) s

/-- DECRYPT (R252, R254): cipher lane `l` decrypts the next `n` units of its job. -/
def execDecrypt (l : Fin 4) (n : Fin 4097) (s : State) : Res :=
  s.whenLive fun s =>
    match laneJob s 4 l 2 with
    | none => s
    | some (x, j) => cipherUnits x j.entry false n (unitsDone s x) s

/-- COPY (R248): the copy lane copies as through a temporary buffer; a source longer than DST_CAP writes nothing. -/
def execCopy (s : State) : Res :=
  s.whenLive fun s =>
    match laneJob s 5 0 1 with
    | none => s
    | some (x, j) =>
      let b := j.entry
      if xCap b < xSrcLen b then xfmEnd x ⟨10, 0, 0, 0, 0⟩ s
      else
        readOr 5 (xSrc b) (xSrcLen b) (xfmBad x)
          (fun bs s => writeOr 5 (xDst b) bs (xfmBad x) (xfmEnd x ⟨0, xSrcLen b, 0, 0, 0⟩) s) s

end Sys2Proof.Machine
end

