-- ==== Sys2Proof/Machine/Dispatch.lean ====
section
/-!
DEFINITION. Machine/Dispatch.lean: exec, one arm per command.
-/

namespace Sys2Proof.Machine

open Host

def exec (i : Instr) (s : State) : Host.Outcome State Fault Refusal :=
  match i with
  | .registerWrite ini addr size v => Sys2Proof.Machine.execRegisterWrite ini addr size v s
  | .retractPhaseEnd x => Sys2Proof.Machine.execRetractPhaseEnd x s
  | .retractDone x => Sys2Proof.Machine.execRetractDone x s
  | .rampLatched x => Sys2Proof.Machine.execRampLatched x s
  | .forceParkAssert => Sys2Proof.Machine.execForceParkAssert s
  | .sprueAlignmentLoss => Sys2Proof.Machine.execSprueAlignmentLoss s
  | .sprueRetrainTimeout => Sys2Proof.Machine.execSprueRetrainTimeout s
  | .svcFenceTimeout => Sys2Proof.Machine.execSvcFenceTimeout s
  | .portModeSet p v => Sys2Proof.Machine.execPortModeSet p v s
  | .portEnable p => Sys2Proof.Machine.execPortEnable p s
  | .netHoldSet => Sys2Proof.Machine.execNetHoldSet s
  | .netHoldClear => Sys2Proof.Machine.execNetHoldClear s
  | .linkUp p => Sys2Proof.Machine.execLinkUp p s
  | .linkDown p => Sys2Proof.Machine.execLinkDown p s
  | .rxFrame p o => Sys2Proof.Machine.execRxFrame p o s
  | .fecBurstRearm p => Sys2Proof.Machine.execFecBurstRearm p s
  | .pfcXon p occ => Sys2Proof.Machine.execPfcXon p occ s
  | .contextFetchDone q => Sys2Proof.Machine.execContextFetchDone q s
  | .pfcPauseReceived p on off => Sys2Proof.Machine.execPfcPauseReceived p on off s
  | .pfcStorm p => Sys2Proof.Machine.execPfcStorm p s
  | .cnpReceived q => Sys2Proof.Machine.execCnpReceived q s
  | .rateIncrease q => Sys2Proof.Machine.execRateIncrease q s
  | .rawConsWrite v => Sys2Proof.Machine.execRawConsWrite v s
  | .rawRingConfig size v => Sys2Proof.Machine.execRawRingConfig size v s
  | .mbxConsWrite m v => Sys2Proof.Machine.execMbxConsWrite m v s
  | .rxSend q psns bytes ce => Sys2Proof.Machine.execRxSend q psns bytes ce s
  | .rxRdmaWrite h addr key bytes psns => Sys2Proof.Machine.execRxRdmaWrite h addr key bytes psns s
  | .rxRdmaRead h addr key len psn => Sys2Proof.Machine.execRxRdmaRead h addr key len psn s
  | .rxReadResponse h bytes => Sys2Proof.Machine.execRxReadResponse h bytes s
  | .rxAck h psn => Sys2Proof.Machine.execRxAck h psn s
  | .rxNak h rnr => Sys2Proof.Machine.execRxNak h rnr s
  | .ackTimeout q => Sys2Proof.Machine.execAckTimeout q s
  | .rnrTimerExpiry q => Sys2Proof.Machine.execRnrTimerExpiry q s
  | .qpErrFifoPop => Sys2Proof.Machine.execQpErrFifoPop s
  | .create r => Sys2Proof.Machine.execCreate r s
  | .modify r => Sys2Proof.Machine.execModify r s
  | .query r => Sys2Proof.Machine.execQuery r s
  | .destroy r => Sys2Proof.Machine.execDestroy r s
  | .pin r => Sys2Proof.Machine.execPin r s
  | .unpin r => Sys2Proof.Machine.execUnpin r s
  | .bindMailbox r => Sys2Proof.Machine.execBindMailbox r s
  | .advertise r => Sys2Proof.Machine.execAdvertise r s
  | .withdraw r => Sys2Proof.Machine.execWithdraw r s
  | .send r => Sys2Proof.Machine.execSend r s
  | .rdmaWrite r => Sys2Proof.Machine.execRdmaWrite r s
  | .rdmaRead r => Sys2Proof.Machine.execRdmaRead r s
  | .transmit r => Sys2Proof.Machine.execTransmit r s
  | .mctpControlMessage msg => Sys2Proof.Machine.execMctpControlMessage msg s
  | .identityGet vendor => Sys2Proof.Machine.execIdentityGet vendor s
  | .sidebandAttest vendor nonce => Sys2Proof.Machine.execSidebandAttest vendor nonce s
  | .sidebandLcSet vendor auth fl => Sys2Proof.Machine.execSidebandLcSet vendor auth fl s
  | .keyslotSet vendor slot digest => Sys2Proof.Machine.execKeyslotSet vendor slot digest s
  | .authAction vendor auth fl => Sys2Proof.Machine.execAuthAction vendor auth fl s
  | .recRead vendor seq n => Sys2Proof.Machine.execRecRead vendor seq n s
  | .recFreeze vendor on => Sys2Proof.Machine.execRecFreeze vendor on s
  | .recClear vendor auth fl => Sys2Proof.Machine.execRecClear vendor auth fl s
  | .recStatus vendor => Sys2Proof.Machine.execRecStatus vendor s
  | .connect q cap obs => Sys2Proof.Machine.execConnect q cap obs s
  | .disconnect q cap obs => Sys2Proof.Machine.execDisconnect q cap obs s
  | .identify q cap obs => Sys2Proof.Machine.execIdentify q cap obs s
  | .put q cap obs => Sys2Proof.Machine.execPut q cap obs s
  | .get q cap obs => Sys2Proof.Machine.execGet q cap obs s
  | .write q cap obs => Sys2Proof.Machine.execWrite q cap obs s
  | .delete q cap obs => Sys2Proof.Machine.execDelete q cap obs s
  | .head q cap obs => Sys2Proof.Machine.execHead q cap obs s
  | .list q cap obs => Sys2Proof.Machine.execList q cap obs s
  | .flush q cap obs => Sys2Proof.Machine.execFlush q cap obs s
  | .destage q cap obs => Sys2Proof.Machine.execDestage q cap obs s
  | .order q cap obs => Sys2Proof.Machine.execOrder q cap obs s
  | .getFeature q cap obs => Sys2Proof.Machine.execGetFeature q cap obs s
  | .setFeature q cap obs => Sys2Proof.Machine.execSetFeature q cap obs s
  | .powerState q cap obs => Sys2Proof.Machine.execPowerState q cap obs s
  | .powerStateEntered => Sys2Proof.Machine.execPowerStateEntered s
  | .powerStateReversal => Sys2Proof.Machine.execPowerStateReversal s
  | .fwStage q cap obs => Sys2Proof.Machine.execFwStage q cap obs s
  | .fwActivate q cap obs => Sys2Proof.Machine.execFwActivate q cap obs s
  | .formatEpochAdvance q cap obs => Sys2Proof.Machine.execFormatEpochAdvance q cap obs s
  | .repairBuild q cap obs => Sys2Proof.Machine.execRepairBuild q cap obs s
  | .scrub q cap obs => Sys2Proof.Machine.execScrub q cap obs s
  | .sanitize q cap obs => Sys2Proof.Machine.execSanitize q cap obs s
  | .attest q cap obs => Sys2Proof.Machine.execAttest q cap obs s
  | .setTime q cap obs => Sys2Proof.Machine.execSetTime q cap obs s
  | .recorderRead q cap obs => Sys2Proof.Machine.execRecorderRead q cap obs s
  | .recorderClear q cap obs => Sys2Proof.Machine.execRecorderClear q cap obs s
  | .errorLogRead q cap obs => Sys2Proof.Machine.execErrorLogRead q cap obs s
  | .queueRestart q cap obs => Sys2Proof.Machine.execQueueRestart q cap obs s
  | .abort q cap obs => Sys2Proof.Machine.execAbort q cap obs s
  | .writeCommit q tag => Sys2Proof.Machine.execWriteCommit q tag s
  | .writeAcknowledge q tag fault => Sys2Proof.Machine.execWriteAcknowledge q tag fault s
  | .activationSuspend => Sys2Proof.Machine.execActivationSuspend s
  | .activationTimeout => Sys2Proof.Machine.execActivationTimeout s
  | .destageStart => Sys2Proof.Machine.execDestageStart s
  | .stagedPageRelease low => Sys2Proof.Machine.execStagedPageRelease low s
  | .sqEnable q => Sys2Proof.Machine.execSqEnable q s
  | .cqEnable c => Sys2Proof.Machine.execCqEnable c s
  | .sqDoorbell q v => Sys2Proof.Machine.execSqDoorbell q v s
  | .cqDoorbell c v => Sys2Proof.Machine.execCqDoorbell c v s
  | .entryFetchDone q idx => Sys2Proof.Machine.execEntryFetchDone q idx s
  | .phaseRetry q => Sys2Proof.Machine.execPhaseRetry q s
  | .jobStart q aged => Sys2Proof.Machine.execJobStart q aged s
  | .completionPost q => Sys2Proof.Machine.execCompletionPost q s
  | .spillWrite c => Sys2Proof.Machine.execSpillWrite c s
  | .ringErrFifoPop => Sys2Proof.Machine.execRingErrFifoPop s
  | .nop e o => Sys2Proof.Machine.execNop e o s
  | .ldi e o => Sys2Proof.Machine.execLdi e o s
  | .ldh e o => Sys2Proof.Machine.execLdh e o s
  | .addi e o => Sys2Proof.Machine.execAddi e o s
  | .mov e o => Sys2Proof.Machine.execMov e o s
  | .add e o => Sys2Proof.Machine.execAdd e o s
  | .sub e o => Sys2Proof.Machine.execSub e o s
  | .and e o => Sys2Proof.Machine.execAnd e o s
  | .or e o => Sys2Proof.Machine.execOr e o s
  | .xor e o => Sys2Proof.Machine.execXor e o s
  | .shl e o => Sys2Proof.Machine.execShl e o s
  | .shr e o => Sys2Proof.Machine.execShr e o s
  | .cmp e o => Sys2Proof.Machine.execCmp e o s
  | .job e o => Sys2Proof.Machine.execJob e o s
  | .xfer e o => Sys2Proof.Machine.execXfer e o s
  | .xferDone e => Sys2Proof.Machine.execXferDone e s
  | .wait e o => Sys2Proof.Machine.execWait e o s
  | .waitTimeout e => Sys2Proof.Machine.execWaitTimeout e s
  | .br e o => Sys2Proof.Machine.execBr e o s
  | .call e o => Sys2Proof.Machine.execCall e o s
  | .ret e o => Sys2Proof.Machine.execRet e o s
  | .dbnz e o => Sys2Proof.Machine.execDbnz e o s
  | .commit e o => Sys2Proof.Machine.execCommit e o s
  | .endUnit e o => Sys2Proof.Machine.execEndUnit e o s
  | .fail e o => Sys2Proof.Machine.execFail e o s
  | .res e o => Sys2Proof.Machine.execRes e o s
  | .evt e o => Sys2Proof.Machine.execEvt e o s
  | .halt e o => Sys2Proof.Machine.execHalt e o s
  | .unitAbandon e k => Sys2Proof.Machine.execUnitAbandon e k s
  | .unitRestart e => Sys2Proof.Machine.execUnitRestart e s
  | .eftWatchdog e => Sys2Proof.Machine.execEftWatchdog e s
  | .breakpointHalt e => Sys2Proof.Machine.execBreakpointHalt e s
  | .timeUs e o => Sys2Proof.Machine.execTimeUs e o s
  | .unitRestarts e o => Sys2Proof.Machine.execUnitRestarts e o s
  | .token e o => Sys2Proof.Machine.execToken e o s
  | .loadStart e => Sys2Proof.Machine.execLoadStart e s
  | .csDataWrite e v => Sys2Proof.Machine.execCsDataWrite e v s
  | .loadFinish e => Sys2Proof.Machine.execLoadFinish e s
  | .eftRun e b => Sys2Proof.Machine.execEftRun e b s
  | .eftStep e o => Sys2Proof.Machine.execEftStep e o s
  | .eftResume e => Sys2Proof.Machine.execEftResume e s
  | .channelEnable c en => Sys2Proof.Machine.execChannelEnable c en s
  | .rateSwitch c => Sys2Proof.Machine.execRateSwitch c s
  | .rateSwitchDone c passed => Sys2Proof.Machine.execRateSwitchDone c passed s
  | .readPage c reads soft tmo => Sys2Proof.Machine.execReadPage c reads soft tmo s
  | .programPage c failed tmo => Sys2Proof.Machine.execProgramPage c failed tmo s
  | .eraseBlock c failed tmo => Sys2Proof.Machine.execEraseBlock c failed tmo s
  | .stgSetFeature c => Sys2Proof.Machine.execStgSetFeature c s
  | .stgGetFeature c => Sys2Proof.Machine.execStgGetFeature c s
  | .resetLun c => Sys2Proof.Machine.execResetLun c s
  | .readParam c tmo => Sys2Proof.Machine.execReadParam c tmo s
  | .cmd e o => Sys2Proof.Machine.execCmd e o s
  | .addr e o => Sys2Proof.Machine.execAddr e o s
  | .apply e o => Sys2Proof.Machine.execApply e o s
  | .status e o => Sys2Proof.Machine.execStatus e o s
  | .decode e o => Sys2Proof.Machine.execDecode e o s
  | .decodeDone c obs => Sys2Proof.Machine.execDecodeDone c obs s
  | .syndrome e o => Sys2Proof.Machine.execSyndrome e o s
  | .yield e o => Sys2Proof.Machine.execYield e o s
  | .confirm e o => Sys2Proof.Machine.execConfirm e o s
  | .suspend e o => Sys2Proof.Machine.execSuspend e o s
  | .resume e o => Sys2Proof.Machine.execResume e o s
  | .reset e o => Sys2Proof.Machine.execReset e o s
  | .featureData e o => Sys2Proof.Machine.execFeatureData e o s
  | .lunReady c d fail => Sys2Proof.Machine.execLunReady c d fail s
  | .arrayTimeout c d => Sys2Proof.Machine.execArrayTimeout c d s
  | .suspendRequest c d timeLeft => Sys2Proof.Machine.execSuspendRequest c d timeLeft s
  | .suspendResumeCondition c d byTime => Sys2Proof.Machine.execSuspendResumeCondition c d byTime s
  | .parkedJobResume c => Sys2Proof.Machine.execParkedJobResume c s
  | .blkCmd v => Sys2Proof.Machine.execBlkCmd v s
  | .blkCmdApply => Sys2Proof.Machine.execBlkCmdApply s
  | .adviseFifoPop => Sys2Proof.Machine.execAdviseFifoPop s
  | .compress l mis => Sys2Proof.Machine.execCompress l mis s
  | .decompress l => Sys2Proof.Machine.execDecompress l s
  | .encode => Sys2Proof.Machine.execEncode s
  | .erasureDecode => Sys2Proof.Machine.execErasureDecode s
  | .encrypt l n => Sys2Proof.Machine.execEncrypt l n s
  | .decrypt l n => Sys2Proof.Machine.execDecrypt l n s
  | .copy => Sys2Proof.Machine.execCopy s
  | .zoneEnable => Sys2Proof.Machine.execZoneEnable s
  | .zoneScanDone => Sys2Proof.Machine.execZoneScanDone s
  | .zoneOpen z => Sys2Proof.Machine.execZoneOpen z s
  | .zoneClose z => Sys2Proof.Machine.execZoneClose z s
  | .zoneFinish z => Sys2Proof.Machine.execZoneFinish z s
  | .zoneReset o => Sys2Proof.Machine.execZoneReset o s
  | .zoneSync z => Sys2Proof.Machine.execZoneSync z s
  | .setRo z => Sys2Proof.Machine.execSetRo z s
  | .zoneOffline z => Sys2Proof.Machine.execZoneOffline z s
  | .remap z => Sys2Proof.Machine.execRemap z s
  | .zoneCmdUndefined z k => Sys2Proof.Machine.execZoneCmdUndefined z k s
  | .zoneOffer v => Sys2Proof.Machine.execZoneOffer v s
  | .writeRelease z => Sys2Proof.Machine.execWriteRelease z s
  | .palTransaction x wr addr r1 r2 r3 => Sys2Proof.Machine.execPalTransaction x wr addr r1 r2 r3 s
  | .preampFaultInput x o => Sys2Proof.Machine.execPreampFaultInput x o s
  | .palCmd x v r1 r2 r3 => Sys2Proof.Machine.execPalCmd x v r1 r2 r3 s
  | .tdSweep x v => Sys2Proof.Machine.execTdSweep x v s
  | .whead e o => Sys2Proof.Machine.execWhead e o s
  | .wsect e o => Sys2Proof.Machine.execWsect e o s
  | .wparity e o => Sys2Proof.Machine.execWparity e o s
  | .wstat e o => Sys2Proof.Machine.execWstat e o s
  | .wend e o => Sys2Proof.Machine.execWend e o s
  | .arm e o => Sys2Proof.Machine.execArm e o s
  | .writeSectorPass x mine o => Sys2Proof.Machine.execWriteSectorPass x mine o s
  | .sectorWriteEnd x => Sys2Proof.Machine.execSectorWriteEnd x s
  | .rhead e o => Sys2Proof.Machine.execRhead e o s
  | .rsect e o => Sys2Proof.Machine.execRsect e o s
  | .rarm e o => Sys2Proof.Machine.execRarm e o s
  | .rstat e o => Sys2Proof.Machine.execRstat e o s
  | .rerased e o => Sys2Proof.Machine.execRerased e o s
  | .rend e o => Sys2Proof.Machine.execRend e o s
  | .readSectorPass x o => Sys2Proof.Machine.execReadSectorPass x o s
  | .sectorReadOutcome x o => Sys2Proof.Machine.execSectorReadOutcome x o s
  | .sectorGap x => Sys2Proof.Machine.execSectorGap x s
  | .adcMeasPeriod x r k off gain skew => Sys2Proof.Machine.execAdcMeasPeriod x r k off gain skew s
  | .sync e o => Sys2Proof.Machine.execSync e o s
  | .sslot e o => Sys2Proof.Machine.execSslot e o s
  | .spin e o => Sys2Proof.Machine.execSpin e o s
  | .oredet e o => Sys2Proof.Machine.execOredet e o s
  | .offlineDone x o => Sys2Proof.Machine.execOfflineDone x o s
  | .ostat e o => Sys2Proof.Machine.execOstat e o s
  | .ocstart e o => Sys2Proof.Machine.execOcstart e o s
  | .ocstat e o => Sys2Proof.Machine.execOcstat e o s
  | .ocsolve e o => Sys2Proof.Machine.execOcsolve e o s
  | .ocsolveDone x => Sys2Proof.Machine.execOcsolveDone x s
  | .redetect x o => Sys2Proof.Machine.execRedetect x o s
  | .mediaRead e obs => Sys2Proof.Machine.execMediaRead e obs s
  | .mediaWrite e obs => Sys2Proof.Machine.execMediaWrite e obs s
  | .verify e obs => Sys2Proof.Machine.execVerify e obs s
  | .capture e obs => Sys2Proof.Machine.execCapture e obs s
  | .seek e o => Sys2Proof.Machine.execSeek e o s
  | .load e o => Sys2Proof.Machine.execLoad e o s
  | .unload e latched => Sys2Proof.Machine.execUnload e latched s
  | .wedgeStrobe x o => Sys2Proof.Machine.execWedgeStrobe x o s
  | .svstat e o => Sys2Proof.Machine.execSvstat e o s
  | .retarget e o => Sys2Proof.Machine.execRetarget e o s
  | .roffset e o => Sys2Proof.Machine.execRoffset e o s
  | .rampOff e o => Sys2Proof.Machine.execRampOff e o s
  | .rampOn e o => Sys2Proof.Machine.execRampOn e o s
  | .rampTimeout x => Sys2Proof.Machine.execRampTimeout x s
  | .faultClr x => Sys2Proof.Machine.execFaultClr x s
  | .svCmdRetarget x v => Sys2Proof.Machine.execSvCmdRetarget x v s
  | .traceArm x => Sys2Proof.Machine.execTraceArm x s
  | .traceTrigNow x => Sys2Proof.Machine.execTraceTrigNow x s
  | .traceStop x => Sys2Proof.Machine.execTraceStop x s
  | .servoLaneFrame x good => Sys2Proof.Machine.execServoLaneFrame x good s
  | .laneTimeout x => Sys2Proof.Machine.execLaneTimeout x s
  | .speedCommand v => Sys2Proof.Machine.execSpeedCommand v s
  | .speedRefTick rev => Sys2Proof.Machine.execSpeedRefTick rev s
  | .speedLoopTick act iq emf inBand => Sys2Proof.Machine.execSpeedLoopTick act iq emf inBand s
  | .detectEnd o => Sys2Proof.Machine.execDetectEnd o s
  | .stopDetected => Sys2Proof.Machine.execStopDetected s
  | .startTimeout => Sys2Proof.Machine.execStartTimeout s
  | .hallEdge o => Sys2Proof.Machine.execHallEdge o s
  | .relockTimeout => Sys2Proof.Machine.execRelockTimeout s
  | .alignEnd => Sys2Proof.Machine.execAlignEnd s
  | .pwmPeriod o => Sys2Proof.Machine.execPwmPeriod o s
  | .vmOvervoltage => Sys2Proof.Machine.execVmOvervoltage s
  | .inputDip v12 => Sys2Proof.Machine.execInputDip v12 s
  | .powerLoss => Sys2Proof.Machine.execPowerLoss s
  | .holdupDone => Sys2Proof.Machine.execHoldupDone s
  | .vmBelowHoldMin => Sys2Proof.Machine.execVmBelowHoldMin s
  | .inputGoodBoot => Sys2Proof.Machine.execInputGoodBoot s
  | .modelStep duty => Sys2Proof.Machine.execModelStep duty s
  | .sensorSample t => Sys2Proof.Machine.execSensorSample t s
  | .quenchCooled => Sys2Proof.Machine.execQuenchCooled s
  | .sensorRearm m => Sys2Proof.Machine.execSensorRearm m s
  | .budgetWindow p12 meters => Sys2Proof.Machine.execBudgetWindow p12 meters s
  | .avfsTick slack => Sys2Proof.Machine.execAvfsTick slack s
  | .coreDroop => Sys2Proof.Machine.execCoreDroop s
  | .calRequest m => Sys2Proof.Machine.execCalRequest m s
  | .calRunStart k heads => Sys2Proof.Machine.execCalRunStart k heads s
  | .calDeferTimeout k => Sys2Proof.Machine.execCalDeferTimeout k s
  | .calRunTimeout k => Sys2Proof.Machine.execCalRunTimeout k s
  | .calRunEnd k o => Sys2Proof.Machine.execCalRunEnd k o s
  | .scrubStart v => Sys2Proof.Machine.execScrubStart v s
  | .scrubStop => Sys2Proof.Machine.execScrubStop s
  | .scrubEnd => Sys2Proof.Machine.execScrubEnd s
  | .errorTableClear m => Sys2Proof.Machine.execErrorTableClear m s
  | .voteCheck ups => Sys2Proof.Machine.execVoteCheck ups s
  | .dramRefresh => Sys2Proof.Machine.execDramRefresh s
  | .dramTempPoll a b c d e => Sys2Proof.Machine.execDramTempPoll a b c d e s
  | .dramTrainingDone top => Sys2Proof.Machine.execDramTrainingDone top s
  | .wipeDone => Sys2Proof.Machine.execWipeDone s
  | .xipRead l cru => Sys2Proof.Machine.execXipRead l cru s
  | .cfProgram off src len flags ra mtvec => Sys2Proof.Machine.execCfProgram off src len flags ra mtvec s
  | .cfErase off kind flags ra mtvec => Sys2Proof.Machine.execCfErase off kind flags ra mtvec s
  | .cfInfo => Sys2Proof.Machine.execCfInfo s
  | .cfPulseEnd left => Sys2Proof.Machine.execCfPulseEnd left s
  | .l2Invalidate v => Sys2Proof.Machine.execL2Invalidate v s
  | .mailboxSend => Sys2Proof.Machine.execMailboxSend s
  | .mailboxReply => Sys2Proof.Machine.execMailboxReply s
  | .cruMbxPop => Sys2Proof.Machine.execCruMbxPop s
  | .svcCmbxPop => Sys2Proof.Machine.execSvcCmbxPop s
  | .flashWrite seq off src len fl => Sys2Proof.Machine.execFlashWrite seq off src len fl s
  | .flashErase seq off kind fl => Sys2Proof.Machine.execFlashErase seq off kind fl s
  | .settingsWrite seq tag src len fl => Sys2Proof.Machine.execSettingsWrite seq tag src len fl s
  | .stage seq target place off src len final fl => Sys2Proof.Machine.execStage seq target place off src len final fl s
  | .activate seq target mode => Sys2Proof.Machine.execActivate seq target mode s
  | .ready seq => Sys2Proof.Machine.execReady seq s
  | .bandCreate seq band fl => Sys2Proof.Machine.execBandCreate seq band fl s
  | .cruSanitize seq action band a fl => Sys2Proof.Machine.execCruSanitize seq action band a fl s
  | .authCheck seq action a => Sys2Proof.Machine.execAuthCheck seq action a s
  | .cruAttest seq nonce dst => Sys2Proof.Machine.execCruAttest seq nonce dst s
  | .windowSet seq set index base limit en => Sys2Proof.Machine.execWindowSet seq set index base limit en s
  | .funcReset seq f => Sys2Proof.Machine.execFuncReset seq f s
  | .cruLcSet seq a fl => Sys2Proof.Machine.execCruLcSet seq a fl s
  | .debugLcMould => Sys2Proof.Machine.execDebugLcMould s
  | .fuseLifecycle arg => Sys2Proof.Machine.execFuseLifecycle arg s
  | .fuseVaultWord arg => Sys2Proof.Machine.execFuseVaultWord arg s
  | .fuseKekStep arg => Sys2Proof.Machine.execFuseKekStep arg s
  | .fuseSvnCru arg => Sys2Proof.Machine.execFuseSvnCru arg s
  | .fuseSvnSvc arg => Sys2Proof.Machine.execFuseSvnSvc arg s
  | .fuseSvnProf arg => Sys2Proof.Machine.execFuseSvnProf arg s
  | .fuseKeySlot arg => Sys2Proof.Machine.execFuseKeySlot arg s
  | .fuseIdentitySeed arg => Sys2Proof.Machine.execFuseIdentitySeed arg s
  | .fuseBurnDone => Sys2Proof.Machine.execFuseBurnDone s
  | .bandCmdCreate b => Sys2Proof.Machine.execBandCmdCreate b s
  | .bandLoad b => Sys2Proof.Machine.execBandLoad b s
  | .bandUnload b => Sys2Proof.Machine.execBandUnload b s
  | .bandRewrap b => Sys2Proof.Machine.execBandRewrap b s
  | .hashStart outlen => Sys2Proof.Machine.execHashStart outlen s
  | .hashDone => Sys2Proof.Machine.execHashDone s
  | .rngDataRead => Sys2Proof.Machine.execRngDataRead s
  | .entropyHealthFail => Sys2Proof.Machine.execEntropyHealthFail s
  | .wdogKick => Sys2Proof.Machine.execWdogKick s
  | .wdogStop => Sys2Proof.Machine.execWdogStop s
  | .bootWatchdogExpiry => Sys2Proof.Machine.execBootWatchdogExpiry s
  | .trialTimeout => Sys2Proof.Machine.execTrialTimeout s
  | .coreRestart m => Sys2Proof.Machine.execCoreRestart m s
  | .bootStart kat entropy chopper pass straps => Sys2Proof.Machine.execBootStart kat entropy chopper pass straps s
  | .eventRaise n bit payload => Sys2Proof.Machine.execEventRaise n bit payload s
  | .handleTimeout f => Sys2Proof.Machine.execHandleTimeout f s
  | .errorSlotClear f => Sys2Proof.Machine.execErrorSlotClear f s
  | .errorRaise f cond => Sys2Proof.Machine.execErrorRaise f cond s
  | .tailDrop f => Sys2Proof.Machine.execTailDrop f s
  | .functionReset f => Sys2Proof.Machine.execFunctionReset f s
  | .functionResetEnd f pass chopper => Sys2Proof.Machine.execFunctionResetEnd f pass chopper s
  | .softPost k cond func => Sys2Proof.Machine.execSoftPost k cond func s
  | .recorderDrain old f => Sys2Proof.Machine.execRecorderDrain old f s
  | .drainPop => Sys2Proof.Machine.execDrainPop s
  | .recorderFreeze on => Sys2Proof.Machine.execRecorderFreeze on s
  | .freezeTimeout sb => Sys2Proof.Machine.execFreezeTimeout sb s
  | .windowLoad v seq => Sys2Proof.Machine.execWindowLoad v seq s
  | .recorderFaultSet page => Sys2Proof.Machine.execRecorderFaultSet page s
  | .timeLoad hi => Sys2Proof.Machine.execTimeLoad hi s
  | .tokenRefill n => Sys2Proof.Machine.execTokenRefill n s
  | .inputGood => Sys2Proof.Machine.execInputGood s
  | .powerUpStart => Sys2Proof.Machine.execPowerUpStart s
  | .rampFailure => Sys2Proof.Machine.execRampFailure s
  | .vmGood => Sys2Proof.Machine.execVmGood s
  | .railSequenceStep => Sys2Proof.Machine.execRailSequenceStep s
  | .coldResetRelease xtal => Sys2Proof.Machine.execColdResetRelease xtal s
  | .railFault k => Sys2Proof.Machine.execRailFault k s
  | .presenceRemoval => Sys2Proof.Machine.execPresenceRemoval s
  | .resetPinAssert => Sys2Proof.Machine.execResetPinAssert s
  | .resetPinLong => Sys2Proof.Machine.execResetPinLong s
  | .resetPinRelease => Sys2Proof.Machine.execResetPinRelease s
  | .pwrResetWarm => Sys2Proof.Machine.execPwrResetWarm s
  | .pwrResetDevice => Sys2Proof.Machine.execPwrResetDevice s
  | .pwrResetCold => Sys2Proof.Machine.execPwrResetCold s
  | .sifEdge n level held => Sys2Proof.Machine.execSifEdge n level held s
  | .sifWindow n => Sys2Proof.Machine.execSifWindow n s
  | .sifStuck n => Sys2Proof.Machine.execSifStuck n s
  | .sifRearm m => Sys2Proof.Machine.execSifRearm m s
  | .wakeAssert => Sys2Proof.Machine.execWakeAssert s
  | .debugIrUpdate r => Sys2Proof.Machine.execDebugIrUpdate r s
  | .inputOvervoltage => Sys2Proof.Machine.execInputOvervoltage s
  | .aonOscFail => Sys2Proof.Machine.execAonOscFail s
  | .sprueLinkRetrained => Sys2Proof.Machine.execSprueLinkRetrained s
  | .vaonRetentionLoss => Sys2Proof.Machine.execVaonRetentionLoss s
  | .scrubWord pat => Sys2Proof.Machine.execScrubWord pat s
  | .cfVerifyDone => Sys2Proof.Machine.execCfVerifyDone s
  | .brakeChopper up => Sys2Proof.Machine.execBrakeChopper up s
  | .rampRetry => Sys2Proof.Machine.execRampRetry s
  | .railFaultRestart => Sys2Proof.Machine.execRailFaultRestart s
  | .aonWriteDone => Sys2Proof.Machine.execAonWriteDone s
  | .bandCmdDone => Sys2Proof.Machine.execBandCmdDone s

end Sys2Proof.Machine
end

