-- ==== Sys2Proof/Machine/Idle.lean ====
section
/-!
DEFINITION. Machine/Idle.lean: what happens as time passes with no command waiting (DESIGN CHOICE, log entry 7).
-/

namespace Sys2Proof.Machine

open Sys2Proof

/-- The servo field under a sector being written passes (R291). -/
def Med.afterField (m : Med) : Med := { m with wr := m.wr.afterField }

/-- The image posts SOFT_1 with a condition (R568); its payload is the image's, a free value. -/
def postSif (cond : Nat) (s : State) : State :=
  let (p, s) := s.drawBytes 12
  raiseAs 49 cond 1 p false (setStatus 49 0 s)

/-- The image looks at a filtered input (R568): each new fault is posted, and an input that has been faulty for 600 s is re-armed,
at most three times a boot. -/
def watchSif (s : State) (n : Nat) : State :=
  let w := s.svc.watch
  let c := s.rb Reg.SIF_FAULT n
  let t := s.rb Reg.SIF_FAULT (8 + n)
  let old (k : Nat) : Bool := w.posted.getD k false
  let s := if c && !old n then postSif (0x10 + n) s else s
  let s := if t && !old (8 + n) then postSif (0x20 + n) s else s
  let since := if old n || old (8 + n) then w.since.getD n 0 else s.timeUs
  let again := (c || t) && since + 600000000 ≤ s.timeUs && w.rearms.getD n 0 < 3
  let w := { w with posted := (w.posted.set n (c && !again)).set (8 + n) (t && !again), since := w.since.set n since,
                    rearms := if again then w.rearms.set n (w.rearms.getD n 0 + 1) else w.rearms }
  let s := modSvc (fun v => { v with watch := w }) s
  if again then sifRearm n s else s

/-- Every 100 ms the image reads SIF_FAULT (R568). -/
def pollSif (s : State) : State :=
  if svcLive s && s.timeUs % 100000 = 0 then (List.range 8).foldl watchSif s else s

/-- In hold-up the image closes the staging journal and writes DONE (R416). A change that is not acknowledged by then is not in
the journal; one that is acknowledged is, and the next boot rebuilds it (svcAfterReset). That it takes the whole 100 ms where no
HOLDUP_DONE comes before is DEDUCED (log entry 29). -/
def closeJournal (s : State) : State :=
  if svcLive s && s.pwr.holdup && s.pwr.doneBy ≤ s.timeUs then holdupEnd s else s

/-- The time base advances, and with each millisecond the record clock (R535). -/
def clockTick (s : State) : State :=
  let s := { s with timeUs := s.timeUs + 1 }
  if s.timeUs % 1000 = 0 then { s with evc := { s.evc with timeMs := (s.evc.timeMs + 1) % 2 ^ 63 } } else s

/-- A servo field under a write ends (R291), and MOT measures its supplies (R420). -/
def unitTick (s : State) : State :=
  { s with medA := s.medA.afterField, medB := s.medB.afterField, mot := { s.mot with sensed := true } }

/-- Waiting Stepata commands go on where they now can (R81), and the service image polls the pins and the filter's faults (R568
to R570), and ends a hold-up (R416). -/
def imageTick (s : State) : State :=
  let s := if s.svc.cmds.isEmpty && s.svc.entering.isNone && !pinsCall s then s else svcTick (svcFresh s)
  closeJournal (pollSif (if s.svc.cmds.isEmpty then s else pump s))

/-- One microsecond passes (DESIGN CHOICE, log entry 7): the clocks advance, and while the logic die runs, so do the units and the
service image. -/
def idle (s : State) : State :=
  let s := clockTick s
  if s.live then imageTick (unitTick s) else s

end Sys2Proof.Machine
end

