-- ==== Sys2Proof/Safety.lean ====
section
/-!
DEFINITION. Safety.lean: the canonical form of the memories, commands of the logic die and of the power die, and what runs of the
block claims speak of.
-/

namespace Sys2Proof.Machine

open Sys2Proof

/-- The canonical form of DRAM and service SRAM: addresses strictly rising, no byte listed that reads 0 anyway. -/
def Memory.wf (m : Sparse Byte) : Bool := Sparse.wf memDefault m

/-- The canonical form of the register file and of the code-flash array. -/
def Regs.wf (m : Sparse Word) : Bool := Sparse.wf Reg.resetOf m
def Flash.wf (m : Sparse Byte) : Bool := Sparse.wf cfErased m

/-- Whether a command stands for something the logic die does or takes (R17, R18); the others are events of the power die, of the
always-on domain, of the supplies and of the pins, which go on while the logic die is held in reset or quenched. -/
def onLogicDie : Instr → Bool
  | .registerWrite _ _ _ _ => true
  | .retractPhaseEnd _ => false
  | .retractDone _ => false
  | .rampLatched _ => false
  | .forceParkAssert => false
  | .sprueAlignmentLoss => false
  | .sprueRetrainTimeout => false
  | .svcFenceTimeout => true
  | .portModeSet _ _ => true
  | .portEnable _ => true
  | .netHoldSet => true
  | .netHoldClear => true
  | .linkUp _ => true
  | .linkDown _ => true
  | .rxFrame _ _ => true
  | .fecBurstRearm _ => true
  | .pfcXon _ _ => true
  | .contextFetchDone _ => true
  | .pfcPauseReceived _ _ _ => true
  | .pfcStorm _ => true
  | .cnpReceived _ => true
  | .rateIncrease _ => true
  | .rawConsWrite _ => true
  | .rawRingConfig _ _ => true
  | .mbxConsWrite _ _ => true
  | .rxSend _ _ _ _ => true
  | .rxRdmaWrite _ _ _ _ _ => true
  | .rxRdmaRead _ _ _ _ _ => true
  | .rxReadResponse _ _ => true
  | .rxAck _ _ => true
  | .rxNak _ _ => true
  | .ackTimeout _ => true
  | .rnrTimerExpiry _ => true
  | .qpErrFifoPop => true
  | .create _ => true
  | .modify _ => true
  | .query _ => true
  | .destroy _ => true
  | .pin _ => true
  | .unpin _ => true
  | .bindMailbox _ => true
  | .advertise _ => true
  | .withdraw _ => true
  | .send _ => true
  | .rdmaWrite _ => true
  | .rdmaRead _ => true
  | .transmit _ => true
  | .mctpControlMessage _ => true
  | .identityGet _ => true
  | .sidebandAttest _ _ => true
  | .sidebandLcSet _ _ _ => true
  | .keyslotSet _ _ _ => true
  | .authAction _ _ _ => true
  | .recRead _ _ _ => true
  | .recFreeze _ _ => true
  | .recClear _ _ _ => true
  | .recStatus _ => true
  | .connect _ _ _ => true
  | .disconnect _ _ _ => true
  | .identify _ _ _ => true
  | .put _ _ _ => true
  | .get _ _ _ => true
  | .write _ _ _ => true
  | .delete _ _ _ => true
  | .head _ _ _ => true
  | .list _ _ _ => true
  | .flush _ _ _ => true
  | .destage _ _ _ => true
  | .order _ _ _ => true
  | .getFeature _ _ _ => true
  | .setFeature _ _ _ => true
  | .powerState _ _ _ => true
  | .powerStateEntered => true
  | .powerStateReversal => true
  | .fwStage _ _ _ => true
  | .fwActivate _ _ _ => true
  | .formatEpochAdvance _ _ _ => true
  | .repairBuild _ _ _ => true
  | .scrub _ _ _ => true
  | .sanitize _ _ _ => true
  | .attest _ _ _ => true
  | .setTime _ _ _ => true
  | .recorderRead _ _ _ => true
  | .recorderClear _ _ _ => true
  | .errorLogRead _ _ _ => true
  | .queueRestart _ _ _ => true
  | .abort _ _ _ => true
  | .writeCommit _ _ => true
  | .writeAcknowledge _ _ _ => true
  | .activationSuspend => true
  | .activationTimeout => true
  | .destageStart => true
  | .stagedPageRelease _ => true
  | .sqEnable _ => true
  | .cqEnable _ => true
  | .sqDoorbell _ _ => true
  | .cqDoorbell _ _ => true
  | .entryFetchDone _ _ => true
  | .phaseRetry _ => true
  | .jobStart _ _ => true
  | .completionPost _ => true
  | .spillWrite _ => true
  | .ringErrFifoPop => true
  | .nop _ _ => true
  | .ldi _ _ => true
  | .ldh _ _ => true
  | .addi _ _ => true
  | .mov _ _ => true
  | .add _ _ => true
  | .sub _ _ => true
  | .and _ _ => true
  | .or _ _ => true
  | .xor _ _ => true
  | .shl _ _ => true
  | .shr _ _ => true
  | .cmp _ _ => true
  | .job _ _ => true
  | .xfer _ _ => true
  | .xferDone _ => true
  | .wait _ _ => true
  | .waitTimeout _ => true
  | .br _ _ => true
  | .call _ _ => true
  | .ret _ _ => true
  | .dbnz _ _ => true
  | .commit _ _ => true
  | .endUnit _ _ => true
  | .fail _ _ => true
  | .res _ _ => true
  | .evt _ _ => true
  | .halt _ _ => true
  | .unitAbandon _ _ => true
  | .unitRestart _ => true
  | .eftWatchdog _ => true
  | .breakpointHalt _ => true
  | .timeUs _ _ => true
  | .unitRestarts _ _ => true
  | .token _ _ => true
  | .loadStart _ => true
  | .csDataWrite _ _ => true
  | .loadFinish _ => true
  | .eftRun _ _ => true
  | .eftStep _ _ => true
  | .eftResume _ => true
  | .channelEnable _ _ => true
  | .rateSwitch _ => true
  | .rateSwitchDone _ _ => true
  | .readPage _ _ _ _ => true
  | .programPage _ _ _ => true
  | .eraseBlock _ _ _ => true
  | .stgSetFeature _ => true
  | .stgGetFeature _ => true
  | .resetLun _ => true
  | .readParam _ _ => true
  | .cmd _ _ => true
  | .addr _ _ => true
  | .apply _ _ => true
  | .status _ _ => true
  | .decode _ _ => true
  | .decodeDone _ _ => true
  | .syndrome _ _ => true
  | .yield _ _ => true
  | .confirm _ _ => true
  | .suspend _ _ => true
  | .resume _ _ => true
  | .reset _ _ => true
  | .featureData _ _ => true
  | .lunReady _ _ _ => true
  | .arrayTimeout _ _ => true
  | .suspendRequest _ _ _ => true
  | .suspendResumeCondition _ _ _ => true
  | .parkedJobResume _ => true
  | .blkCmd _ => true
  | .blkCmdApply => true
  | .adviseFifoPop => true
  | .compress _ _ => true
  | .decompress _ => true
  | .encode => true
  | .erasureDecode => true
  | .encrypt _ _ => true
  | .decrypt _ _ => true
  | .copy => true
  | .zoneEnable => true
  | .zoneScanDone => true
  | .zoneOpen _ => true
  | .zoneClose _ => true
  | .zoneFinish _ => true
  | .zoneReset _ => true
  | .zoneSync _ => true
  | .setRo _ => true
  | .zoneOffline _ => true
  | .remap _ => true
  | .zoneCmdUndefined _ _ => true
  | .zoneOffer _ => true
  | .writeRelease _ => true
  | .palTransaction _ _ _ _ _ _ => true
  | .preampFaultInput _ _ => true
  | .palCmd _ _ _ _ _ => true
  | .tdSweep _ _ => true
  | .whead _ _ => true
  | .wsect _ _ => true
  | .wparity _ _ => true
  | .wstat _ _ => true
  | .wend _ _ => true
  | .arm _ _ => true
  | .writeSectorPass _ _ _ => true
  | .sectorWriteEnd _ => true
  | .rhead _ _ => true
  | .rsect _ _ => true
  | .rarm _ _ => true
  | .rstat _ _ => true
  | .rerased _ _ => true
  | .rend _ _ => true
  | .readSectorPass _ _ => true
  | .sectorReadOutcome _ _ => true
  | .sectorGap _ => true
  | .adcMeasPeriod _ _ _ _ _ _ => true
  | .sync _ _ => true
  | .sslot _ _ => true
  | .spin _ _ => true
  | .oredet _ _ => true
  | .offlineDone _ _ => true
  | .ostat _ _ => true
  | .ocstart _ _ => true
  | .ocstat _ _ => true
  | .ocsolve _ _ => true
  | .ocsolveDone _ => true
  | .redetect _ _ => true
  | .mediaRead _ _ => true
  | .mediaWrite _ _ => true
  | .verify _ _ => true
  | .capture _ _ => true
  | .seek _ _ => true
  | .load _ _ => true
  | .unload _ _ => true
  | .wedgeStrobe _ _ => true
  | .svstat _ _ => true
  | .retarget _ _ => true
  | .roffset _ _ => true
  | .rampOff _ _ => true
  | .rampOn _ _ => true
  | .rampTimeout _ => true
  | .faultClr _ => true
  | .svCmdRetarget _ _ => true
  | .traceArm _ => true
  | .traceTrigNow _ => true
  | .traceStop _ => true
  | .servoLaneFrame _ _ => false
  | .laneTimeout _ => false
  | .speedCommand _ => true
  | .speedRefTick _ => false
  | .speedLoopTick _ _ _ _ => false
  | .detectEnd _ => false
  | .stopDetected => false
  | .startTimeout => false
  | .hallEdge _ => false
  | .relockTimeout => false
  | .alignEnd => false
  | .pwmPeriod _ => false
  | .vmOvervoltage => false
  | .inputDip _ => false
  | .powerLoss => false
  | .holdupDone => false
  | .vmBelowHoldMin => false
  | .inputGoodBoot => false
  | .modelStep _ => true
  | .sensorSample _ => false
  | .quenchCooled => false
  | .sensorRearm _ => true
  | .budgetWindow _ _ => true
  | .avfsTick _ => true
  | .coreDroop => true
  | .calRequest _ => true
  | .calRunStart _ _ => true
  | .calDeferTimeout _ => true
  | .calRunTimeout _ => true
  | .calRunEnd _ _ => true
  | .scrubStart _ => true
  | .scrubStop => true
  | .scrubEnd => true
  | .errorTableClear _ => true
  | .voteCheck _ => false
  | .dramRefresh => true
  | .dramTempPoll _ _ _ _ _ => true
  | .dramTrainingDone _ => true
  | .wipeDone => true
  | .xipRead _ _ => true
  | .cfProgram _ _ _ _ _ _ => true
  | .cfErase _ _ _ _ _ => true
  | .cfInfo => true
  | .cfPulseEnd _ => true
  | .l2Invalidate _ => true
  | .mailboxSend => true
  | .mailboxReply => true
  | .cruMbxPop => true
  | .svcCmbxPop => true
  | .flashWrite _ _ _ _ _ => true
  | .flashErase _ _ _ _ => true
  | .settingsWrite _ _ _ _ _ => true
  | .stage _ _ _ _ _ _ _ _ => true
  | .activate _ _ _ => true
  | .ready _ => true
  | .bandCreate _ _ _ => true
  | .cruSanitize _ _ _ _ _ => true
  | .authCheck _ _ _ => true
  | .cruAttest _ _ _ => true
  | .windowSet _ _ _ _ _ _ => true
  | .funcReset _ _ => true
  | .cruLcSet _ _ _ => true
  | .debugLcMould => false
  | .fuseLifecycle _ => true
  | .fuseVaultWord _ => true
  | .fuseKekStep _ => true
  | .fuseSvnCru _ => true
  | .fuseSvnSvc _ => true
  | .fuseSvnProf _ => true
  | .fuseKeySlot _ => true
  | .fuseIdentitySeed _ => true
  | .fuseBurnDone => true
  | .bandCmdCreate _ => true
  | .bandLoad _ => true
  | .bandUnload _ => true
  | .bandRewrap _ => true
  | .hashStart _ => true
  | .hashDone => true
  | .rngDataRead => true
  | .entropyHealthFail => true
  | .wdogKick => true
  | .wdogStop => true
  | .bootWatchdogExpiry => true
  | .trialTimeout => true
  | .coreRestart _ => true
  | .bootStart _ _ _ _ _ => false
  | .eventRaise _ _ _ => true
  | .handleTimeout _ => true
  | .errorSlotClear _ => true
  | .errorRaise _ _ => true
  | .tailDrop _ => true
  | .functionReset _ => true
  | .functionResetEnd _ _ _ => true
  | .softPost _ _ _ => true
  | .recorderDrain _ _ => true
  | .drainPop => true
  | .recorderFreeze _ => true
  | .freezeTimeout _ => true
  | .windowLoad _ _ => true
  | .recorderFaultSet _ => true
  | .timeLoad _ => true
  | .tokenRefill _ => true
  | .inputGood => false
  | .powerUpStart => false
  | .rampFailure => false
  | .vmGood => false
  | .railSequenceStep => false
  | .coldResetRelease _ => false
  | .railFault _ => false
  | .presenceRemoval => false
  | .resetPinAssert => false
  | .resetPinLong => false
  | .resetPinRelease => false
  | .pwrResetWarm => true
  | .pwrResetDevice => true
  | .pwrResetCold => true
  | .sifEdge _ _ _ => false
  | .sifWindow _ => false
  | .sifStuck _ => false
  | .sifRearm _ => false
  | .wakeAssert => false
  | .debugIrUpdate _ => false
  | .inputOvervoltage => false
  | .aonOscFail => false
  | .sprueLinkRetrained => false
  | .vaonRetentionLoss => false
  | .scrubWord _ => true
  | .cfVerifyDone => true
  | .brakeChopper _ => false
  | .rampRetry => false
  | .railFaultRestart => false
  | .aonWriteDone => false
  | .bandCmdDone => true

/-- What no raise of an event touches, even where it fences a function: memory and the code flash, keys, objects, zones, the
rings' jobs, the staging array, the calibration, the budget and supplies, and the queue. -/
structure KeepsData (s t : State) : Prop where
  pending : t.pending = s.pending
  mem : t.mem = s.mem
  timeUs : t.timeUs = s.timeUs
  pwr : t.pwr = s.pwr
  rings : t.rings = s.rings
  stg : t.stg = s.stg
  zone : t.zone = s.zone
  bud : t.bud = s.bud
  cal : t.cal = s.cal
  xfm : t.xfm = s.xfm
  cf : t.cf = s.cf
  cru : t.cru = s.cru
  svc : t.svc = s.svc

/-- An event that keeps these, or that fences MOT and then parks both engines (R20, R364). -/
def KeepsOrParks (s t : State) : Prop :=
  ∃ u, KeepsData s u ∧ (t = u ∨ (u.fenced 6 = true ∧ t = servoFault 1 5 (servoFault 0 5 u)))

/-- Eft `e` is about to execute the microword `w` (R178, R179): it runs, nothing holds its unit, it is not at a break, and the word
at its PC is `w`, with its reserved bits 0. -/
def atWord (s : State) (e : Nat) (w : MWord) : Prop :=
  s.live = true ∧ eftReady s e .running = true ∧ atBreak s e = false ∧ wordAt s e = w ∧ mwRsvOk w = true

/-- Eft `e` is about to execute an IN, or an OUT, of a port (R181). -/
def atIn (s : State) (e port : Nat) (w : MWord) : Prop := atWord s e w ∧ mwOp w = 0x0E ∧ mwPort w = port
def atOut (s : State) (e port : Nat) (w : MWord) : Prop := atWord s e w ∧ mwOp w = 0x0F ∧ mwPort w = port

/-- The fetch of a clean word (R178, R195): it ends the pass over a break address, and nothing else changes. -/
def fetched (s : State) (e : Nat) : State := modEft e (fun x => { x with passBreak := false }) s

/-- The state in which the unit in eft `e` has become `f` of what it was, and nothing else has changed. -/
def unitDid (s : State) (e : Nat) (f : EftUnit → EftUnit) : State :=
  s.setEft e { s.eft e with passBreak := false, unit := (s.eft e).unit.map f }

/-- The command of a capsule as it stands at its start: placed, its checks passed. -/
def startingCmd (op q : Nat) (cap : List Byte) (o : CmdObs) (s : State) : Cmd :=
  { placedCmd op q cap o (svcFresh s) with checked := true }

/-- The state in which a capsule meets its checks: placed, and the queue pairs that leave unconnected (R138). -/
def placedAt (op q : Nat) (cap : List Byte) (o : CmdObs) (s : State) : State := settleConns (placeCmd op q cap o (svcFresh s))

/-- The state in which a placed command has passed its checks. -/
def checkedAt (op q : Nat) (cap : List Byte) (o : CmdObs) (s : State) : State :=
  settleConns (modCmd (placedCmd op q cap o (svcFresh s)).seq (fun y => { y with checked := true }) (placedAt op q cap o s))

/-- A capsule is placed while no command is outstanding, on a queue pair that is not about to be unconnected, passes its checks
and may start at once (R83, R117, R138). -/
def capsuleRuns (op q : Nat) (cap : List Byte) (o : CmdObs) (s : State) : Bool :=
  mayPlace q s && (svcFresh s).svc.cmds.isEmpty
    && svcLive (placedAt op q cap o s) && !(conn (placedAt op q cap o s) q).any (·.leaving)
    && (capCheck (placedAt op q cap o s) [] (placedCmd op q cap o (svcFresh s))).isNone
    && svcLive (checkedAt op q cap o s) && mayStart (checkedAt op q cap o s) [] (startingCmd op q cap o s)

/-- The state that a run of a list of commands reaches, the first of them first; none where a step stops. -/
def runAll : List Instr → State → Option State
  | [], s => some s
  | c :: cs, s =>
    match exec c s with
    | .next t => runAll cs t
    | .fault _ => none
    | .refused _ => none

end Sys2Proof.Machine
end

