-- ==== Sys2Proof/Certificates/Slice0/Obligations.lean ====
section
/-!
DEFINITION. Certificates/Slice0/Obligations.lean: the statements for the provers.
-/

open Sys2Proof Sys2Proof.Machine

/-- A step takes the command at the front of the queue and is that command's effect on the state with the queue's
rest; on an empty queue the block idles for a microsecond (log entry 7: DESIGN CHOICE): the time base and, each
millisecond, the record clock advance, and while the logic die runs, a servo field under a write ends and MOT has measured its
supplies. Where no Stepata command is outstanding, no power state being entered, nothing asked by the pins and the filter's
faults not due to be read, nothing else changes, but that in hold-up the image ends it when DONE is due (R416); that this is no
earlier than 100 ms after a loss at speed where no HOLDUP_DONE comes is the model's reading, log entry 29. -/
def Obligations.StepRunsFrontCommand : Prop :=
  (∀ (c : Instr) (rest : List Instr) (s : State),
    step { s with pending := c :: rest } = exec c { s with pending := rest }) ∧
  (∀ s : State, s.pending = [] → step s = .next (idle s)) ∧
  (∀ s : State, s.pending = [] → s.svc.cmds = [] → s.svc.entering = none → pinsCall s = false →
    (s.timeUs + 1) % 100000 ≠ 0 →
    let t : State := { s with
      timeUs := s.timeUs + 1
      evc := { s.evc with timeMs := if (s.timeUs + 1) % 1000 = 0 then (s.evc.timeMs + 1) % 2 ^ 63 else s.evc.timeMs } }
    let u : State := { t with medA := s.medA.afterField, medB := s.medB.afterField, mot := { s.mot with sensed := true } }
    step s = .next (if s.live then
      if svcLive s && s.pwr.holdup && s.pwr.doneBy ≤ s.timeUs + 1 then holdupEnd u else u else t))

/-- The block never stops: from every state every command answers a next state, and so do any number of steps. -/
def Obligations.EveryRunGoesOn : Prop :=
  (∀ (c : Instr) (s : State), ∃ t, exec c s = .next t) ∧
  (∀ (n : Nat) (s : State), ∃ t, Host.Core.run Sys2Proof.core n s = .next t)

/-- While the logic die is held in reset or quenched and the queue holds only commands that act on the logic die,
every step keeps it so: the queue is worked off one command at a time, the time base and the record clock go on when
it is empty, and nothing else in the machine changes; so do any number of steps (DEDUCED, log entry 31: that a command of the
logic die has no effect while it is held is the model's choice). -/
def Obligations.HeldLogicDieIsUntouched : Prop :=
  let held (s : State) : Prop := s.live = false ∧ ∀ c ∈ s.pending, onLogicDie c = true
  (∀ s : State, held s → ∃ t, step s = .next t ∧ held t ∧
    (s.pending ≠ [] → t = { s with pending := s.pending.tail }) ∧
    ∃ us ms, t = { s with pending := s.pending.tail, timeUs := us, evc := { s.evc with timeMs := ms } }) ∧
  (∀ (n : Nat) (s : State), held s → ∃ t, Host.Core.run Sys2Proof.core n s = .next t ∧ held t ∧
    ∃ us ms, t = { s with pending := s.pending.drop n, timeUs := us, evc := { s.evc with timeMs := ms } })

/-- The machine at the release of a power-on cold reset: every register reads the value its table gives for reset, of
which some of every window are written out here from the tables; memory reads 0 everywhere, no command waits, no eft
holds a unit, no ring has a job, and the logic die runs. The contents of the code flash, the blank fuses and the good
supplies there are the model's choice (log entries 9 and 10). -/
def Obligations.ResetValues : Prop :=
  (∀ a : Nat, State.reset.reg a = Reg.resetOf a) ∧
  (State.reset.reg Reg.NET_ID = 0x09600102 ∧ State.reset.reg Reg.NET_RAW_SIZE = 8 ∧ State.reset.reg Reg.STG_ID = 0x09600401 ∧
    State.reset.reg Reg.XFM_ID = 0x09600501 ∧ State.reset.reg Reg.MOT_VCM_FS = 0x0BB805DC ∧
    State.reset.reg Reg.RING_CTRL = 8 ∧ State.reset.reg Reg.ZONE_COUNT = 0x80000 ∧ State.reset.reg Reg.TH_CTRL = 0x30502 ∧
    State.reset.reg Reg.ZONE_OFFER_HEADS = 0xFFFFFF ∧ State.reset.reg (Reg.CQ_STATE 5) = 0 ∧ State.reset.reg (Reg.SQ_STATE 9) = 0) ∧
  (∀ a n : Nat, State.reset.bytes a n = List.replicate n 0) ∧
  (∀ e : Fin 12, (State.reset.eft e).unit = none) ∧
  State.reset.pending = [] ∧ State.reset.rings.jobs = [] ∧ State.reset.svc.cmds = [] ∧ State.reset.live = true

/-- A reset holds the logic die: whatever kind of reset begins, and from whatever state, the logic die is held
afterwards; a write of PWR_RESET to the machine as it stands at the release of the power-on reset leads there, with no
command waiting. -/
def Obligations.ResetsHoldTheLogicDie : Prop :=
  (∀ (k : ResetKind) (cause : Nat) (s : State), (beginReset k cause s).live = false) ∧
  (∃ t, exec .pwrResetDevice State.reset = .next t ∧ t.live = false ∧ t.pending = []) ∧
  (∃ t, exec .pwrResetCold State.reset = .next t ∧ t.live = false ∧ t.pending = []) ∧
  (∃ t, exec .pwrResetWarm State.reset = .next t ∧ t.live = false ∧ t.pending = [])

/-- The canonical form of the memories is an invariant that makes equal contents equal data: two canonical memories
that read alike at every address are the same list; a store of any bytes and a write of any register keep the form; a
store's bytes read back and every byte outside them reads as before; and the form holds at reset. -/
def Obligations.CanonicalMemory : Prop :=
  (∀ m k : Sparse Byte, Memory.wf m = true → Memory.wf k = true →
    (∀ a : Nat, Sparse.get memDefault m a = Sparse.get memDefault k a) → m = k) ∧
  (∀ (s : State) (a : Nat) (bs : List Byte), Memory.wf s.mem = true → Memory.wf (s.setBytes a bs).mem = true ∧
    (s.setBytes a bs).bytes a bs.length = bs ∧
    ∀ x : Nat, x < a ∨ a + bs.length ≤ x → (s.setBytes a bs).bytes x 1 = s.bytes x 1) ∧
  (∀ (s : State) (a : Nat) (v : Word), Regs.wf s.regs = true → Regs.wf (s.setReg a v).regs = true) ∧
  (∀ (s : State) (p : Nat → Bool), Regs.wf s.regs = true → Regs.wf (s.resetRegs p).regs = true) ∧
  Memory.wf State.reset.mem = true ∧ Regs.wf State.reset.regs = true ∧ Flash.wf State.reset.cf.arr = true

/-- The 80/64 code at work: a core's load of a word whose stored pattern is wrong in one symbol, by any pattern,
delivers the stored bytes and records the correction with that symbol and the word's address for initiator 1; a word
whose pattern the checker cannot correct is answered with a bus error and recorded as uncorrectable; memory is as
before either way (R459, R460, R463, R466). -/
def Obligations.CodedRead : Prop :=
  (∀ (j x : Nat), j < 10 → 0 < x → x < 256 → eccDecode (BitVec.ofNat 80 (x * 2 ^ (8 * j))) = .corrected j 0) ∧
  ∀ (s : State) (k : Fin 6) (a : BitVec 40) (z : Fin 4) (w : Nat), s.live = true → inSram a.toNat (2 ^ z.val) = true →
    (∀ (j x : Nat), j < 10 → 0 < x → x < 256 → errsIn s a.toNat (2 ^ z.val) = [(w, BitVec.ofNat 80 (x * 2 ^ (8 * j)))] →
      exec (.registerWrite (.core k) a z none) s = .next
        (respond (leNat (s.bytes a.toNat (2 ^ z.val))) false (memFail 1 w j 1 s)) ∧ (memFail 1 w j 1 s).mem = s.mem) ∧
    (∀ e : BitVec 80, errsIn s a.toNat (2 ^ z.val) = [(w, e)] → eccDecode e = .uncorrectable →
      exec (.registerWrite (.core k) a z none) s = .next (respond 0 true (memFail 1 w 0xF 1 s)) ∧
      (memFail 1 w 0xF 1 s).mem = s.mem)

/-- Frame of the events and of tail drop: raising any source but MEM_WINDOW, posting a software event, the error
machine's timeout and clear, a raised error of a function, a refilled token and tail drop itself leave memory, the
code flash, keys, objects, zones, the rings' jobs, the staging array, the calibration, the budget, the supplies,
Crucible and the queue as they were; where one has fenced MOT, the engines that it parks are the one thing that follows
(R20, R364, R526, R529 to R532). -/
def Obligations.EventFrame : Prop :=
  ∀ (n : Fin 256) (b : Fin 8) (p : Option (List Byte)) (k : Fin 8) (cond : BitVec 8) (g : Fin 16) (f : Fin 7) (h : Fin 8)
    (s t : State),
    (n.val ≠ 36 → exec (.eventRaise n b p) s = .next t → KeepsOrParks s t) ∧
    (exec (.softPost k cond g) s = .next t → KeepsData s t) ∧
    (exec (.handleTimeout f) s = .next t → KeepsOrParks s t) ∧
    (exec (.errorSlotClear f) s = .next t → KeepsData s t) ∧
    (exec (.errorRaise h cond) s = .next t → KeepsOrParks s t) ∧
    (exec (.tailDrop h) s = .next t → KeepsOrParks s t) ∧
    (exec (.tokenRefill n) s = .next t → KeepsData s t)

/-- R10: every register of the map stands at a multiple of 4, and an access to a register window that is not an
aligned 32-bit access, a read or a write, of a core or a bus master, has no effect, reads 0 and is answered with a bus
error. -/
def Obligations.AlignedRegisterAccess : Prop :=
  (∀ r ∈ Reg.netRows ++ Reg.sysRows ++ Reg.medRows ++ Reg.stgRows ++ Reg.xfmRows ++ Reg.motRows ++ Reg.cruRows ++ Reg.svcRows ++
      Reg.eftRows, r.base % 4 = 0 ∧ r.s1 % 4 = 0 ∧ r.s2 % 4 = 0 ∧ r.s3 % 4 = 0) ∧
  ∀ (s : State) (k : Fin 6) (f : Fin 9) (a : BitVec 40) (z : Fin 4) (v : Option (BitVec 64)), s.live = true →
    0x20000000 ≤ a.toNat → a.toNat < 0x29000000 → z ≠ 2 ∨ a.toNat % 4 ≠ 0 →
    exec (.registerWrite (.core k) a z v) s = .next { s with resp := ⟨0, true⟩ } ∧
    exec (.registerWrite .crucible a z v) s = .next { s with resp := ⟨0, true⟩ } ∧
    exec (.registerWrite .romRoutine a z v) s = .next { s with resp := ⟨0, true⟩ } ∧
    exec (.registerWrite (.engine f) a z v) s = .next { s with resp := ⟨0, true⟩ }

/-- R409: MOT_VCM_FS takes a written value while both servo engines are OFF; otherwise the write is ignored and MOT
raises CFG_REJECT. -/
def Obligations.VcmFullScaleWrite : Prop :=
  ∀ (s : State) (k : Fin 6) (v : BitVec 64), s.live = true →
    (s.medA.sv.st = .off → s.medB.sv.st = .off →
      ∃ t, exec (.registerWrite (.core k) (BitVec.ofNat 40 Reg.MOT_VCM_FS) 2 (some v)) s = .next t ∧
        (∀ i : Nat, i < 12 → bit (t.reg Reg.MOT_VCM_FS) i = v.getLsbD i) ∧
        (∀ i : Nat, i < 12 → bit (t.reg Reg.MOT_VCM_FS) (16 + i) = v.getLsbD (16 + i)) ∧
        (∀ a : Nat, a ≠ Reg.MOT_VCM_FS → t.reg a = s.reg a) ∧ t = { s with regs := t.regs, resp := ⟨0, false⟩ }) ∧
    (s.medA.sv.st ≠ .off ∨ s.medB.sv.st ≠ .off →
      exec (.registerWrite (.core k) (BitVec.ofNat 40 Reg.MOT_VCM_FS) 2 (some v)) s =
        .next (motEvent 14 { s with resp := ⟨0, false⟩ }))

/-- R151: a write to the doorbell of an ACTIVE completion ring is accepted where the distance from the consumer index
is at most the count, and makes the consumer index the value; any other value, and any write to the doorbell of an
UNBOUND one, is ignored and raises DOORBELL_REJECT, with nothing else changed; a completion ring whose indices read 0,
as reset leaves them, starts empty when it is enabled. -/
def Obligations.CompletionDoorbell : Prop :=
  ∀ (s : State) (c : Fin 4096) (v : BitVec 17), s.live = true →
    (cqActive s c = true → ringCount (cqN s c) v.toNat (cqC s c) ≤ cqCount s c →
      ∃ t, exec (.cqDoorbell c v) s = .next t ∧ cqC t c = v.toNat % 2 ^ (cqN s c + 1) ∧ cqP t c = cqP s c ∧
        cqActive t c = true) ∧
    (cqActive s c = true → cqCount s c < ringCount (cqN s c) v.toNat (cqC s c) →
      exec (.cqDoorbell c v) s = .next (ringEvent 1 s) ∧ cqC (ringEvent 1 s) c = cqC s c ∧ cqP (ringEvent 1 s) c = cqP s c) ∧
    (cqActive s c = false →
      exec (.cqDoorbell c v) s = .next (ringEvent 1 s) ∧ (ringEvent 1 s).reg (Reg.CQ_CONS c) = s.reg (Reg.CQ_CONS c)) ∧
    (cqActive s c = false → cqP s c = 0 → cqC s c = 0 → ∀ t, exec (.cqEnable c) s = .next t → cqActive t c = true →
      cqP t c = 0 ∧ cqC t c = 0 ∧ cqCount t c = 0)

/-- Accesses to the register windows: only an aligned 32-bit access is served; an offset that is no register reads 0
and takes no write; a register of Crucible refuses every other initiator with data 0, a bus error and SEC_ACCESS; a
register of the ROM routine refuses everyone else with CF_GATE besides; a register that answers to any initiator is
written or read by its access code (R10 to R15, R482, R489). -/
def Obligations.RegisterWindowAccess : Prop :=
  ∀ s : State, s.live = true → ∀ (k : Fin 6) (a : BitVec 40), inWindows a.toNat = true →
    (∀ (z : Fin 4) (v : Option (BitVec 64)), z ≠ 2 ∨ a.toNat % 4 ≠ 0 →
      exec (.registerWrite (.core k) a z v) s = .next (respond 0 true s)) ∧
    (∀ v : Option (BitVec 64), a.toNat % 4 = 0 → Reg.rowAt a.toNat = none →
      exec (.registerWrite (.core k) a 2 v) s = .next (if a.toNat / 0x1000000 = 0x27 then refuseAccess s else respond 0 false s)) ∧
    (∀ (v : Option (BitVec 64)) (r : Reg.Row), a.toNat % 4 = 0 → Reg.rowAt a.toNat = some r →
      (answersTo r a.toNat = .crucible → exec (.registerWrite (.core k) a 2 v) s = .next (refuseAccess s)) ∧
      (answersTo r a.toNat = .romRoutine →
        exec (.registerWrite (.core k) a 2 v) s = .next (refuseGate s) ∧
        exec (.registerWrite .crucible a 2 v) s = .next (refuseGate s))) ∧
    (∀ (v : BitVec 64) (r : Reg.Row), a.toNat % 4 = 0 → Reg.rowAt a.toNat = some r → answersTo r a.toNat = .any →
      exec (.registerWrite (.core k) a 2 (some v)) s = .next
        (regWrite r a.toNat (w32 (v.toNat % 2 ^ 32)) (respond 0 false s)) ∧
      exec (.registerWrite (.core k) a 2 none) s = .next
        (respond (regRead r a.toNat s).1.toNat false (regRead r a.toNat s).2))

/-- A core's write of an XFM register that no rule restricts follows its access code bit by bit: a read-write register
takes the defined bits of the value, a write-1-to-clear one loses the bits written 1, a read-only one keeps its value;
no other register, no byte of memory and no other part of the machine changes but the answer (R13, R246). -/
def Obligations.RegisterAccessCodes : Prop :=
  ∀ (s : State) (k : Fin 6) (a : BitVec 40) (v : BitVec 64) (r : Reg.Row), s.live = true → a.toNat % 4 = 0 →
    a.toNat / 0x1000000 = 0x25 → a.toNat % 0x1000000 ≠ 4 → a.toNat % 0x1000000 ≠ 0x14 →
    Reg.rowAt a.toNat = some r → r.who = .any → r.act = 0 →
    ∃ t, exec (.registerWrite (.core k) a 2 (some v)) s = .next t ∧
      (r.access = .rw → ∀ i : Nat, i < 32 →
        bit (t.reg a.toNat) i = if bit r.mask i then v.getLsbD i else bit (s.reg a.toNat) i) ∧
      (r.access = .w1c → ∀ i : Nat, i < 32 →
        bit (t.reg a.toNat) i = (bit (s.reg a.toNat) i && !(bit r.mask i && v.getLsbD i))) ∧
      (r.access = .ro → t.reg a.toNat = s.reg a.toNat) ∧
      (∀ b : Nat, b ≠ a.toNat → t.reg b = s.reg b) ∧
      t = { s with regs := t.regs, resp := ⟨0, false⟩ }

/-- A core's accesses to memory whose words hold no upset: a load in service SRAM, or in DRAM that a window of the
service image grants, delivers the stored bytes, lowest address least significant, and changes nothing else; a store
there makes exactly those bytes the value's, and every other byte of memory, every register and every other part of
the machine is as before but the answer; elsewhere outside the register windows and the XIP window the answer is a bus
error and nothing changes; in the XIP window a load delivers the code flash's bytes and a store is a bus error (R22,
R23, R25 to R27, R461). -/
def Obligations.CoreMemoryAccess : Prop :=
  ∀ (s : State) (k : Fin 6) (a : BitVec 40) (z : Fin 4), s.live = true → s.mu.errs = [] →
    let n := 2 ^ z.val
    let reaches : Bool := inSram a.toNat n || (s.inDram a.toNat n && s.grantedSvc a.toNat n)
    (reaches = true → exec (.registerWrite (.core k) a z none) s = .next (respond (leNat (s.bytes a.toNat n)) false s)) ∧
    (∀ v : BitVec 64, reaches = true → ∃ t, exec (.registerWrite (.core k) a z (some v)) s = .next t ∧
      t.bytes a.toNat n = leBytes n (v.toNat % 2 ^ (8 * n)) ∧
      (∀ x : Nat, x < a.toNat ∨ a.toNat + n ≤ x → t.bytes x 1 = s.bytes x 1) ∧
      t = { s with mem := t.mem, resp := ⟨0, false⟩ }) ∧
    (∀ v : Option (BitVec 64), reaches = false → inWindows a.toNat = false → xipOffset a.toNat n = none →
      exec (.registerWrite (.core k) a z v) s = .next (respond 0 true s)) ∧
    (∀ o : Nat, xipOffset a.toNat n = some o → xipHidden s (o / 32) = false →
      exec (.registerWrite (.core k) a z none) s = .next (respond (leNat (s.flash o n)) false s)) ∧
    (∀ (o : Nat) (v : BitVec 64), xipOffset a.toNat n = some o →
      exec (.registerWrite (.core k) a z (some v)) s = .next (respond 0 true s))

/-- Frame of the ring registers' commands: enabling a ring and both doorbells leave memory, the code flash, keys,
objects, zones, the staging array, the supplies and the queue as they were, whether accepted or not; of XFM only the
fallback state may change with the bytes that wait; a submission ring's doorbell leaves the registers of every other
ring, and the ring's own base, size, fetch and done indices, as they were, but for the SQ_STATE of other rings where the
event of the fallback state is a function error, whose tail drop holds rings (R144, R150, R151, R171, R244). -/
def Obligations.RingCommandFrame : Prop :=
  ∀ (q : Fin 16384) (c : Fin 4096) (v : BitVec 17) (s t : State),
    (exec (.sqEnable q) s = .next t ∨ exec (.cqEnable c) s = .next t ∨ exec (.sqDoorbell q v) s = .next t ∨
      exec (.cqDoorbell c v) s = .next t →
      KeepsData { s with rings := t.rings, xfm := { s.xfm with fallback := t.xfm.fallback } } t ∧
      t.rings.jobs = s.rings.jobs) ∧
    (exec (.sqDoorbell q v) s = .next t →
      (∀ p : Fin 16384, p ≠ q → ∀ w : Nat, w < 7 → w ≠ 3 ∨ s.rb (Reg.EVC_SRC 166) 9 = false →
        t.reg (Reg.SQ_BASE_LO p + 4 * w) = s.reg (Reg.SQ_BASE_LO p + 4 * w)) ∧
      t.reg (Reg.SQ_BASE_LO q) = s.reg (Reg.SQ_BASE_LO q) ∧ t.reg (Reg.SQ_CFG q) = s.reg (Reg.SQ_CFG q) ∧
      t.reg (Reg.SQ_FETCH q) = s.reg (Reg.SQ_FETCH q) ∧ t.reg (Reg.SQ_DONE q) = s.reg (Reg.SQ_DONE q))

/-- Frame of the commands of Crucible's fuse, band and hash engines, its watchdog, its cores and its mailbox: they
leave memory, every unit outside CRU, and every register but the engines' own command and status registers as they
were, and no start of a burn changes a fuse (R499, R501, R508, R519, R522). -/
def Obligations.CrucibleEngineFrame : Prop :=
  ∀ (arg : BitVec 8) (b : Fin 64) (m : BitVec 6) (s t : State),
    (∃ c ∈ [Instr.fuseLifecycle arg, .fuseVaultWord arg, .fuseKekStep arg, .fuseSvnCru arg, .fuseSvnSvc arg, .fuseSvnProf arg,
        .fuseKeySlot arg, .fuseIdentitySeed arg, .bandCmdCreate b, .bandLoad b, .bandUnload b, .bandRewrap b, .hashStart arg,
        .wdogKick, .wdogStop, .coreRestart m, .mailboxReply, .cruMbxPop, .svcCmbxPop], exec c s = .next t) →
    t = { s with regs := t.regs, cru := t.cru } ∧ t.cru.fuses = s.cru.fuses ∧
    ∀ a : Nat, a ∉ [Reg.CRU_FUSE_CMD, Reg.CRU_FUSE_STAT, Reg.CRU_BAND_CMD, Reg.CRU_BAND_STAT, Reg.CRU_HASH_CTRL] →
      t.reg a = s.reg a

/-- Ring registers: enabling a ring, both doorbells at their acceptance tests, a spilled completion written, and the
pop of RING_ERR_FIFO (R144, R150, R151, R168, R175). -/
def Obligations.RingRegisterCommands : Prop :=
  ∀ s : State, s.live = true →
    (∀ q : Fin 16384, sqState s q = 0 → sqMayEnable (s.setRb (Reg.SQ_CFG q) 31 true) q = true →
      exec (.sqEnable q) s = .next ((s.setRb (Reg.SQ_CFG q) 31 true).setRf (Reg.SQ_STATE q) 25 24 1)) ∧
    (∀ c : Fin 4096, cqActive s c = false → cqMayEnable (s.setRb (Reg.CQ_CFG c) 31 true) c = true →
      exec (.cqEnable c) s = .next ((s.setRb (Reg.CQ_CFG c) 31 true).setRb (Reg.CQ_STATE c) 24 true)) ∧
    (∀ (q : Fin 16384) (v : BitVec 17), sqState s q ≠ 0 →
      ringCount (sqN s q) v.toNat (sqC s q) ≤ 2 ^ sqN s q →
      ringCount (sqN s q) v.toNat (sqP s q) ≤ 2 ^ sqN s q - ringCount (sqN s q) (sqP s q) (sqC s q) →
      exec (.sqDoorbell q v) s = .next (fbEval (s.setRf (Reg.SQ_PROD q) 16 0 (v.toNat % 2 ^ (sqN s q + 1))))) ∧
    (∀ (c : Fin 4096) (v : BitVec 17), cqActive s c = true → ringCount (cqN s c) v.toNat (cqC s c) ≤ cqCount s c →
      exec (.cqDoorbell c v) s =
        .next (fbEval (refreshStalls (s.setRf (Reg.CQ_CONS c) 16 0 (v.toNat % 2 ^ (cqN s c + 1)))))) ∧
    (∀ c : Fin 4096, cqActive s c = true → cqCount s c + cqReserved s c < 2 ^ cqN s c →
      exec (.spillWrite c) s = .next (fbEval (refreshStalls (drainSpill c s)))) ∧
    (∀ (q r : Nat) (l : List (Nat × Nat)), s.rings.errFifo = (q, r) :: l →
      exec .ringErrFifoPop s = .next { s with
        resp := ⟨BitVec.ofNat 64 (2 ^ 31 + b2n s.rings.errOvf * 2 ^ 30 + r * 2 ^ 16 + q), false⟩
        rings := { s.rings with errFifo := l, errOvf := false } })

/-- The ring manager's own work: an entry fetched into its place, a stale entry fetched again, a job started, and a
completion posted (R152, R153, R156, R162). -/
def Obligations.RingManagerCommands : Prop :=
  ∀ (q : Fin 16384) (s : State), s.live = true → sqState s q = 1 →
    (∀ (i : BitVec 17) (bs : List Byte) (t : State), s.rb (Reg.SQ_STATE q) 26 = false → i.toNat < 2 ^ (sqN s q + 1) →
      ringCount (sqN s q) i.toNat (sqF s q) < ringCount (sqN s q) (sqP s q) (sqF s q) + min 8 (s.rf Reg.RING_CTRL 3 0) →
      ringCount (sqN s q) i.toNat (sqF s q) < 2 ^ sqN s q - ringCount (sqN s q) (sqF s q) (sqC s q) →
      tries s q = 0 → atUse s q = true → i.toNat = useIndex s q →
      busRead (sqFunc s q) (sqAddr s q i.toNat) 64 s = (.ok bs, t) → ePhase bs = phaseOf (sqN s q) i.toNat →
      exec (.entryFetchDone q i) s = .next (fbEval (setTries q 0 { t with rings := { t.rings with
        fetched := ⟨q, i.toNat, bs⟩ :: t.rings.fetched.filter fun x => !(x.sq = q.val && x.idx = i.toNat) } }))) ∧
    (∀ (bs : List Byte) (t : State), tries s q ≠ 0 → tries s q < 16 → atUse s q = true → s.rb (Reg.SQ_STATE q) 26 = false →
      busRead (sqFunc s q) (sqAddr s q (useIndex s q)) 64 s = (.ok bs, t) →
      ePhase bs ≠ phaseOf (sqN s q) (useIndex s q) → tries t q = tries s q →
      exec (.phaseRetry q) s = .next (fbEval (setTries q (tries s q + 1) t))) ∧
    (∀ (j : Job) (o : Outcome), oldestJob s q = some j → j.done = some o → ringSpilled s q = false →
      exec (.completionPost q) s = .next (fbEval (staleJob q (refreshStalls (postJob j o s))))) ∧
    (∀ (aged : Bool) (es : List (List Byte)) (long : Bool), readyJob s q = some (es, long) →
      malformedAt s q es long = none → engineReady s q es = true → budgetReady s q es = true → chosen s q aged = true →
      scheduled s q = false → exec (.jobStart q aged) s = .next (dispatchJob q es s)) ∧
    (∀ (aged : Bool) (es : List (List Byte)) (long : Bool) (k r : Nat), readyJob s q = some (es, long) →
      malformedAt s q es long = some (k, r) → oldestJob s q = none →
      freePlace s (sqFunc s q) (sqCq s q) = some .slot → ringSpilled s q = false →
      exec (.jobStart q aged) s = .next (ringError q ((sqF s q + k) % 2 ^ (sqN s q + 1)) r
        (postJob ⟨q, sqF s q, [es.headD []], sqCq s q, .slot, true, none, true⟩
          ⟨1, (sqF s q + k) % 2 ^ (sqN s q + 1), r, 0, 0⟩ s)))

/-- Every microword of format A, B, H and J gives the registers and flags the opcode table gives, advances the PC and
changes nothing else (R178, R179). -/
def Obligations.EftRegisterWords : Prop :=
  ∀ (e : Fin 12) (w : MWord) (s : State), atWord s e w →
    (mwOp w = 0x00 → exec (.nop e .clean) s = .next (unitDid s e EftUnit.next)) ∧
    (mwOp w = 0x01 → exec (.ldi e .clean) s = .next (unitDid s e fun u => u.setR (mwDB w) (BitVec.ofNat 32 (mwImm w)))) ∧
    (mwOp w = 0x02 → exec (.ldh e .clean) s =
      .next (unitDid s e fun u => u.setR (mwDB w) (putFld (u.get (mwDB w)) 31 16 (mwImm w)))) ∧
    (mwOp w = 0x03 → exec (.addi e .clean) s = .next (unitDid s e fun u =>
      u.setF (mwDB w) (u.get (mwDB w) + (BitVec.ofNat 16 (mwImm w)).signExtend 32)
        (carryOut (u.get (mwDB w)) ((BitVec.ofNat 16 (mwImm w)).signExtend 32)))) ∧
    (mwOp w = 0x04 → mwT w = 0 → exec (.mov e .clean) s = .next (unitDid s e fun u => u.setR (mwD w) (u.get (mwS w)))) ∧
    (mwOp w = 0x05 → exec (.add e .clean) s = .next (unitDid s e fun u =>
      u.setF (mwD w) (u.get (mwS w) + u.get (mwT w)) (carryOut (u.get (mwS w)) (u.get (mwT w))))) ∧
    (mwOp w = 0x06 → exec (.sub e .clean) s = .next (unitDid s e fun u =>
      u.setF (mwD w) (u.get (mwS w) - u.get (mwT w)) (borrow (u.get (mwS w)) (u.get (mwT w))))) ∧
    (mwOp w = 0x07 → exec (.and e .clean) s =
      .next (unitDid s e fun u => u.setF (mwD w) (u.get (mwS w) &&& u.get (mwT w)) false)) ∧
    (mwOp w = 0x08 → exec (.or e .clean) s =
      .next (unitDid s e fun u => u.setF (mwD w) (u.get (mwS w) ||| u.get (mwT w)) false)) ∧
    (mwOp w = 0x09 → exec (.xor e .clean) s =
      .next (unitDid s e fun u => u.setF (mwD w) (u.get (mwS w) ^^^ u.get (mwT w)) false)) ∧
    (mwOp w = 0x0A → exec (.shl e .clean) s = .next (unitDid s e fun u =>
      u.setF (mwD w) (u.get (mwS w) <<< mwAmt w) (lastOutL (u.get (mwS w)) (mwAmt w)))) ∧
    (mwOp w = 0x0B → exec (.shr e .clean) s = .next (unitDid s e fun u =>
      u.setF (mwD w) (u.get (mwS w) >>> mwAmt w) (lastOutR (u.get (mwS w)) (mwAmt w)))) ∧
    (mwOp w = 0x0C → mwD w = 0 → exec (.cmp e .clean) s = .next (unitDid s e fun u =>
      (u.flags (u.get (mwS w) - u.get (mwT w)) (borrow (u.get (mwS w)) (u.get (mwT w)))).next)) ∧
    (mwOp w = 0x0D → mwWord w < 14 → exec (.job e .clean) s = .next (unitDid s e fun u =>
      u.setR (mwD w) (BitVec.ofNat 32 (field u.job.entry (8 + 4 * mwWord w) 4))))

/-- BR, CALL, RET and DBNZ move the PC as the opcode table gives; RES, COMMIT and JOB-free control words change the
unit alone; HALT halts with DEBUG_EN; WAIT on a level that holds ends at once and otherwise waits; XFER starts a
transfer inside BUF (R179, R180, R182, R184, R187, R197). -/
def Obligations.EftControlWords : Prop :=
  ∀ (e : Fin 12) (w : MWord) (u : EftUnit) (s : State), atWord s e w → (s.eft e).unit = some u →
    (mwOp w = 0x12 → mwCond w < 19 → exec (.br e .clean) s = .next (unitDid s e fun u =>
      if condHolds (fetched s e) e u (mwCond w) then { u with pc := mwAddr w } else u.next)) ∧
    (mwOp w = 0x13 → mwCond w = 0 → u.stack.length < 8 → exec (.call e .clean) s = .next (unitDid s e fun u =>
      { u with stack := (u.pc + 1) % 8192 :: u.stack, pc := mwAddr w })) ∧
    (∀ a rest, mwOp w = 0x14 → u.stack = a :: rest →
      exec (.ret e .clean) s = .next (unitDid s e fun u => { u with stack := rest, pc := a })) ∧
    (mwOp w = 0x15 → exec (.dbnz e .clean) s = .next (unitDid s e fun u =>
      if u.get (mwD w) - 1 = 0 then (u.put (mwD w) (u.get (mwD w) - 1)).next
      else { u.put (mwD w) (u.get (mwD w) - 1) with pc := mwAddr w })) ∧
    (mwOp w = 0x16 → u.committed = false →
      exec (.commit e .clean) s = .next (unitDid s e fun u => { u with committed := true }.next)) ∧
    (mwOp w = 0x17 → u.committed = true → exec (.endUnit e .clean) s = .next (unitDone e (fetched s e))) ∧
    (mwOp w = 0x18 → mwKind w < 3 → exec (.fail e .clean) s = .next (unitFail e (mwKind w) (mwImm w) (fetched s e))) ∧
    (mwOp w = 0x19 → mwIdx w = 0 → exec (.res e .clean) s = .next (unitDid s e fun u =>
      { u with res0 := if mwAdd w then (u.res0 + (u.get (mwS w)).toNat) % 2 ^ 64 else (u.get (mwS w)).toNat }.next)) ∧
    (mwOp w = 0x1A → exec (.evt e .clean) s =
      .next (eftAttn e 3 ((unitDid s e EftUnit.next).setRf (Reg.EFT_ATTN e) 15 8 (mwCode w)))) ∧
    (mwOp w = 0x1B → s.rb (Reg.EFT_CTRL e) 1 = true → exec (.halt e .clean) s =
      .next (modEft e (fun x => { x with st := .debugHalt }) (unitDid s e EftUnit.next))) ∧
    (mwOp w = 0x11 → (mwEv w < 3 ∨ 15 < mwEv w) → evHolds (fetched s e) e (mwEv w) = some true →
      exec (.wait e .clean) s = .next (endWait e false (fetched s e))) ∧
    (mwOp w = 0x11 → (mwEv w < 3 ∨ 15 < mwEv w) → evHolds (fetched s e) e (mwEv w) = some false →
      exec (.wait e .clean) s =
        .next (modEft e (fun x => { x with wait := .event (mwEv w) (u.get (mwWT w)).toNat }) (fetched s e))) ∧
    (mwOp w = 0x10 → (s.eft e).xfer = none → mwCh w = 0 →
      (u.get (mwD w)).toNat + (u.get (mwS w)).toNat ≤ entLen u.job.entry →
      exec (.xfer e .clean) s = .next (goOn e (modEft e (fun x =>
        { x with xfer := some ⟨entBuf u.job.entry + (u.get (mwD w)).toNat, (u.get (mwS w)).toNat, 0, mwDir w⟩ }) (fetched s e))))

/-- An IN of a readable port gives the register the value the port's table states and changes nothing else (R181,
R212, R300, R333, R348, R384). -/
def Obligations.EftPortReads : Prop :=
  ∀ (e : Fin 12) (w : MWord) (s : State),
    let gives (v : Word) : Host.Outcome State Fault Refusal := .next (unitDid s e fun u => u.setR (mwD w) v)
    let m := med s (e / 2)
    (atIn s e 0x00 w → exec (.timeUs e .clean) s = gives (BitVec.ofNat 32 s.timeUs)) ∧
    (∀ u, atIn s e 0x01 w → (s.eft e).unit = some u →
      exec (.unitRestarts e .clean) s = gives (BitVec.ofNat 32 u.restarts)) ∧
    (e < 4 →
      (atIn s e 0x43 w → exec (.wstat e .clean) s = gives (BitVec.ofNat 32 m.wr.wstat)) ∧
      (atIn s e 0x53 w → exec (.rstat e .clean) s = gives m.rc.rstat) ∧
      (atIn s e 0x54 w → exec (.rerased e .clean) s = gives m.rc.rerased) ∧
      (atIn s e 0x56 w → exec (.sync e .clean) s = gives m.sr.sync) ∧
      (atIn s e 0x57 w → exec (.sslot e .clean) s = gives (BitVec.ofNat 32 (sslotWord m.sr))) ∧
      (∀ v, atIn s e 0x5A w → m.sr.ostat = some v → exec (.ostat e .clean) s = gives v) ∧
      (∀ b, atIn s e 0x5C w → m.sr.rebuild = some b → exec (.ocstat e .clean) s = gives (BitVec.ofNat 32 (ocstatWord b))) ∧
      (atIn s e 0x60 w → exec (.svstat e .clean) s = gives (svStatus s (e / 2)))) ∧
    (4 ≤ e →
      (atIn s e 0x23 w → exec (.status e .clean) s = gives (BitVec.ofNat 32 (0x80 +
        (if (lun s (e - 4) (jobDie s (eftEntry s e))).busy then 0 else 0x60) + b2n (lun s (e - 4) (jobDie s (eftEntry s e))).fail))) ∧
      (atIn s e 0x24 w → exec (.decode e .clean) s = gives (BitVec.ofNat 32 (lastSet s e).failing)) ∧
      (atIn s e 0x25 w → exec (.syndrome e .clean) s =
        gives (BitVec.ofNat 32 ((lastSet s e).syndromes.getD (scr s e (mwD w)).toNat 0))))

/-- An OUT of a MEDx port advances the unit and does what the port's table states with the register's value; a commit-
class port does so once the unit is committed (R176, R181, R300, R333, R345, R348, R376, R384, R385). -/
def Obligations.EftMedPortWrites : Prop :=
  ∀ (e : Fin 12) (w : MWord) (s : State), e < 4 →
    let v := scr s e (mwD w)
    let t := unitDid s e EftUnit.next
    let x := e.val / 2
    (atOut s e 0x10 w → (s.eft e).owns = true → exec (.token e .clean) s = .next t) ∧
    (atOut s e 0x10 w → (s.eft e).owns = false → tokenFree (fetched s e) x = true →
      exec (.token e .clean) s = .next (goOn e (modEft e (fun k => { k with owns := true }) (fetched s e)))) ∧
    (atOut s e 0x40 w → exec (.whead e .clean) s = .next (whead x (fld v 3 0) t)) ∧
    (atOut s e 0x41 w → exec (.wsect e .clean) s = .next (wsect e (fld v 16 0) t)) ∧
    (atOut s e 0x42 w → exec (.wparity e .clean) s = .next (modWr x (fun k =>
      { k with loaded := k.loaded.map fun l => { l with parity := some (fld v 2 0) } }) t)) ∧
    (atOut s e 0x44 w → exec (.wend e .clean) s = .next (endWriteRun x t)) ∧
    (atOut s e 0xC0 w → isCommitted s e = true → exec (.arm e .clean) s = .next (arm e t)) ∧
    (atOut s e 0x50 w → exec (.rhead e .clean) s = .next (rhead x (fld v 3 0) t)) ∧
    (atOut s e 0x51 w → exec (.rsect e .clean) s = .next (rsect e (fld v 16 0) t)) ∧
    (atOut s e 0x52 w → exec (.rarm e .clean) s = .next (rarm e t)) ∧
    (atOut s e 0x55 w → exec (.rend e .clean) s = .next (endReadRun x t)) ∧
    (atOut s e 0x58 w → exec (.spin e .clean) s = .next (t.setRb (Reg.MED_SR_PIN x) (fld v 0 0) (bit v 1))) ∧
    (atOut s e 0x59 w → fld v 3 0 ≠ 8 → exec (.oredet e .clean) s = .next (oredet e v t)) ∧
    (atOut s e 0x5B w → exec (.ocstart e .clean) s = .next (ocstart e (fld v 7 0) t)) ∧
    (atOut s e 0x5D w → fld v 8 0 ≤ 255 → exec (.ocsolve e .clean) s = .next (ocsolve e (fld v 8 0) t)) ∧
    (atOut s e 0x61 w → exec (.retarget e .clean) s = .next (retarget x (wordTarget v) t)) ∧
    (atOut s e 0x62 w → exec (.roffset e .clean) s = .next (readOffset x (sfld v 15 0) t)) ∧
    (atOut s e 0xD0 w → isCommitted s e = true → exec (.rampOff e .clean) s = .next (rampOff x (wordTarget v) t)) ∧
    (atOut s e 0xD1 w → isCommitted s e = true → exec (.rampOn e .clean) s = .next (rampOn x t))

/-- An OUT of an STG port advances the unit and sends the die what Table "STG eft ports" states; a commit-class port
does so once the unit is committed (R181, R204, R206, R212, R213, R216, R217, R221). -/
def Obligations.EftStgPortWrites : Prop :=
  ∀ (e : Fin 12) (w : MWord) (s : State), 4 ≤ e →
    let v := scr s e (mwD w)
    let t := unitDid s e EftUnit.next
    let b := eftEntry t e
    let c := e.val - 4
    let d := jobDie t b
    (atOut s e 0x20 w → exec (.cmd e .clean) s = .next (lunCycle e (fld v 7 0) t)) ∧
    (atOut s e 0x21 w → exec (.addr e .clean) s = .next (modLun c d (fun l =>
      { l with plane := fld v 1 0, cw := fld v 11 8,
               row := rowAddr t c (stgLun b) (if stgPlanes b = 0 then stgBlock b else planeBlock t c (stgBlock b) (fld v 1 0))
                 (stgPage b) }) t)) ∧
    (atOut s e 0x22 w → exec (.apply e .clean) s =
      .next (applyOffsets c d ((jobBlocks t b).headD 0) v.toNat (eftAccessFail e) (fun s => s) t)) ∧
    (∀ u, atOut s e 0x24 w → (t.eft e).unit = some u → exec (.decode e .clean) s =
      let new : DecSet := ⟨fld v 1 0, u.job.sq, u.job.first, 0, [], [], 0, 0, false⟩
      .next (modChan c (fun k => { k with
        decoding := some ⟨fld v 1 0, fld v 5 4, u.job.sq, u.job.first, u.job.entry⟩
        decoded := false
        llr := llrOf t (fld v 5 4)
        sets := ((k.sets.find? fun d => d.set = fld v 1 0 && d.sq = u.job.sq && d.first = u.job.first).getD new)
          :: k.sets.filter fun d => d.set ≠ fld v 1 0 }) t)) ∧
    (∀ u, atOut s e 0x30 w → (s.eft e).unit = some u → v ≠ 0 → exec (.yield e .clean) s = .next (modEft e (fun k =>
      { k with unit := none, xfer := none, wait := .none, st := .idle,
               parked := k.parked ++ [⟨u.next, d, .suspended, false, false⟩] }) t)) ∧
    (atOut s e 0x90 w → isCommitted s e = true → exec (.confirm e .clean) s = .next (lunCycle e (fld v 7 0) t)) ∧
    (atOut s e 0x91 w → isCommitted s e = true → (lun t c d).busy = true → (lun t c d).op = .program →
      exec (.suspend e .clean) s = .next (modLun c d (fun l =>
        if l.busy && (l.op = .program || l.op = .erase) then
          { l with susp := .entering, suspends := l.suspends + 1, sreq := false } else l) t)) ∧
    (atOut s e 0x92 w → isCommitted s e = true → exec (.resume e .clean) s = .next (modLun c d (fun l =>
      if l.susp = .yes then
        { l with susp := .no, op := l.heldOp, entry := l.heldEntry, heldOp := .none, heldEntry := [], busy := true,
                 data := l.heldData, heldData := [] } else l) t)) ∧
    (atOut s e 0x93 w → isCommitted s e = true → exec (.reset e .clean) s = .next (lunReset c d t)) ∧
    (atOut s e 0x94 w → isCommitted s e = true → exec (.featureData e .clean) s =
      .next (readOr 4 (entBuf b) 4 (eftAccessFail e) (fun data s => setFeat c d (stgBlock b) (leNat data) s) t))

/-- Loading, running and debugging an eft: what START, CS_DATA, FINISH, RUN, STEP, RESUME and a breakpoint change
(R194, R197). -/
def Obligations.EftLoadAndDebug : Prop :=
  ∀ (e : Fin 12) (s : State), s.live = true →
    ((s.eft e).st = .stopped → exec (.loadStart e) s = .next (s.setEft e
      { s.eft e with st := .loading, valid := false, cs := [], loadAddr := 0, loadErr := false })) ∧
    (∀ v : BitVec 32, (s.eft e).st = .loading → (s.eft e).loadAddr < 8192 → exec (.csDataWrite e v) s = .next (s.setEft e
      { s.eft e with cs := Sparse.set (fun _ => 0) (s.eft e).cs (s.eft e).loadAddr (v.setWidth 24),
                     loadAddr := (s.eft e).loadAddr + 1 })) ∧
    ((s.eft e).st = .loading → csCrc (s.eft e) = s.reg (Reg.EFT_LOAD_CRC e) → s.rb (Reg.EFT_CTRL e) 0 = true →
      exec (.loadFinish e) s = .next (s.setEft e { s.eft e with valid := true, st := .idle })) ∧
    ((s.eft e).st = .stopped → (s.eft e).valid = true → exec (.eftRun e true) s =
      .next ((s.setRb (Reg.EFT_CTRL e) 0 true).setEft e { s.eft e with st := .idle })) ∧
    (eftReady s e .running = true → atBreak s e = true → s.rb (Reg.EFT_ATTN e) 5 = true →
      exec (.breakpointHalt e) s = .next (s.setEft e { s.eft e with st := .debugHalt })) ∧
    (s.rb (Reg.EFT_CTRL e) 1 = true → eftReady s e .debugHalt = true → wordAt s e = 0 → exec (.eftStep e .clean) s =
      .next (s.setEft e { s.eft e with passBreak := false, unit := (s.eft e).unit.map EftUnit.next })) ∧
    ((s.eft e).st = .debugHalt → exec (.eftResume e) s =
      .next (s.setEft e { s.eft e with st := .running, passBreak := true }))

/-- What happens to a running unit from outside its microcode: a transfer's end, a wait's timeout, an undefined
opcode, a restart after preemption, the watchdog, and a decode's end (R182, R185, R188, R190, R212). -/
def Obligations.EftUnitEvents : Prop :=
  ∀ (e : Fin 12) (s : State), s.live = true →
    (∀ (t : Xfer) (bs : List Byte) (u : State), (s.eft e).xfer = some t → (s.eft e).st = .running → t.dir = false →
      e.val < 4 → busRead (eftFunc e) t.addr t.len s = (.ok bs, u) →
      exec (.xferDone e) s = .next (wakeEft e 1 (modEft e (fun y => { y with xfer := none })
        (modWr (e / 2) (fun w => { w with fifo := w.fifo ++ bs }) u)))) ∧
    (∀ k t, (s.eft e).wait = .event k t → t ≠ 0 → (s.eft e).st = .running →
      exec (.waitTimeout e) s = .next (endWait e true s)) ∧
    (∀ w : MWord, atWord s e w → 0x1C ≤ mwOp w →
      exec (.unitAbandon e (.fault .clean)) s = .next (unitFault e 2 (fetched s e))) ∧
    (∀ p : Preempted, (s.eft e).st = .idle → (s.eft e).unit = none →
      (s.eft e).preempted.find? (preemptorEnded s) = some p →
      calActive s 4 = false →
      exec (.unitRestart e) s = .next (stgAdmit (e - 4) (enterUnit e 0 (dropSets e p.unit.job.sq p.unit.job.first
        (s.setEft e { s.eft e with st := .running, unit := some p.unit, xfer := none, wait := .none,
                                   preempted := (s.eft e).preempted.erase p }))))) ∧
    (calActive s 4 = true → exec (.unitRestart e) s = .next s) ∧
    ((s.eft e).st = .running → (s.eft e).wait = .none → exec (.eftWatchdog e) s = .next (unitFault e 7 s)) ∧
    (∀ (c : Fin 8) (k : Decoding), (chan s c).decoding = some k → k.mode = 0 → eOp k.entry ≠ 1 →
      exec (.decodeDone c []) s = .next (wakeEft (4 + c) 16
        (modChan c (fun k => { k with decoding := none, decoded := true }) s)))

/-- UNIT_ABANDON: a request of the datapath makes an uncommitted unit of a MEDx eft restart from its entry, with its
token released, and is held over a committed one that has a next unit; a ready job that preempts an uncommitted unit
of an STG eft takes the eft, and the unit waits to restart; an undefined opcode of an uncommitted unit restarts it
with cause 2, an IN or OUT of a port that does not answer with cause 4; below RESTART_MAX restarts each of them, with
the cause and PC latched and the restart counted (R181, R185, R190). -/
def Obligations.UnitAbandonCommand : Prop :=
  ∀ (e : Fin 12) (u : EftUnit) (s : State), s.live = true → (s.eft e).st = .running → (s.eft e).unit = some u →
    let restarted (t : State) : State :=
      dropSets e u.job.sq u.job.first (releaseToken e (t.bump (Reg.EFT_RESTARTS e)))
    let again (t : State) : State :=
      modEft e (fun x => { x with unit := some u.restart, xfer := none, wait := .none, passBreak := false }) (restarted t)
    (e.val < 4 → u.committed = false → u.restarts < restartMax s e →
      exec (.unitAbandon e .request) s = .next (again (latchCause e 1 u s))) ∧
    (e.val < 4 → u.committed = true → u.job.unit + 1 < u.job.units →
      exec (.unitAbandon e .request) s = .next (modUnit e (fun u => { u with heldRequest := true }) s)) ∧
    (e.val < 4 → u.committed = true → u.job.units ≤ u.job.unit + 1 → exec (.unitAbandon e .request) s = .next s) ∧
    (∀ q : Fin 16384, 4 ≤ e.val → s.rb (Reg.EFT_CTRL e) 3 = true → preemptsUnit s e q u = true →
      u.restarts < restartMax s e → exec (.unitAbandon e (.preemption q)) s = .next (freeEft e
        (modEft e (fun x => { x with preempted := x.preempted ++ [⟨u.restart, q, sqF s q⟩] })
          ((latchCause e 1 u s).bump (Reg.EFT_RESTARTS e))))) ∧
    (∀ w : MWord, atWord s e w → 0x1C ≤ mwOp w → u.committed = false → u.restarts < restartMax s e →
      exec (.unitAbandon e (.fault .clean)) s = .next (again (latchCause e 2 u (fetched s e)))) ∧
    (∀ w : MWord, atWord s e w → mwOp w = 0x0E ∨ mwOp w = 0x0F → u.committed = false → u.restarts < restartMax s e →
      exec (.unitAbandon e (.fault .clean)) s = .next (again (latchCause e 4 u (fetched s e))))

/-- Channels of the staging tier and the macro-operations of its shipped routines: enable, rate switch and its end,
and the operations on a die where no word is in error (R200 to R202, R206, R212). -/
def Obligations.StagingChannelCommands : Prop :=
  ∀ (c : Fin 8) (s : State), s.live = true →
    (s.rb (Reg.CH_MODE c) 0 = false → geomOk s c = true → exec (.channelEnable c true) s =
      .next (modChan c (fun x => { x with ready := true, rate := 0 }) (s.setRb (Reg.CH_MODE c) 0 true))) ∧
    (s.rb (Reg.CH_MODE c) 0 = false → geomOk s c = false → exec (.channelEnable c true) s = .next (stgEvent 13 s)) ∧
    (exec (.channelEnable c false) s = .next (modChan c (fun x => { x with ready := false, rate := 0, switchPending := false })
      ((s.setRb (Reg.CH_MODE c) 0 false).setRb (Reg.CH_MODE c) 8 false))) ∧
    (s.rf (Reg.CH_MODE c) 7 4 < 11 → s.rb (Reg.CH_MODE c) 0 = true → exec (.rateSwitch c) s =
      .next (modChan c (fun x => { x with switchPending := true }) (s.setRb (Reg.CH_MODE c) 8 true))) ∧
    (∀ r : Fin 11, (chan s c).switchPending = true → chanIdle s c = true → s.rf (Reg.CH_MODE c) 7 4 = r.val → r.val ≠ 0 →
      exec (.rateSwitchDone c r) s = .next (modChan c (fun x => { x with switchPending := false, rate := r, ready := true })
        (setRate c r (s.setRb (Reg.CH_MODE c) 8 false)))) ∧
    (∀ u, stgUnit c 4 s = some u → s.mu.errs = [] → s.engineMay 4 (entBuf u.job.entry) 4 = true →
      exec (.stgSetFeature c) s = .next (stgEnd c 0 0 4 0 0 0
        (setFeat c (jobDie s u.job.entry) (stgBlock u.job.entry) (leNat (s.bytes (entBuf u.job.entry) 4)) s))) ∧
    (∀ u, stgUnit c 5 s = some u → s.mu.errs = [] → s.engineMay 4 (entBuf u.job.entry) 4 = true →
      exec (.stgGetFeature c) s = .next (stgEnd c 0 0 4 0 0 0
        (s.setBytes (entBuf u.job.entry) (getFeat s c (jobDie s u.job.entry) (stgBlock u.job.entry))))) ∧
    (∀ u, stgUnit c 6 s = some u → exec (.resetLun c) s =
      .next (stgEnd c 0 0 0 0 0 0 (lunReset c (jobDie s u.job.entry) s))) ∧
    (∀ u, stgUnit c 7 s = some u → s.mu.errs = [] → s.engineMay 4 (entBuf u.job.entry) (entLen u.job.entry) = true →
      exec (.readParam c false) s = .next (stgEnd c 0 0 (entLen u.job.entry) 0 0 0
        (s.setBytes (entBuf u.job.entry) (paramData c (jobDie s u.job.entry) u.job.entry))))

/-- Pages, blocks and the events of a die: a page read that decodes, a program and an erase past their record checks,
ready, an array timeout, suspension and resumption, a parked job, a block command and the advice FIFO (R207, R212 to
R217, R220 to R228). -/
def Obligations.StagingArrayCommands : Prop :=
  ∀ (c : Fin 8) (s : State), s.live = true →
    (∀ (u : EftUnit) (reads : List (List CwObs)) (soft : List CwObs) (l : Ladder), stgUnit c 1 s = some u →
      ((List.range (entLen u.job.entry / 4096)).all fun t =>
        looksErased s (cwObs (reads.headD []) t)) = false →
      ladRun s u.job.entry reads = l → l.failing = [] →
      exec (.readPage c reads soft false) s = .next (applyAll c (jobDie s u.job.entry) ((jobBlocks s u.job.entry).headD 0)
        (eftAccessFail (4 + c)) (fun s =>
          let s := ((((bufferUpsets 8 4 l.upsets s).2.bump (Reg.CH_CW_OK c) (entLen u.job.entry / 4096 - 0)).bump (Reg.CH_CW_FAIL c) 0).bump
            (Reg.CH_RETRIES c) l.steps).bump (Reg.CH_CORR_BITS c) (l.bits.foldl (· + ·) 0)
          let (data, s) := readData u.job.entry (entLen u.job.entry / 4096) s
          writeOr 4 (entBuf u.job.entry) data (eftAccessFail (4 + c))
            (fun s => stgEnd c 0 0 (entLen u.job.entry) (l.bits.foldl max 0) l.last 0 s) s) l.used.reverse
        (modChan c (fun x => { x with llr := llrOf s 0 }) s))) ∧
    (∀ u : EftUnit, stgUnit c 2 s = some u → exec (.programPage c 0 false) s = .next (
      checkBlocks c (jobDie s u.job.entry) (some (stgPage u.job.entry)) (eftAccessFail (4 + c))
        (fun code s => stgEnd c 0 8 0 0 0 code s) (fun s =>
          readOr 4 (entBuf u.job.entry) (entLen u.job.entry) (eftAccessFail (4 + c)) (fun data s =>
            stgEnd c 0 0 (entLen u.job.entry) 0 0 0 (programPlanes u.job.entry data 0 s)) s)
        (jobBlocks s u.job.entry) false false s)) ∧
    (∀ u : EftUnit, stgUnit c 3 s = some u → s.stg.pwrLoss = false → exec (.eraseBlock c 0 false) s = .next (
      checkBlocks c (jobDie s u.job.entry) none (eftAccessFail (4 + c))
        (fun code s => stgEnd c 0 8 0 0 0 code s) (fun t => stgEnd c 0 0 0 0 0 0
          ((jobBlocks t u.job.entry).foldl (fun v k => nandErase c (jobDie s u.job.entry) k v) t))
        (jobBlocks s u.job.entry) false false s)) ∧
    (∀ (d : Fin 8) (fail : Bool) (t : State), (lun s c d).busy = true → (lun s c d).susp ≠ .entering →
      wakeParked c d (fun k => k.kind = .ready) false (modLun c d (fun l => { l with busy := false }) (arrayEnd c d fail s)) = t →
      (t.eft (4 + c)).unit = none → exec (.lunReady c d fail) s = .next t) ∧
    (∀ d : Fin 8, (lun s c d).busy = true →
      exec (.arrayTimeout c d) s = .next (wakeParked c d (fun k => k.kind = .ready) true s)) ∧
    (∀ (d : Fin 8) (k : Parked), ((s.eft (4 + c)).parked.find? fun k => k.die = d.val && !k.woken && k.kind = .ready
        && k.unit.committed && (eOp k.unit.job.entry = 2 || eOp k.unit.job.entry = 3)) = some k →
      eOp k.unit.job.entry = 2 → s.rb Reg.STG_CTRL 0 = true → s.stg.pwrLoss = false → readReady s c d = true →
      (lun s c d).suspends < s.rf Reg.STG_SUSP_CFG 3 0 →
      exec (.suspendRequest c d true) s = .next (wakeParked c d (fun k => k.kind = .ready) false
        (modLun c d (fun l => { l with sreq := true }) s))) ∧
    (∀ d : Fin 8, (lun s c d).susp = .yes → s.stg.pwrLoss = false → readRunning s c d = false →
      exec (.suspendResumeCondition c d true) s = .next (wakeParked c d (fun k => k.kind = .suspended) false s)) ∧
    (∀ (k : Parked) (l : List Parked), (s.eft (4 + c)).unit = none → (s.eft (4 + c)).parked = k :: l → k.woken = true →
      (s.eft (4 + c)).st = .idle → exec (.parkedJobResume c) s = .next (s.setEft (4 + c) { s.eft (4 + c) with
        st := .running, wait := .none, xfer := none, parked := l, unit := some { k.unit with timedOut := k.wokeTo } })) ∧
    (∀ v : BitVec 32, s.stg.blkCmd = none → exec (.blkCmd v) s = .next { s.setReg Reg.STG_BLK_CMD (v &&& 0x077FFFFF) with
      stg := { s.stg with blkCmd := some (v &&& 0x077FFFFF) } }) ∧
    (∀ (w : Word) (t : State), s.stg.blkCmd = some w → (s.eft (4 + fld w 20 18)).unit = none → fld w 22 21 = 1 →
      { s with stg := { s.stg with blkCmd := none } } = t → exec .blkCmdApply s = .next (recUpdate (fld w 20 18)
        (dieIndex t (fld w 20 18) (fld w 17 15) (fld w 14 13))
        (fun r => patch r 15 [byteAt r 15 ||| BitVec.ofNat 8 (fld w 26 24)]) (fun _ _ => []) (fld w 12 0) t).2) ∧
    (∀ (w : Nat) (l : List Nat), s.stg.advise = w :: l → exec .adviseFifoPop s =
      .next { s with stg := { s.stg with advise := l }, resp := ⟨BitVec.ofNat 64 w, false⟩ })

/-- Data transforms inside the function's windows and with no stored word in error: a compression that passes its
verify, a decompression, an encoding, an erasure decoding, the cipher lanes' units and a copy (R241 to R254). -/
def Obligations.TransformCommands : Prop :=
  ∀ s : State, s.live = true → s.mu.errs = [] →
    (∀ (l : Fin 8) (x : Lane) (j : Job), laneJob s 0 l 1 = some (x, j) →
      let u := s.bump Reg.XFM_CMP_JOBS
      let mode := if s.xfm.fbJobs.contains (x.sq, x.first) then 2 else xMode j.entry
      u.engineMay 5 (xSrc j.entry) (xSrcLen j.entry) = true →
      exec (.compress l [false]) s = .next (compressRuns x j.entry (u.bytes (xSrc j.entry) (xSrcLen j.entry))
        (xDepth j.entry) (s.xfm.fbJobs.contains (x.sq, x.first)) 3 mode false [false] u)) ∧
    (∀ (l : Fin 8) (x : Lane) (j : Job) (out : List Byte), laneJob s 1 l 1 = some (x, j) →
      s.engineMay 5 (xSrc j.entry) (xSrcLen j.entry) = true →
      inflate (s.bytes (xSrc j.entry) (xSrcLen j.entry)) (xCap j.entry) = (out, 0) →
      s.engineMay 5 (xDst j.entry) out.length = true →
      exec (.decompress l) s = .next (xfmEnd x ⟨0, out.length, 0, 0, 0⟩ (s.setBytes (xDst j.entry) out))) ∧
    (∀ (x : Lane) (j : Job), laneJob s 2 0 1 = some (x, j) →
      (∀ a ∈ segSrcs j.entries, s.engineMay 5 a (xFrag j.entry) = true) →
      let d := (segSrcs j.entries).map fun a => natsOf (s.bytes a (xFrag j.entry))
      exec .encode s = .next (writeAll (xfmBad x) (xfmEnd x ⟨0, xFrag j.entry, 0, 0, 0⟩)
        ((segDsts j.entries).zip ((List.range (xM j.entry)).map fun i =>
          Machine.bytesOf (ecCombine (ecRow (xK j.entry) (xK j.entry + i)) d (xFrag j.entry)))) s)) ∧
    (∀ (x : Lane) (j : Job), laneJob s 3 0 1 = some (x, j) →
      (∀ a ∈ segSrcs j.entries, s.engineMay 5 a (xFrag j.entry) = true) →
      let d := (bitsOf64 (xPresent j.entry)).zip ((segSrcs j.entries).map fun a => natsOf (s.bytes a (xFrag j.entry)))
      ecAgree (xK j.entry) (xFrag j.entry) d = true →
      exec .erasureDecode s = .next (writeAll (xfmBad x) (xfmEnd x ⟨0, xFrag j.entry, 0, 0, 0⟩)
        ((segDsts j.entries).zip ((bitsOf64 (xWant j.entry)).map fun i =>
          Machine.bytesOf (ecFragment (xK j.entry) (xFrag j.entry) (d.take (xK j.entry)) i))) s)) ∧
    (∀ (l : Fin 4) (n : Fin 4097) (x : Lane) (j : Job), laneJob s 4 l 1 = some (x, j) →
      exec (.encrypt l n) s = .next (cipherUnits x j.entry true n (unitsDone s x) s)) ∧
    (∀ (l : Fin 4) (x : Lane) (j : Job) (key : List Byte), laneJob s 4 l 2 = some (x, j) → unitsDone s x = 0 →
      field j.entry 40 4 = 1 → s.xfm.keys.lookup (xBand j.entry) = some key → s.engineMay 5 (xSrc j.entry) 4160 = true →
      s.engineMay 5 (xDst4 j.entry) (xts false key (xTweak j.entry) (s.bytes (xSrc j.entry) 4160)).length = true →
      exec (.decrypt l 1) s = .next (xfmEnd x ⟨0, 1, 0, 0, 0⟩
        ((s.setBytes (xDst4 j.entry) (xts false key (xTweak j.entry) (s.bytes (xSrc j.entry) 4160))).bump
          Reg.XFM_CIPH_UNITS))) ∧
    (∀ (x : Lane) (j : Job), laneJob s 5 0 1 = some (x, j) → xSrcLen j.entry ≤ xCap j.entry →
      s.engineMay 5 (xSrc j.entry) (xSrcLen j.entry) = true → s.engineMay 5 (xDst j.entry) (xSrcLen j.entry) = true →
      exec .copy s = .next (xfmEnd x ⟨0, xSrcLen j.entry, 0, 0, 0⟩
        (s.setBytes (xDst j.entry) (s.bytes (xSrc j.entry) (xSrcLen j.entry)))))

/-- Zone commands of a zone the keeper knows, whose entry reads clean: OPEN of a closed zone, CLOSE, FINISH, RESET,
SYNC, SET_RO, OFFLINE and REMAP, with the entry that each writes (R264, R266, R270 to R275). -/
def Obligations.ZoneStateCommands : Prop :=
  ∀ (z : Fin 524288) (op : Nat) (s t : State) (e : ZEnt), s.live = true → s.mu.errs = [] →
    s.setReg Reg.ZONE_CMD (BitVec.ofNat 32 (z + op * 2 ^ 20)) = t → z < zoneCount t →
    t.engineMay 8 (zoneAddr t z) 24 = true → zDecode (t.bytes (zoneAddr t z) 24) = e →
    zoneGone t z = false → zoneBusy t z = false →
    (op = 1 → e.kind = 1 → e.state = 2 → ((ctxs t e.act).all Option.isSome) = false → e.wp % 264 = 0 →
      exec (.zoneOpen z) s = .next (zoneDone z { e with st := 1 } false (fun s =>
        (bindCtx e.act z e.wp s).getD s) t)) ∧
    (op = 2 → e.kind = 1 → e.state = 1 → e.wp % 264 ≠ 0 → e.ucount < 4 →
      exec (.zoneClose z) s = .next (zoneDone z { e with
        wp := (e.wp / 264 + 1) * 264, ugroup := e.ugroup.take e.ucount ++ [e.wp / 264], ucount := e.ucount + 1, st := 2 }
        false (fun s => zoneEvent 3 (releaseCtx e.act z s)) t)) ∧
    (op = 3 → e.kind = 1 → e.state = 2 →
      exec (.zoneFinish z) s = .next (zoneDone z { e with wp := shSlots, st := 3 } false (releaseCtx e.act z) t)) ∧
    (op = 4 → e.kind = 1 → e.state = 3 →
      exec (.zoneReset ⟨z, []⟩) s = .next (zoneDone z { e with
        wp := 0, st := 0, hold := false, ucount := 0, ugroup := [], resets := satAdd 16 e.resets 1 } true id t)) ∧
    (op = 5 → e.kind = 1 → e.state = 1 → e.hold = true →
      exec (.zoneSync z) s = .next (zoneDone z { e with hold := false } false
        (modCtx e.act z fun c => { c with rwp := e.wp }) t)) ∧
    (op = 6 → e.kind = 1 → e.state = 3 →
      exec (.setRo z) s = .next (zoneDone z { e with st := 4 } false (releaseCtx e.act z) t)) ∧
    (op = 7 → e.kind = 1 → e.state = 3 →
      exec (.zoneOffline z) s = .next (zoneDone z { e with st := 5 } false (releaseCtx e.act z) t)) ∧
    (op = 4 → e.kind = 1 → e.state = 1 → exec (.zoneReset ⟨z, []⟩) s = .next (zoneResult z 1 t))

/-- The zone keeper's other commands: a remap of the next defect entry, an undefined command, the start and end of the
scan, the reset of a zone whose live blocks have been copied, and an offer (R265, R266, R275, R279, R280). -/
def Obligations.ZoneKeeperCommands : Prop :=
  ∀ s : State, s.live = true →
    (∀ (z : Fin 524288) (t : State) (e : ZEnt) (d : Defects) (b : List Byte), s.mu.errs = [] →
      s.setReg Reg.ZONE_CMD (BitVec.ofNat 32 (z + 8 * 2 ^ 20)) = t → z < zoneCount t →
      t.engineMay 8 (zoneAddr t z) 24 = true → zDecode (t.bytes (zoneAddr t z) 24) = e → zoneGone t z = false →
      e.defIdx + e.defCount < t.rf Reg.ZONE_DEF_SIZE 23 0 → (∀ bad k, withDefects e bad k t = k d t) →
      t.engineMay 8 (defAddr t (e.defIdx + e.defCount)) 8 = true → t.bytes (defAddr t (e.defIdx + e.defCount)) 8 = b →
      nfld (field b 0 4) 25 24 = 2 → isSpare e d (field b 4 3) = true → e.kind = 2 → e.state = 1 →
      zoneBusy t z = false →
      (((List.range (e.tracks * e.spt)).filter fun p => isSpare e d p).all fun p => d.remaps.any fun r => r.2 = p) = false →
      exec (.remap z) s = .next (zoneDone z { e with defCount := e.defCount + 1 } true id t)) ∧
    (∀ (z : Fin 524288) (k : Fin 8), exec (.zoneCmdUndefined z k) s = .next (zoneResult z 6
      (s.setReg Reg.ZONE_CMD (BitVec.ofNat 32 (z + (if k.val = 0 then 0 else 8 + k.val) * 2 ^ 20))))) ∧
    (s.rb Reg.ZONE_CTRL 0 = false → exec .zoneEnable s = .next (
      let t := restoreZones (s.setRb Reg.ZONE_CTRL 0 true)
      { t with zone := { t.zone with scan := true, absent := [], locked := [] } })) ∧
    (s.rb Reg.ZONE_CTRL 0 = false → s.svc.zdue = false → exec .zoneEnable s = .next (
      { s.setRb Reg.ZONE_CTRL 0 true with zone := { s.zone with scan := true, absent := [], locked := [] } })) ∧
    (∀ t : State, s.zone.scan = true → (List.range (zoneCount s)).foldl (fun s z => scanZone z s) s = t →
      exec .zoneScanDone s = .next { t with zone := { t.zone with
        scan := false, ctxA := List.replicate 16 none, ctxB := List.replicate 16 none } }) ∧
    (∀ (z : Fin 524288) (l : List (BitVec 36 × BitVec 36)), l ≠ [] →
      let m := l.map fun c => (c.1.toNat, c.2.toNat)
      reclaimable s z = true → copiesHold s z m = true →
      exec (.zoneReset ⟨z, l⟩) s = .next (recordZones (zoneReset z (reclaim z m s)))) ∧
    (∀ (v : BitVec 32) (t u : State), s.setReg Reg.ZONE_OFFER_REQ (v &&& 0x1FFFF) = t →
      offerPick (if fld v 16 0 = 0 then 65536 else fld v 16 0) (offerHeads t) t = (none, u) →
      exec (.zoneOffer v) s = .next ((u.setReg Reg.ZONE_OFFER 0x40000000).setReg Reg.ZONE_OFFER_SCORE 0)) ∧
    (∀ (v : BitVec 32) (t u : State) (sc x h z : Nat) (o : Bool), s.setReg Reg.ZONE_OFFER_REQ (v &&& 0x1FFFF) = t →
      offerPick (if fld v 16 0 = 0 then 65536 else fld v 16 0) (offerHeads t) t = (some (sc, x, h, z, o), u) →
      exec (.zoneOffer v) s = .next ((u.setReg Reg.ZONE_OFFER
        (BitVec.ofNat 32 (z + h * 2 ^ 24 + x * 2 ^ 28 + b2n o * 2 ^ 29 + 2 ^ 30 + 2 ^ 31))).setReg Reg.ZONE_OFFER_SCORE
        (BitVec.ofNat 32 (min sc 65535))))

/-- The write block: a preamp transaction whose first response is good, a read whose three responses are bad, and what
the link refuses; the preamp's fault input, and where polls replace it; a host transaction accepted and refused; a
heater sweep started and refused; a sector position that raises the gate, with the sector's bits on WD; the written
sector's end; and the release of a shingled write (R270, R285 to R302, R309). -/
def Obligations.WriteBlockCommands : Prop :=
  ∀ s : State, s.live = true →
    (∀ (x : Fin 2) (a : Fin 9) (r1 r2 r3 : BitVec 32), (med s x).wr.linkUp = true →
      (palGood a r1 = true → exec (.palTransaction x false a r1 r2 r3) s = .next (palApply x a (fld r1 23 8)
        ((palOut x 1 false a 0 s).bump (Reg.MED_PAL_ERRORS x) 0))) ∧
      (palGood a r1 = false → palGood a r2 = false → palGood a r3 = false →
        exec (.palTransaction x false a r1 r2 r3) s =
          .next (linkError x ((palOut x 3 false a 0 s).bump (Reg.MED_PAL_ERRORS x) 3)))) ∧
    (∀ (x : Fin 2) (a : Fin 9) (r1 r2 r3 : BitVec 32), (med s x).wr.linkUp = true → 1 ≤ a.val → a.val ≤ 5 →
      ((∀ p ∈ (med s x).wr.sent, p.1 ≠ a.val) → palGood a r1 = true →
        exec (.palTransaction x true a r1 r2 r3) s = .next (palApply x a (fld r1 23 8)
          ((palOut x 1 true a (palHeld (med s x).wr a) s).bump (Reg.MED_PAL_ERRORS x) 0))) ∧
      (∀ (d : Nat) (l : List (Nat × Nat)), (med s x).wr.sent = (a.val, d) :: l →
        let t := modWr x (fun w => { w with sent := l }) s
        (palGood a r1 = true → exec (.palTransaction x true a r1 r2 r3) s =
          .next (palApply x a (fld r1 23 8) (t.bump (Reg.MED_PAL_ERRORS x) 0))) ∧
        (palGood a r1 = false → palGood a r2 = false → palGood a r3 = false →
          exec (.palTransaction x true a r1 r2 r3) s =
            .next (linkError x ((palOut x 2 true a d t).bump (Reg.MED_PAL_ERRORS x) 3))))) ∧
    (∀ (x : Fin 2) (wr : Bool) (a : Fin 9) (r1 r2 r3 : BitVec 32), (med s x).wr.linkUp = false → (wr = true ∨ a.val ≠ 0) →
      exec (.palTransaction x wr a r1 r2 r3) s = .next s) ∧
    (∀ (x : Fin 2) (o : PalObs), (med s x).wr.fltSubst = false → (med s x).wr.linkUp = true → o.fails.val < 3 →
      exec (.preampFaultInput x o) s = .next (preampFault x (o.data.toNat &&& palMask 8)
        ((palOut x (o.fails + 1) false 8 0 s).bump (Reg.MED_PAL_ERRORS x) o.fails))) ∧
    (∀ (x : Fin 2) (o : PalObs), (med s x).wr.fltSubst = true → exec (.preampFaultInput x o) s = .next s) ∧
    (∀ (x : Fin 2) (v r1 r2 r3 : BitVec 32), noOwner s x = true → s.lcState = 1 → palGood (fld v 30 24) r1 = true →
      exec (.palCmd x v r1 r2 r3) s = .next (palApply x (fld v 30 24) (fld r1 23 8)
        ((palOut x 1 (bit v 31) (fld v 30 24) (fld v 23 8)
          ((s.setReg (Reg.MED_PAL_CMD x) (v &&& 0xFFFFFF00)).setReg (Reg.MED_PAL_RESP x)
            ((r1 &&& 0xFFFFFF00) ||| BitVec.ofNat 32 (1 + b2n (fld r1 7 0 ≠ palCrc r1) * 2)))).bump
          (Reg.MED_PAL_ERRORS x) 0))) ∧
    (∀ (x : Fin 2) (v r1 r2 r3 : BitVec 32), noOwner s x = false →
      exec (.palCmd x v r1 r2 r3) s = .next (wrEvent x 7 s)) ∧
    (∀ (x : Fin 2) (v : BitVec 32), tokenFree s x = true → exec (.tdSweep x v) s = .next (startSweep x v s)) ∧
    (∀ (x : Fin 2) (v : BitVec 32), tokenFree s x = false → exec (.tdSweep x v) s = .next (wrEvent x 7 s)) ∧
    (∀ (x : Fin 2) (o : PassObs) (t : Sect) (d : List Byte), (med s x).wr.armed = some t → (med s x).wr.writing = false →
      armedData s x t = some d → idKind s x = wrKind s x → ((med s x).wr.begun = true ∨ preheated s x = true) →
      releasedFor s (med s x).wr.armedBy = true → (med s x).wr.linkUp = true → s.fenced 6 = false →
      onTrack s x t.track true = true → (sv s x).wus = false →
      exec (.writeSectorPass x true o) s = .next (gateUp x t d o.idle s) ∧
      (med (gateUp x t d o.idle s) x).wr.gate = true ∧ (med (gateUp x t d o.idle s) x).wr.lastData = d ∧
      (let w := (med (startAssist x o.idle s) x).wr
       (med (gateUp x t d o.idle s) x).wr.wd = writeData w.entry.precomp d)) ∧
    (∀ (x : Fin 2) (t : Sect), (med s x).wr.armed = some t → (med s x).wr.writing = true →
      exec (.sectorWriteEnd x) s = .next (sectorEnd x ((med s x).wr.boundary.getD 0)
        (diskPut x (med s x).wr.head t (if (med s x).wr.boundary.isSome && !t.shingled then []
          else encodeSector (med s x).wr.lastData) s))) ∧
    (∀ z : Fin 524288, (s.zone.writes.any fun w => w.zone = z.val && !w.released) = true →
      exec (.writeRelease z) s = .next (withZone z keeperBad (fun e s =>
        let t := if e.hold then s else releaseWrites z e.wp s
        (List.range 4).foldl (fun s k => if releasedFor s k then wakeEft k 30 s else s) t) s))

/-- The read channel and sector recovery: the pass of an armed sector, on track and with a free codeword slot, by what its
acquisition decides: no lock, no sync mark, or the start of its decoding, with the slip counted; the pass with no sector armed;
a sector's decoding that ends decoded, with the FIFO full, or failed; a sector gap,
and one during a write or in a fenced MEDx, which changes nothing; offline work that ends, and a REDETECT job without a range
list, its block stored at DST where it decoded; outer-code solving with and without a solution; and one
unit of the macro-operations READ and VERIFY, by its ladder or from a group that an earlier unit has read, of CAPTURE, each of
them where the actuator is not available, and of a WRITE whose sector ends written (R303, R314, R317, R321, R326, R331, R340, R343, R347 to R354). -/
def Obligations.ReadChannelCommands : Prop :=
  ∀ s : State, s.live = true →
    (∀ (x : Fin 2) (o : SectorObs) (a : ReadArm), (med s x).rc.armed = some a →
      onTrack s x a.sect.track false = true → (med s x).rc.decoding.length < 3 →
      let q := acquire s x a o
      ∃ (t : State) (p : ReadPass), p.arm = a ∧ (med t x).rc.armed = none ∧
        match lockBit (s.rf (Reg.MED_RC_TIMING x) 23 16) (lockTaus q o.unit) with
        | none => exec (.readSectorPass x o) s = .next (finishRead x p 2 0 0 t) ∧ (med t x).rc.locked = false ∧
          (med t x).rc.synced = false ∧ (med t x).rc.decoding = (med s x).rc.decoding
        | some _ => (med t x).rc.locked = true ∧ p.sync = syncWord (acceptSync a.win a.thr (syncBits q)) (syncBits q) ∧
          match acceptSync a.win a.thr (syncBits q) with
          | none => exec (.readSectorPass x o) s = .next (finishRead x p 3 0 0 t) ∧ (med t x).rc.synced = false ∧
            (med t x).rc.decoding = (med s x).rc.decoding
          | some w => exec (.readSectorPass x o) s = .next (
              if slipSeen (s.rf (Reg.MED_RC_TIMING2 x) 23 16) (176 + w.1).toNat (passTaus q o.unit)
              then rcEvent x 3 (t.bump (Reg.MED_RC_SLIPS x)) else t) ∧ (med t x).rc.synced = true ∧
            (med t x).rc.decoding = (med s x).rc.decoding ++ [p] ∧ p.x1 = q.x1 ∧ p.x2 = q.x2 ∧
            (med t x).sr.sync = p.sync ∧ t.mem = s.mem) ∧
    (∀ (x : Fin 2) (o : SectorObs), (med s x).rc.armed = none → exec (.readSectorPass x o) s = .next s) ∧
    (∀ (x : Fin 2) (o : OutcomeObs) (p : ReadPass) (l : List ReadPass), (med s x).rc.decoding = p :: l →
      let u := bufferUpsets (4 + x) (2 + x) o.ldpc (modRc x (fun r => { r with decoding := l }) s)
      let d := passDecode p o.tie
      exec (.sectorReadOutcome x o) s = .next (
        if (d.ok && !u.1 && !p.arm.distrust) = true then
          if o.fifoFull = true then finishRead x p 4 d.globals d.sw u.2
          else finishRead x p 0 d.globals d.sw (rebuildTake x p.arm.sect (dataBytes d.bits)
            (modRc x (fun r => { r with out := dataBytes d.bits }) (gatherStats x p d.bits u.2)))
        else finishRead x p 1 d.globals d.sw u.2)) ∧
    (∀ x : Fin 2, (med s x).wr.writing = false → s.fenced (2 + x) = false →
      exec (.sectorGap x) s = .next (sectorGap x s)) ∧
    (∀ x : Fin 2, (med s x).wr.writing = true ∨ s.fenced (2 + x) = true → exec (.sectorGap x) s = .next s) ∧
    (∀ (x : Fin 2) (o : OutcomeObs) (w : Offline) (l : List Offline), (med s x).sr.offline = w :: l →
      let v := slotOf (med s x).sr w.slot
      (w.job = none → exec (.offlineDone x o) s = .next (wakeEft w.eft 26 (
        let u := runOffline x w v.ranges o s
        let t := popOffline x (modSr x (fun r => { r with
          odone := true, ostat := some (ostatWord (if u.1.1 then 0 else 1) u.1.2.globals u.1.2.sw v.ranges) }) u.2)
        if u.1.1 = true then modRc x (fun r => { r with out := dataBytes u.1.2.bits }) (t.bump (Reg.MED_SR_OFFLINE_OK x))
        else t))) ∧
      (∀ (q first : Nat) (j : Job), w.job = some (q, first) → findJob s q first = some j → field j.entry 16 5 = 0 →
        let u := runOffline x w (if nbit (field j.entry 16 8) 63 then v.ranges else []) o s
        exec (.redetect x o) s = .next (
          if u.1.1 = true then
            writeOr (2 + x) (field j.entry 24 5) (dataBytes u.1.2.bits) (fun r s => failAccess q first r s)
              (fun s => finishJob q first ⟨0, u.1.2.sw, u.1.2.globals, 1, 0⟩ (s.bump (Reg.MED_SR_OFFLINE_OK x)))
              (popOffline x u.2)
          else finishJob q first ⟨0, u.1.2.sw, u.1.2.globals, 0, 0⟩ (popOffline x u.2)))) ∧
    (∀ (x : Fin 2) (b : Rebuild) (k : Nat), (med s x).sr.rebuild = some b → b.solving = some k →
      let ended (ok : Bool) : State := modSr x (fun r =>
        { r with ocdone := true, rebuild := some { b with solving := none, ok := ok } }) s
      (∀ d : List Byte, rebuildSlot b.have_ k = some d → exec (.ocsolveDone x) s =
        .next (wakeEft (2 * x + 1) 27 (wakeEft (2 * x) 27 (srEvent x 3
          ((modRc x (fun r => { r with out := d }) (ended true)).bump (Reg.MED_SR_OC_OK x)))))) ∧
      (rebuildSlot b.have_ k = none → exec (.ocsolveDone x) s =
        .next (wakeEft (2 * x + 1) 27 (wakeEft (2 * x) 27 (ended false))))) ∧
    (∀ (e : Fin 4) (op : Nat) (o : ReadUnitObs) (u : EftUnit) (t : State),
      medUnit e op s = some u → routineToken e s = some t → servoDown t (e / 2) = true →
      (op = 1 → exec (.mediaRead e [o]) s = .next (engineEnd e 0x8301 t)) ∧
      (op = 3 → exec (.verify e [o]) s = .next (engineEnd e 0x8301 t)) ∧
      (op = 4 → exec (.capture e [o]) s = .next (engineEnd e 0x8301 t))) ∧
    (∀ (e : Fin 4) (op : Nat) (o : ReadUnitObs) (u : EftUnit) (t r : State) (w : ZEnt),
      medUnit e op s = some u → routineToken e s = some t → servoDown t (e / 2) = false →
      (if (med t (e / 2)).rc.head = medHead u.job.entry && (med t (e / 2)).rc.run then t
        else rhead (e / 2) (medHead u.job.entry % 16) t) = r →
      (∀ bad k, withZone (medZone u.job.entry) bad k r = k w r) →
      let slot := readSlot u w
      (l4Pending r e (medZone u.job.entry) slot = false →
        let ends (move : Bool) : State := match ladSector e slot (medBudgetMs u.job.entry * 1000) o u.res1 r with
          | (_, .gone, z) => z
          | (l, .failed k, z) => sectorFails e slot k l z
          | (l, .delivered, z) => deliver e move l.used (ladUnpin (e / 2) l z)
        (op = 1 → exec (.mediaRead e [o]) s = .next (ends true)) ∧
        (op = 3 → exec (.verify e [o]) s = .next (ends false))) ∧
      (l4Pending r e (medZone u.job.entry) slot = true →
        let used := u.res1 + (o.attempts.map AttemptObs.us).foldl (· + ·) 0
        let ends (move : Bool) : State := match solveNow e slot r with
          | (true, z) => deliver e move used z
          | (false, z) => sectorFails e slot 1 ⟨used, 4, none, [], lastOutcome z (e / 2)⟩ z
        (op = 1 → exec (.mediaRead e [o]) s = .next (ends true)) ∧
        (op = 3 → exec (.verify e [o]) s = .next (ends false))) ∧
      (op = 4 → exec (.capture e [o]) s = .next (
        let z := attemptRead e slot o.settle (o.attempts.headD (quietAttempt 0)) r
        if unitLives z e = true then unitEnds e 1 0 z else z))) ∧
    (∀ (e : Fin 4) (used : Nat) (u : EftUnit), (s.eft e).unit = some u →
      deliver e false used s = unitEnds e 1 used s ∧
      (unitFits u.job.entry u.job.unit = true → s.mu.errs = [] →
        s.engineMay (eftFunc e) (entBuf u.job.entry + u.job.unit * 4160) (med s (e / 2)).rc.out.length = true →
        deliver e true used s = unitEnds e 1 used
          (s.setBytes (entBuf u.job.entry + u.job.unit * 4160) (med s (e / 2)).rc.out))) ∧
    (∀ (e : Fin 4) (o : WriteUnitObs) (u v : EftUnit) (t r z : State) (p : Sect), medUnit e 2 s = some u →
      releasedFor s e = true → routineToken e s = some t → servoDown t (e / 2) = false →
      (if (med t (e / 2)).wr.head = medHead u.job.entry % 16 && (med t (e / 2)).wr.run then t
        else whead (e / 2) (medHead u.job.entry % 16) t) = r →
      (∀ bad k, withSect (medZone u.job.entry) (medPba u.job.entry % 2 ^ 17 + u.job.unit) bad k r = k p r) →
      p.shingled = false → onTrack (wsectLoad (e / 2) p r) (e / 2) p.track true = true →
      unitFits u.job.entry u.res0 = true → (wsectLoad (e / 2) p r).mu.errs = [] →
      (wsectLoad (e / 2) p r).engineMay (eftFunc e) (entBuf u.job.entry + u.res0 * 4160) 4160 = true →
      writeArm e o (modWr (e / 2) (fun w => { w with
        fifo := (wsectLoad (e / 2) p r).bytes (entBuf u.job.entry + u.res0 * 4160) 4160 }) (wsectLoad (e / 2) p r)) = z →
      (z.eft e).unit = some v → (med z (e / 2)).wr.armed = none → (med z (e / 2)).wr.wstat = 0 →
      exec (.mediaWrite e [o]) s = .next (unitEnds e 1 0 z))

/-- The servo engines: a ramp timeout in LOADING and UNLOADING, and elsewhere; FAULT_CLR once the retract is complete,
before it is, and outside FAULT; a retarget by command, taken, refused by the engine's state, by tandem, and while an eft
owns the datapath; the trace armed, triggered and stopped; SEEK, LOAD and UNLOAD, each with its success and its
failures: the actuator not available, no settling in time, a fault, a ramp command refused (R364, R376, R384 to R389). -/
def Obligations.ServoCommands : Prop :=
  ∀ s : State, s.live = true →
    (∀ x : Fin 2, ((sv s x).st = .loading ∨ (sv s x).st = .unloading →
        exec (.rampTimeout x) s = .next (servoFault x 4 s)) ∧
      ((sv s x).st ≠ .loading → (sv s x).st ≠ .unloading → exec (.rampTimeout x) s = .next s)) ∧
    (∀ x : Fin 2,
      ((sv s x).st = .fault → (actu s x).retDone = true → exec (.faultClr x) s =
        .next (svEnter x .off (modSv x (fun v => { v with cause := 0, fe := 0, miss := 0 }) s))) ∧
      ((sv s x).st = .fault → (actu s x).retDone = false → exec (.faultClr x) s = .next (svEvent x 5 s)) ∧
      ((sv s x).st ≠ .fault → exec (.faultClr x) s = .next s)) ∧
    (∀ (x : Fin 2) (v : BitVec 32), (s.eft (2 * x)).owns = false → (s.eft (2 * x + 1)).owns = false →
      let t := s.setReg (Reg.MED_SV_CMD x) (v &&& 0x60FFFFFF)
      (following t x = false → refusesTarget (sv s x) = false → exec (.svCmdRetarget x v) s = .next
        (modSv x (fun w => { w with latest := ⟨fld v 23 0, bit v 30, bit v 29⟩, fresh := true, settled := false })
          (t.bump (Reg.MED_SV_RETARGETS x)))) ∧
      (following t x = false → refusesTarget (sv s x) = true →
        exec (.svCmdRetarget x v) s = .next (svEvent x 5 (t.bump (Reg.MED_SV_REFUSED x)))) ∧
      (following t x = true → exec (.svCmdRetarget x v) s = .next (svEvent x 5 (t.bump (Reg.MED_SV_REFUSED x))))) ∧
    (∀ (x : Fin 2) (v : BitVec 32), (s.eft (2 * x)).owns = true ∨ (s.eft (2 * x + 1)).owns = true →
      exec (.svCmdRetarget x v) s = .next (svEvent x 5 s)) ∧
    (∀ x : Fin 2,
      exec (.traceArm x) s = .next (modSv x (fun v => { v with trace := .armed, wrapped := false, wptr := 0 }) s) ∧
      ((sv s x).trace = .armed → exec (.traceTrigNow x) s = .next (modSv x (fun v => { v with
        trace := .triggered, trigIdx := v.wptr, post := s.rf (Reg.MED_SV_TRACE_POST x) 12 0 }) s)) ∧
      ((sv s x).trace ≠ .armed → exec (.traceTrigNow x) s = .next s) ∧
      exec (.traceStop x) s = .next (modSv x (fun v => { v with trace := .idle }) s)) ∧
    (∀ (e : Fin 4) (u : EftUnit) (t : State), medUnit e 5 s = some u → routineToken e s = some t →
      (servoDown t (e / 2) = true → ∀ o, exec (.seek e o) s = .next (engineEnd e 0x8301 t)) ∧
      (∀ p : Sect, servoDown t (e / 2) = false →
        (∀ bad k, withSect (medZone u.job.entry) (medPba u.job.entry % 2 ^ 17) bad k t = k p t) →
        let r := retarget (e / 2) ⟨p.track, false, false⟩ t
        (∀ pes, following t (e / 2) = false → exec (.seek e (.settled pes)) s =
          .next (eftJobDone e 1 0 ⟨0, 0, 0, 0, 0⟩ (landAt (e / 2) ⟨p.track, false, false⟩ pes r))) ∧
        (∀ pes, following t (e / 2) = true → exec (.seek e (.settled pes)) s =
          .next (eftJobDone e 1 0 ⟨0, 0, 0, 0, 0⟩ r)) ∧
        exec (.seek e .timeout) s = .next (engineEnd e 0x8302 r) ∧
        (following t (e / 2) = false →
          exec (.seek e .fault) s = .next (engineEnd e 0x8301 (servoFault (e / 2) 1 r))))) ∧
    (∀ (e : Fin 4) (u : EftUnit) (t : State) (p : Sect), medUnit e 6 s = some u → routineToken e s = some t →
      (∀ bad k, withSect (medZone u.job.entry) (medPba u.job.entry % 2 ^ 17) bad k t = k p t) →
      let r := rampOff (e / 2) ⟨p.track, false, false⟩ t
      ((sv t (e / 2)).st = .off → spinOk t = true → forcePark t = false →
        (∀ pes, exec (.load e (.settled pes)) s = .next (eftJobDone e 1 0 ⟨0, 0, 0, 0, 0⟩
          (landAt (e / 2) ⟨p.track, false, false⟩ pes (svEnter (e / 2) .seeking r)))) ∧
        exec (.load e .timeout) s = .next (engineEnd e 0x8302 (svEnter (e / 2) .seeking r)) ∧
        exec (.load e .fault) s = .next (engineEnd e 0x8304 (servoFault (e / 2) 4 r))) ∧
      ((sv t (e / 2)).st ≠ .off ∨ spinOk t = false ∨ forcePark t = true →
        ∀ o, exec (.load e o) s = .next (engineEnd e 0x8303 (t.bump (Reg.MED_SV_REFUSED (e / 2)))))) ∧
    (∀ (e : Fin 4) (u : EftUnit) (t : State), medUnit e 7 s = some u → routineToken e s = some t →
      ((sv t (e / 2)).st = .tracking →
        exec (.unload e true) s = .next (eftJobDone e 1 0 ⟨0, 0, 0, 0, 0⟩ (rampLatched (e / 2) (rampOn (e / 2) t))) ∧
        exec (.unload e false) s = .next (engineEnd e 0x8301 (servoFault (e / 2) 4 (rampOn (e / 2) t)))) ∧
      ((sv t (e / 2)).st ≠ .tracking →
        ∀ l, exec (.unload e l) s = .next (engineEnd e 0x8303 (t.bump (Reg.MED_SV_REFUSED (e / 2))))))

/-- The actuators' drive: the retract's phases, the ramp latch, FORCE_PARK_N, the servo lane and its timeout, the
chopper and the VM overvoltage (R405 to R410, R386). -/
def Obligations.ActuatorDriveCommands : Prop :=
  ∀ s : State,
    (∀ x : Fin 2, (actu s x).retract = .drive →
      exec (.retractPhaseEnd x) s = .next (modAct x (fun a => { a with retract := .latch }) s)) ∧
    (∀ x : Fin 2, (actu s x).retract = .latch → exec (.retractDone x) s =
      .next (motEvent (9 + x) (modAct x (fun a => { a with retract := .none, retDone := true }) s))) ∧
    (∀ x : Fin 2,
      let t := modAct x (fun a => { a with latched := true }) s
      ((sv s x).st = .unloading → exec (.rampLatched x) s = .next (svEnter x .off (modSv x svZero t))) ∧
      ((sv s x).st ≠ .unloading → exec (.rampLatched x) s = .next t)) ∧
    (s.pwr.sif4.out = true → exec .forceParkAssert s = .next (
      parkAll { s with pwr := { s.pwr with sif4 := { s.pwr.sif4 with out := false, raw := false } } })) ∧
    (∀ x : Fin 2, (actu s x).retract = .none → engineUp s x = true → s.fenced 6 = false →
      exec (.servoLaneFrame x true) s =
      .next (modAct x (fun a => { a with lastBad := false, armed := true, vcm := (sv s x).vcm, ma := (sv s x).ma }) s)) ∧
    (∀ x : Fin 2, (actu s x).retract = .none → engineUp s x = false ∨ s.fenced 6 = true →
      exec (.servoLaneFrame x true) s =
      .next (modAct x (fun a => { a with lastBad := false, armed := false, vcm := 0, ma := 0 }) s)) ∧
    (∀ x : Fin 2, (actu s x).armed = true → (actu s x).retract = .none →
      exec (.laneTimeout x) s = .next (laneFault x s)) ∧
    (∀ up : Bool, s.mot.st ≠ .holdup → s.mot.chopFault = false →
      exec (.brakeChopper up) s = .next { s with mot := { s.mot with chopOn := up } }) ∧
    ((s.mot.chopOn = true ∨ s.mot.st = .holdup) → exec .vmOvervoltage s = .next (motEvent 7 (motEvent 6
      { s with mot := { s.mot with lowSides := true, chopOn := false, chopFault := true, regenRefused := true } })))

/-- The spindle: a new set point, the reference's and the loop's steps, detection, a stop, the timeouts of a start and
of RELOCK, the alignment's end, a Hall edge and a PWM period (R394 to R404). -/
def Obligations.SpindleCommands : Prop :=
  ∀ s : State,
    (∀ v : BitVec 32, s.live = true → (fld v 12 0 = 0 ∨ 600 ≤ fld v 12 0) → fld v 12 0 ≤ 7200 →
      (fld v 12 0 ≠ 0 → s.mot.st ≠ .fault) → (fld v 12 0 < 5400 → engineUp s 0 = false ∧ engineUp s 1 = false) →
      exec (.speedCommand v) s = .next (newTarget (fld v 12 0) s)) ∧
    (∀ rev : Bool, spinDriven s.mot = true → s.mot.aligning = false →
      exec (.speedRefTick rev) s = .next (spinCheck rev (spinDown (refTick s)))) ∧
    (∀ (act emf : BitVec 32) (iq : BitVec 16) (b : Bool), s.mot.st = .sine → 8640 ≤ act.toInt →
      motKe s * act.toInt.natAbs ≤ emf.toNat * 32 → exec (.speedLoopTick act iq emf b) s = .next (
        let e := (s.mot.speedRef : Int) - act.toInt
        let integ := s.mot.integ + (s.rf Reg.MOT_SPD_LOOP 31 16 : Int) * e
        let lim : Int := s.rf Reg.MOT_ILIM 15 0
        let full := motKe s * act.toInt.natAbs
        { s with mot := { s.mot with
          emfRun := if b && ((emf.toNat * 16 : Int) - full).natAbs * 4 ≤ full then min 500 (s.mot.emfRun + 1) else 0
          iq := iq.toInt, act := act.toInt, starting := s.mot.starting && decide (act.toInt < rpm600), integ := integ
          iqRef := clampI (-lim) lim (Int.tdiv ((s.rf Reg.MOT_SPD_LOOP 15 0 : Int) * e * 10000 + integ) 40960000) } })) ∧
    (∀ o : DetectObs, s.mot.st = .detect → spdTarget s = 0 →
      (o.codes.length ≤ 1 → o.amp.toNat < motKe s * 30 → o.bemf.toInt.natAbs ≤ 1600 → exec (.detectEnd o) s =
        .next (enterSpin .stopped { s with mot := { s.mot with det := 1, act := 0, dir := false } })) ∧
      (1600 < o.bemf.toInt.natAbs → exec (.detectEnd o) s = .next (enterSpin .coast { s with mot := { s.mot with
        det := if 0 < o.bemf.toInt then 2 else 3, act := o.bemf.toInt, dir := decide (o.bemf.toInt < 0) } }))) ∧
    (s.mot.st = .coast → exec .stopDetected s =
      .next (enterSpin .stopped { s with mot := { s.mot with act := 0, speedRef := 0, dir := false } })) ∧
    (s.mot.starting = true → spinDriven s.mot = true → exec .startTimeout s = .next (spinFault 3 s)) ∧
    (s.mot.st = .relock → exec .relockTimeout s = .next (spinFault 2 s)) ∧
    (s.mot.st = .openLoop → exec .alignEnd s = .next { s with mot := { s.mot with aligning := false } }) ∧
    (∀ o : HallObs, s.mot.hallSubst = false → (hallStep o.code.toNat s).mot.hallSubst = false →
      (hallStep o.code.toNat s).mot.st = .coast → exec (.hallEdge o) s = .next (hallStep o.code.toNat s)) ∧
    (∀ o : PwmObs, s.mot.st = .hall6 → o.high ≠ o.low → o.trip = false → o.code ≠ 0 → o.code ≠ 7 →
      let i := phaseCurrents o false
      i.1 ≤ 32767 → -32768 ≤ i.1 → i.2 ≤ 32767 → -32768 ≤ i.2 → exec (.pwmPeriod o) s = .next
        { s.setReg Reg.MOT_PHASE_I (BitVec.ofNat 32 (unsigned 16 i.1 + unsigned 16 i.2 * 2 ^ 16)) with
          mot := { s.mot with badCodes := 0 } })

/-- Heat and power: the parts of the model's step in their order; a sample of the sensors while quenched, which takes the
readings alone, and while not, where the first sensor that is at its threshold for the second sample running quenches
and otherwise only the readings, the cross-check and the sampling rate change; the cold boot after a quench once every
usable sensor is below 115 °C, and before that; a sensor re-armed; a budget window's parts in their order; the AVFS loop
switched off, and on with the least slack below the lower limit, between the limits, and above the upper one, and at the tenth
read below the lower limit with VCODE at 80; and a droop
(R421 to R441). -/
def Obligations.ThermalCommands : Prop :=
  ∀ s : State,
    (∀ duty : List (Fin 257), s.live = true → exec (.modelStep duty) s = .next (retryEnter (fastMode
      ((List.range 8).foldl calTrigger ((List.range 8).foldl calAge (heatStep duty (derateStep (thermStep s)))))))) ∧
    (∀ l : List (Option (BitVec 16)),
      let r := (List.range 20).foldl (takeReading l) s
      let f := fastMode ((List.range 20).foldl crossCheck r)
      let now := (List.range 20).map (quenchHot f)
      let t : State := { f with bud := { f.bud with hot := now } }
      (r.bud.quenched ≠ none → exec (.sensorSample l) s = .next r) ∧
      (r.bud.quenched = none → (∀ k < 20, f.bud.hot.getD k false = false ∨ now.getD k false = false) →
        exec (.sensorSample l) s = .next t) ∧
      (∀ k < 20, r.bud.quenched = none → f.bud.hot.getD k false = true → now.getD k false = true →
        (∀ j < k, f.bud.hot.getD j false = false ∨ now.getD j false = false) →
        exec (.sensorSample l) s = .next (quench k t))) ∧
    (∀ k peak, s.bud.quenched = some (k, peak) →
      ((∀ j < 20, usable s j = true → sensorT s j < 1840) →
        exec .quenchCooled s = .next (
          let t := beginReset .cold 2 { s with bud := { s.bud with quenched := none } }
          raise 215 (t.setReg Reg.TH_QUENCH_INFO (BitVec.ofNat 32 (k + 2 ^ 7 + peak * 2 ^ 16))))) ∧
      (∀ j < 20, usable s j = true → 1840 ≤ sensorT s j → exec .quenchCooled s = .next s)) ∧
    (∀ k : Fin 20, s.live = true → s.pwr.aonBusy = false → exec (.sensorRearm (1 <<< k.val)) s = .next (countUsable
      ((({ s with pwr := { s.pwr with aonBusy := true } }.setRb Reg.TH_EXCLUDED k false).setRb (Reg.TH_SENSOR k) 16
        false).setRf (Reg.TH_SENSOR k) 23 20 0))) ∧
    (∀ (p12 : BitVec 16) (meters : List (BitVec 16)), s.live = true →
      let ms := (List.range 15).map fun m => (meters.getD m 0).toNat
      let u := meterWindow p12.toNat ms s
      let t := budgetTrim (p12.toNat + u.rf Reg.BA_P5 15 0) u
      let g := windowGrants t (windowPool t)
      exec (.budgetWindow p12 meters) s =
        .next (retryEnter (keepWindow ms (p12.toNat + u.rf Reg.BA_P5 15 0) g (giveGrants g t)))) ∧
    (∀ slack : List (BitVec 8), s.live = true → s.rb Reg.AV_CTRL 0 = false →
      exec (.avfsTick slack) s = .next (s.setReg Reg.AV_STATUS (BitVec.ofNat 32 (80 + freqReq s * 2 ^ 16)))) ∧
    (∀ (slack : List (BitVec 8)) (low : Nat × Nat), s.live = true → s.rb Reg.AV_CTRL 0 = true →
      ((List.range 8).map fun m => ((slack.getD m 0).toNat, m)).foldl (fun a b => if b.1 < a.1 then b else a) (256, 0) = low →
      s.bud.avLim < 9 →
      let t := s.setReg Reg.AV_SLACK (BitVec.ofNat 32 (low.1 % 256 + low.2 * 2 ^ 8))
      let v := t.rf Reg.AV_STATUS 6 0
      let f := t.rf Reg.AV_STATUS 27 16
      let lim := t.rb Reg.AV_STATUS 31
      let after (v f hi n : Nat) : State :=
        setAv v (min f (freqReq t)) lim { t with bud := { t.bud with avHi := hi, avLim := n } }
      (low.1 < t.rf Reg.AV_CTRL 15 8 → v < 80 → exec (.avfsTick slack) s = .next (after (v + 1) f 0 s.bud.avLim)) ∧
      (low.1 < t.rf Reg.AV_CTRL 15 8 → 80 ≤ v → exec (.avfsTick slack) s = .next (after v f 0 (s.bud.avLim + 1))) ∧
      (t.rf Reg.AV_CTRL 15 8 ≤ low.1 → low.1 ≤ t.rf Reg.AV_CTRL 23 16 →
        exec (.avfsTick slack) s = .next (after v f 0 s.bud.avLim)) ∧
      (t.rf Reg.AV_CTRL 15 8 ≤ low.1 → t.rf Reg.AV_CTRL 23 16 < low.1 → s.bud.avHi ≠ 99 →
        exec (.avfsTick slack) s = .next (after v f (s.bud.avHi + 1) s.bud.avLim)) ∧
      (t.rf Reg.AV_CTRL 15 8 ≤ low.1 → t.rf Reg.AV_CTRL 23 16 < low.1 → s.bud.avHi = 99 → freqReq t ≤ f →
        exec (.avfsTick slack) s = .next (after (v - 1) f 0 s.bud.avLim)) ∧
      (t.rf Reg.AV_CTRL 15 8 ≤ low.1 → t.rf Reg.AV_CTRL 23 16 < low.1 → s.bud.avHi = 99 → f < freqReq t →
        exec (.avfsTick slack) s = .next (after v (f + 50) 0 s.bud.avLim))) ∧
    (∀ (slack : List (BitVec 8)) (low : Nat × Nat), s.live = true → s.rb Reg.AV_CTRL 0 = true →
      ((List.range 8).map fun m => ((slack.getD m 0).toNat, m)).foldl (fun a b => if b.1 < a.1 then b else a) (256, 0) = low →
      s.bud.avLim = 9 →
      let t := s.setReg Reg.AV_SLACK (BitVec.ofNat 32 (low.1 % 256 + low.2 * 2 ^ 8))
      low.1 < t.rf Reg.AV_CTRL 15 8 → 80 ≤ t.rf Reg.AV_STATUS 6 0 → exec (.avfsTick slack) s = .next (
        let r := raise 214 (t.bump Reg.AV_LIMITS)
        setAv (t.rf Reg.AV_STATUS 6 0) (min (max 400 (t.rf Reg.AV_STATUS 27 16 - 50)) (freqReq r)) true
          { r with bud := { r.bud with avHi := 0, avLim := 0 } })) ∧
    (s.live = true → exec .coreDroop s = .next (s.bump Reg.AV_DROOPS))

/-- The calibration controller: request, start of a run, the deferral's end, a run's timeout, a measurement period and
a run's end, and the order of the parts of a wedge strobe: the servo engine, the preamp, calibration, and the servo field
under a write begins (R291, R447 to R451). -/
def Obligations.CalibrationCommands : Prop :=
  ∀ s : State, s.live = true →
    (∀ (x : Fin 2) (o : WedgeObs), exec (.wedgeStrobe x o) s =
      .next (modWr x Wr.toField (calStrobe x (preampStrobe x o (servoWedge x o s))))) ∧
    (∀ k : Fin 8, s.rb Reg.CAL_CTRL 0 = true → s.rb (Reg.CAL_SUB_CFG k) 7 = true →
      exec (.calRequest (1#8 <<< k.val)) s = .next (s.setRb Reg.CAL_STATUS (8 + k) true)) ∧
    (∀ (k : Fin 8) (heads : BitVec 12), 4 ≤ k.val → calPending s k = true → calActive s k = false →
      s.fenced (calOwner k) = false → calBoundary s k = true →
      exec (.calRunStart k heads) s = .next (
        let t := (s.setRb Reg.CAL_STATUS (8 + k) false).setRb Reg.CAL_STATUS k true
        { t with cal := { t.cal with forced := t.cal.forced.filter fun j => j ≠ k.val } })) ∧
    (∀ k : Fin 8, 2 ≤ k.val → k.val ≤ 4 → calPending s k = true → calActive s k = false →
      s.rf (Reg.CAL_SUB_CFG k) 31 16 ≠ 0 → k.val ∉ s.cal.forced →
      exec (.calDeferTimeout k) s = .next (calEvent 2 { s with cal := { s.cal with forced := k.val :: s.cal.forced } })) ∧
    (∀ k : Fin 8, k.val < 2 → calActive s k = true → exec (.calRunTimeout k) s = .next (calEnd k 2 s)) ∧
    (∀ (x r : Fin 2) (k : Fin 34) (off gain skew : BitVec 8), calActive s x = true → (med s x).rc.run = true →
      s.fenced (2 + x) = false →
      (spareSlices (adcMeasured x r k off gain skew s) x r).findIdx? (fun j => j = k.val) = none →
      exec (.adcMeasPeriod x r k off gain skew) s = .next (adcMeasured x r k off gain skew s)) ∧
    (∀ (k : Fin 8) (o : CalObs), 5 ≤ k.val → calActive s k = true → s.fenced (calOwner k) = false →
      (o.eyes.foldl (eyeEnd k) (s, false)).2 = false →
      exec (.calRunEnd k o) s = .next (calEnd k 1 (o.eyes.foldl (eyeEnd k) (s, false)).1))

/-- Memory protection and DRAM: the scrubber's start, word, stop and end, an error table cleared, the vote, refresh,
the temperature poll, training and the wipe (R457, R458, R465, R470 to R475). -/
def Obligations.MemoryUnitCommands : Prop :=
  ∀ s : State,
    (∀ v : BitVec 32, s.live = true → s.mu.scrub.busy = false →
      let u := s.setReg Reg.MEM_SCRUB_CTRL (v &&& 0xFF02)
      scrubBase u ≤ scrubLimit u →
      (u.inDram (scrubBase u) (scrubLimit u + 8 - scrubBase u) ∨ inSram (scrubBase u) (scrubLimit u + 8 - scrubBase u)) →
      exec (.scrubStart v) s = .next (modScrub (fun _ => ⟨true, scrubBase u, false⟩)
        ((u.resetRegs fun a => Reg.MEM_SCRUB_WORDS_LO ≤ a && a ≤ Reg.MEM_SCRUB_LAST_HI).setReg Reg.MEM_SCRUB_STATUS 1))) ∧
    (s.live = true → s.mu.scrub.busy = true → s.mu.scrub.next ≤ scrubLimit s →
      ∀ pat : BitVec 80, let a := s.mu.scrub.next
      eccDecode (Sparse.get (fun _ => (0 : BitVec 80)) (strike (errKey (memIndex a) a) pat s).mu.errs
        (errKey (memIndex a) a)) = .clean →
      exec (.scrubWord pat) s = .next (modScrub (fun c => { c with next := a + 8 })
        (scrubCounted (strike (errKey (memIndex a) a) pat s)))) ∧
    (s.live = true → s.mu.scrub.busy = true → exec .scrubStop s =
      .next (modScrub (fun c => { c with busy := false, stop := true }) (s.setReg Reg.MEM_SCRUB_STATUS 0xA))) ∧
    (s.live = true → s.mu.scrub.busy = true → scrubLimit s < s.mu.scrub.next → exec .scrubEnd s =
      .next (memEvent 3 (modScrub (fun c => { c with busy := false }) (s.setReg Reg.MEM_SCRUB_STATUS 2)))) ∧
    (∀ m : Fin 13, s.live = true → exec (.errorTableClear m) s = .next (s.resetRegs fun a =>
      a = Reg.MEM_TAB_OVF m || a = Reg.MEM_TAB_STATUS m || (Reg.MEM_TABE_LO m 0 ≤ a && a ≤ Reg.MEM_TABE_HI m 31))) ∧
    (∀ o : UpsetObs, o.stored = [] → o.reads = [] →
      exec (.voteCheck o) s = .next ((List.range 5).foldl voteWord (o.trips.foldl upset s))) ∧
    (s.live = true → s.mu.dramReady = true → s.mu.selfRefresh = false → exec .dramRefresh s =
      .next { s with mu := { s.mu with refreshes := s.mu.refreshes + 1 } }) ∧
    (∀ a b c d e : BitVec 5, s.live = true → s.mu.dramReady = true → exec (.dramTempPoll a b c d e) s =
      .next { s with mu := { s.mu with mr4 := [a.toNat, b.toNat, c.toNat, d.toNat, e.toNat] } }) ∧
    (∀ r : Fin 4, s.live = true → s.mu.training = true → exec (.dramTrainingDone (some r)) s =
      .next { s with mu := { s.mu with training := false, wipeBusy := true, dramReady := true, selfRefresh := false
                                       rate := min r.val (s.rf Reg.MEM_DRAM_CFG 2 0)
                                       cap := if s.rb Reg.MEM_DRAM_CFG 4 then 2 else 1 } }) ∧
    (s.live = true → s.mu.wipeBusy = true → s.mu.retained = false → exec .wipeDone s =
      .next { s with mem := Sparse.clear s.mem fun a => dramBase ≤ a
                     mu := { s.mu with wipeBusy := false, retained := false
                                       errs := Sparse.clear s.mu.errs fun k => k < 2 ^ 40 } })

/-- The code flash: an accepted program and erase, the information call, a pulse's end, a verify whose words all hold,
a line read while no operation runs, and the invalidation of level-2 lines (R479 to R487, R522). -/
def Obligations.CodeFlashCommands : Prop :=
  ∀ s : State, s.live = true →
    (∀ (off src len ra mtvec : BitVec 32) (a : Nat), s.cf.op = none → off.toNat % 4 = 0 → len.toNat % 4 = 0 →
      4 ≤ len.toNat → len.toNat ≤ 256 → off.toNat + len.toNat ≤ cfSize →
      off.toNat / 256 = (off.toNat + len.toNat - 1) / 256 → src.toNat % 4 = 0 → s.cruAddr src.toNat len.toNat = some a →
      let c : CfCall := ⟨1, off.toNat, len.toNat, s.bytes a len.toNat, false, ra.toNat, mtvec.toNat⟩
      let t := s.setRb Reg.CF_STATUS 2 false
      cfRefused t c = none → exec (.cfProgram off src len 0 ra mtvec) s = .next (cfStart c t)) ∧
    (∀ off ra mtvec : BitVec 32, s.cf.op = none → off.toNat % 4096 = 0 → off.toNat + 4096 ≤ cfSize →
      let c : CfCall := ⟨2, off.toNat, 4096, [], false, ra.toNat, mtvec.toNat⟩
      let t := s.setRb Reg.CF_STATUS 2 false
      cfRefused t c = none → exec (.cfErase off 0 0 ra mtvec) s = .next (cfStart c t)) ∧
    (exec .cfInfo s = .next { s with cf := { s.cf with ret := ⟨0, (s.reg Reg.CF_STATUS).toNat, 0x10000⟩ } }) ∧
    (∀ (p : CfOp) (left : List (Fin 16384 × BitVec 32)), s.cf.op = some p → p.verifying = false →
      exec (.cfPulseEnd left) s = .next (
        let t := cfPulse p (left.map fun (k, v) => (k.val, v.toNat)) s
        readGap { t with cf := { t.cf with op := some { p with verifying := true } } })) ∧
    (∀ p : CfOp, s.cf.op = some p → p.verifying = true → cfOverdone s p = none → cfFailing s p = [] →
      exec .cfVerifyDone s = .next (readGap (cfShow (cfReturn p.kind 0 0 p.attempt
        ((xipInvalidate p.off p.len { s with cf := { s.cf with op := none } }).bump Reg.CF_OPS))))) ∧
    (∀ (l : Fin 2097152) (cru : Bool), (cru || !xipHidden s l.val) = true → s.cf.op = none →
      exec (.xipRead l cru) s = .next (xipServe l.val cru s)) ∧
    (∀ v : BitVec 32, bit v 31 = true → exec (.l2Invalidate v) s = .next (
      let t := s.setReg Reg.CRU_L2_INV (v &&& 0x3FFF3FFF)
      { t with cf := { t.cf with
        l2 := t.cf.l2.filter fun l => l < fld v 13 0 * 128 || (fld v 29 16 + 1) * 128 ≤ l } }))

/-- The fuse array: while no burn runs, each command that burns fuses writes the command register, clears the error
bit and starts its burn, a key slot up to slot 3; the burn's end leaves what it burns and ends BUSY; a command during
a burn changes nothing (R494, R499, R508, R522). -/
def Obligations.FuseCommands : Prop :=
  ∀ s : State, s.live = true →
    (∀ arg : BitVec 8, s.cru.burn = none →
      let go (op : Nat) : State := modCru (fun c => { c with burn := some (op, arg.toNat) })
        ((s.setReg Reg.CRU_FUSE_CMD (BitVec.ofNat 32 (op + arg.toNat * 2 ^ 8))).setRb Reg.CRU_FUSE_STAT 1 false)
      exec (.fuseLifecycle arg) s = .next (go 1) ∧ exec (.fuseVaultWord arg) s = .next (go 2) ∧
      exec (.fuseKekStep arg) s = .next (go 3) ∧ exec (.fuseSvnCru arg) s = .next (go 4) ∧
      exec (.fuseSvnSvc arg) s = .next (go 5) ∧ exec (.fuseSvnProf arg) s = .next (go 6) ∧
      (arg.toNat ≤ 3 → exec (.fuseKeySlot arg) s = .next (go 7)) ∧
      (3 < arg.toNat → exec (.fuseKeySlot arg) s = .next
        ((s.setReg Reg.CRU_FUSE_CMD (BitVec.ofNat 32 (7 + arg.toNat * 2 ^ 8))).setRb Reg.CRU_FUSE_STAT 1 true)) ∧
      exec (.fuseIdentitySeed arg) s = .next (go 8)) ∧
    (∀ (arg : BitVec 8) (b : Nat × Nat), s.cru.burn = some b →
      exec (.fuseLifecycle arg) s = .next s ∧ exec (.fuseVaultWord arg) s = .next s ∧
      exec (.fuseKekStep arg) s = .next s ∧ exec (.fuseSvnCru arg) s = .next s ∧ exec (.fuseSvnSvc arg) s = .next s ∧
      exec (.fuseSvnProf arg) s = .next s ∧ exec (.fuseKeySlot arg) s = .next s ∧
      exec (.fuseIdentitySeed arg) s = .next s) ∧
    (∀ op arg : Nat, s.cru.burn = some (op, arg) →
      exec .fuseBurnDone s = .next (modCru (fun c => { c with burn := none }) (
        if op = 1 then burnLc (s.reg (Reg.CRU_FUSE_DATA 0)).toNat s
        else if op = 2 then burnVault (s.reg (Reg.CRU_FUSE_DATA 0)).toNat s
        else burnDone op arg s)))

/-- The band engine: each of its four commands starts where none runs and changes nothing where one does; at its end a
new key is drawn and wrapped, a key is loaded, unloaded, or wrapped for the next epoch, and the status shows DONE,
with ERR where the keys are destroyed or the wrapped key does not unwrap (R255, R500 to R502, R522). -/
def Obligations.BandKeyCommands : Prop :=
  ∀ s : State, s.live = true →
    (∀ b : Fin 64, s.cru.band = none →
      let go (op : Nat) : State := modCru (fun c => { c with band := some (op, b.val) })
        ((s.setReg Reg.CRU_BAND_CMD (BitVec.ofNat 32 (b.val + op * 2 ^ 8))).setReg Reg.CRU_BAND_STAT 0)
      exec (.bandCmdCreate b) s = .next (go 1) ∧ exec (.bandLoad b) s = .next (go 2) ∧
      exec (.bandUnload b) s = .next (go 3) ∧ exec (.bandRewrap b) s = .next (go 4)) ∧
    (∀ (b : Fin 64) (r : Nat × Nat), s.cru.band = some r →
      exec (.bandCmdCreate b) s = .next s ∧ exec (.bandLoad b) s = .next s ∧
      exec (.bandUnload b) s = .next s ∧ exec (.bandRewrap b) s = .next s) ∧
    (∀ (b : Nat) (t : State), kekKilled s = false →
      let ends (ok : Bool) (t : State) : State :=
        modCru (fun c => { c with band := none }) (t.setReg Reg.CRU_BAND_STAT (if ok then 1 else 3))
      (s.cru.band = some (1, b) → entropyFailed s = false → (drawKey s).2 = t →
        exec .bandCmdDone s = .next (ends true (setBandWrap (wrapKey s.cru.fuses.kek (drawKey s).1) t))) ∧
      (s.cru.band = some (2, b) →
        exec .bandCmdDone s = .next (match kwUnwrap (kekOf s.cru.fuses.kek) (bandWrap s) with
          | some k => ends true (setBandKey b k s)
          | none => ends false s)) ∧
      (s.cru.band = some (3, b) → exec .bandCmdDone s = .next (ends true (unloadBand b s))) ∧
      (s.cru.band = some (4, b) →
        exec .bandCmdDone s = .next (match kwUnwrap (kekOf s.cru.fuses.kek) (bandWrap s) with
          | some k => ends true (setBandWrap (wrapKey (s.cru.fuses.kek + 1) k) s)
          | none => ends false s))) ∧
    (∀ r : Nat × Nat, kekKilled s = true → s.cru.band = some r →
      exec .bandCmdDone s = .next (modCru (fun c => { c with band := none }) (s.setReg Reg.CRU_BAND_STAT 3)))

/-- Crucible's hash and random-number engines: a hash starts where none runs; its end shows SHAKE256 of the source's
bytes; a read of the random data answers 32 generator bits, and 0 after a failed health test, which raises
ENTROPY_FAIL once (R500, R522). -/
def Obligations.HashAndEntropyCommands : Prop :=
  ∀ s : State, s.live = true →
    (∀ outlen : BitVec 8, s.cru.hashing = false → exec (.hashStart outlen) s = .next (
      modCru (fun c => { c with hashing := true }) (s.setReg Reg.CRU_HASH_CTRL (BitVec.ofNat 32 (outlen.toNat * 2 ^ 8))))) ∧
    (∀ outlen : BitVec 8, s.cru.hashing = true → exec (.hashStart outlen) s = .next s) ∧
    (∀ (d : List Byte) (n : Nat), s.cru.hashing = true → s.rf Reg.CRU_HASH_CTRL 15 8 = n → 1 ≤ n → n ≤ 64 →
      hashSource s (s.reg Reg.CRU_HASH_SRC_LO).toNat (s.reg Reg.CRU_HASH_LEN).toNat = some d →
      exec .hashDone s = .next (
        (List.range (((shake256 n d).length + 3) / 4)).foldl (fun t w =>
          t.setReg (Reg.CRU_HASH_OUT w) (BitVec.ofNat 32 (field (shake256 n d) (4 * w) 4)))
          (modCru (fun c => { c with hashing := false }) s))) ∧
    (entropyFailed s = false → exec .rngDataRead s = .next
      { (drbg 4 s).2 with resp := ⟨BitVec.ofNat 64 (field (drbg 4 s).1 0 4), false⟩ }) ∧
    (entropyFailed s = true → exec .rngDataRead s = .next { s with resp := ⟨0, false⟩ }) ∧
    (entropyFailed s = false → exec .entropyHealthFail s = .next (cruEvent 5 (s.setRb Reg.CRU_RNG_STATUS 1 true))) ∧
    (entropyFailed s = true → exec .entropyHealthFail s = .next s)

/-- Crucible's watchdog, a trial's end and its cores: a kick makes the boot watchdog run and a stop ends it; at its
expiry WDOG is raised and the device resets with cause WATCHDOG; a service image on trial that has sent no READY has
its slot marked INVALID, TRIAL_FALLBACK is raised and the device resets; RESTART makes the named cores go on at the
vector with the argument, and no other core (R508, R522). -/
def Obligations.WatchdogAndCoreCommands : Prop :=
  ∀ s : State, s.live = true →
    (exec .wdogKick s = .next (modCru (fun c => { c with wdog := true }) s)) ∧
    (exec .wdogStop s = .next (modCru (fun c => { c with wdog := false }) s)) ∧
    (s.cru.wdog = true → exec .bootWatchdogExpiry s = .next
      (beginReset .device 10 (cruEvent 12 (modCru (fun c => { c with wdog := false }) s)))) ∧
    (s.cru.wdog = false → exec .bootWatchdogExpiry s = .next s) ∧
    (∀ i : Nat, s.cru.svcSlot = some i → s.cru.trial = true → svcRuns s = true →
      exec .trialTimeout s = .next (beginReset .device 9 (cruEvent 3 (setMark 2 i 12 0 s)))) ∧
    (∀ m : BitVec 6, ∃ t, exec (.coreRestart m) s = .next t ∧
      t.cru.cores.length = s.cru.cores.length ∧
      (∀ k : Nat, k < s.cru.cores.length → t.cru.cores[k]? =
        if m.getLsbD k then some (s.regAddr Reg.CRU_CORE_VEC_LO Reg.CRU_CORE_VEC_HI, (s.reg Reg.CRU_CORE_A0).toNat)
        else s.cru.cores[k]?) ∧
      t = { s with cru := { s.cru with cores := t.cru.cores } })

/-- The boot, the debug port and the sprue link, which act whether or not the logic die is held: BOOT_START boots as
far as the device can at once; in BLANK the debug port's request for MOULD draws the identity seed, burns the state
and begins the cold reset; a debug instruction takes force where the state grants it and leaves BYPASS where it does
not; the link loses alignment, comes up again in time, or fails once with its error (R17, R496, R497, R499, R511,
R579). -/
def Obligations.BootDebugAndLinkCommands : Prop :=
  ∀ s : State,
    (∀ (kat entropy chopper : Bool) (pass : BitVec 4) (straps : BitVec 3),
      exec (.bootStart kat entropy chopper pass straps) s = .next (bootGo kat entropy chopper pass straps s)) ∧
    (∀ t : State, s.cru.boot = .blank → entropyFailed s = false → (drbg 32 s).2 = t →
      exec .debugLcMould s = .next (beginReset .cold 3 (burnLc 0xFF (burnVault 1
        (modFuses (fun u => { u with seed := orBytes u.seed (drbg 32 s).1 }) t))))) ∧
    (s.cru.boot = .blank → entropyFailed s = true → exec .debugLcMould s = .next s) ∧
    (s.cru.boot ≠ .blank → exec .debugLcMould s = .next s) ∧
    (∀ r : TapIr, tapMay s r = true → exec (.debugIrUpdate r) s = .next { s with pwr := { s.pwr with tap := r } }) ∧
    (∀ r : TapIr, tapMay s r = false → exec (.debugIrUpdate r) s = .next { s with pwr := { s.pwr with tap := .bypass } }) ∧
    (exec .sprueAlignmentLoss s = .next { s with pwr := { s.pwr with sprueUp := false } }) ∧
    (s.pwr.sprueUp = false → s.pwr.sprueFailed = false → exec .sprueRetrainTimeout s = .next
      (parkDropped (hwError 6 1 [] { s with pwr := { s.pwr with sprueFailed := true } }))) ∧
    (s.pwr.sprueUp = true ∨ s.pwr.sprueFailed = true → exec .sprueRetrainTimeout s = .next s) ∧
    (s.pwr.sprueFailed = false → exec .sprueLinkRetrained s = .next { s with pwr := { s.pwr with sprueUp := true } }) ∧
    (s.pwr.sprueFailed = true → exec .sprueLinkRetrained s = .next s)

/-- Crucible's mailbox FIFOs of sixteen: a send puts the eight words into the request FIFO and raises MBX_REQ where it
was empty; a reply goes into the reply FIFO; a full FIFO takes nothing; a pop removes the head (R31, R519, R523). -/
def Obligations.MailboxFifoCommands : Prop :=
  ∀ s : State, s.live = true →
    (s.cru.rx = [] → exec .mailboxSend s = .next
      (cruEvent 1 { s with cru := { s.cru with rx := [regBytes Reg.SVC_CMBX_TX s] } })) ∧
    (s.cru.rx ≠ [] → s.cru.rx.length < 16 → exec .mailboxSend s = .next
      { s with cru := { s.cru with rx := s.cru.rx ++ [regBytes Reg.SVC_CMBX_TX s] } }) ∧
    (16 ≤ s.cru.rx.length → exec .mailboxSend s = .next s) ∧
    (s.cru.tx.length < 16 → exec .mailboxReply s = .next
      { s with cru := { s.cru with tx := s.cru.tx ++ [regBytes Reg.CRU_MBX_TX s] } }) ∧
    (16 ≤ s.cru.tx.length → exec .mailboxReply s = .next s) ∧
    (∀ h l, s.cru.rx = h :: l → exec .cruMbxPop s = .next { s with cru := { s.cru with rx := l } }) ∧
    (s.cru.rx = [] → exec .cruMbxPop s = .next s) ∧
    (∀ h l, s.cru.tx = h :: l → exec .svcCmbxPop s = .next { s with cru := { s.cru with tx := l } }) ∧
    (s.cru.tx = [] → exec .svcCmbxPop s = .next s)

/-- The requests on code flash and images that Crucible serves while its firmware runs with the service image
released: a program and an erase in a spare region, a setting, a staged chunk, an activation at the next reset, and
READY outside a live activation; each ends with its reply (R508, R512 to R514, R519, R564). -/
def Obligations.ImageRequests : Prop :=
  ∀ s : State, s.live = true → cruFree s = true → s.cru.boot = .released → ∀ seq : BitVec 8,
    (∀ (off : BitVec 32) (src : BitVec 40) (len : BitVec 32) (fl : Option Nat) (st : Nat) (t : State),
      inSpare off.toNat len.toNat = true → cruMay s src.toNat len.toNat = true → off.toNat % 4 = 0 → len.toNat % 4 = 0 →
      4 ≤ len.toNat → off.toNat % 256 + len.toNat ≤ 256 → src.toNat % 4 = 0 →
      cfDo 1 off.toNat (s.bytes src.toNat len.toNat) (fl ≠ some 0) s = (st, t) →
      exec (.flashWrite seq off src len fl) s = .next
        (if st = 0 then cruReply 1 seq 0 [] t else cruReply 1 seq 8 [BitVec.ofNat 8 st] t)) ∧
    (∀ (off : BitVec 32) (src : BitVec 40) (len : BitVec 32) (fl : Option Nat),
      inSpare off.toNat len.toNat = false → exec (.flashWrite seq off src len fl) s = .next (cruReply 1 seq 1 [] s)) ∧
    (∀ (off : BitVec 32) (fl : Option Nat) (st : Nat) (t : State),
      inSpare off.toNat 4096 = true → off.toNat % 4096 = 0 →
      cfDo 2 off.toNat [] (fl ≠ some 0) s = (st, t) →
      exec (.flashErase seq off 0 fl) s = .next
        (if st = 0 then cruReply 2 seq 0 [] t else cruReply 2 seq 8 [BitVec.ofNat 8 st] t)) ∧
    (∀ (tag : BitVec 16) (src : BitVec 40) (len : BitVec 32) (fl : Option Nat),
      0x100 ≤ tag.toNat → tag.toNat ≤ 0x7FFF → len.toNat ≤ 4080 → cruMay s src.toNat len.toNat = true →
      let x := writeSetting tag.toNat (s.bytes src.toNat len.toNat) fl s
      exec (.settingsWrite seq tag src len fl) s = .next
        (if x.st = 0 then cruReply 3 seq 0 [] x.s else cruReply 3 seq 8 [BitVec.ofNat 8 x.st] x.s)) ∧
    (∀ (target place : BitVec 8) (off : BitVec 32) (src : BitVec 40) (len : BitVec 32) (final : Bool) (fl : Option Nat),
      cruMay s src.toNat len.toNat = true →
      let r := reqStage target.toNat place.toNat off.toNat (s.bytes src.toNat len.toNat) final fl s
      exec (.stage seq target place off src len final fl) s = .next (cruReply 0x10 seq r.st r.extra r.s)) ∧
    (s.cru.activation = none → stagedImage s 2 = true →
      exec (.activate seq 0 1) s = .next (cruReply 0x11 seq 0 [] (selectSlot 2 s)) ∧
      exec (.activate seq 0 0) s = .next (cruReply 0x11 seq 0 [] (activateLive s))) ∧
    (s.cru.activation = none → stagedImage s 1 = true →
      exec (.activate seq 1 1) s = .next (cruReply 0x11 seq 0 [] (selectSlot 1 s))) ∧
    (s.cru.activation = none → exec (.ready seq) s = .next (cruReply 0x12 seq 0 [] (reqReady s)))

/-- The requests on keys, authorisations, attestation, windows, functions and the life cycle that Crucible serves
while its firmware runs with the service image released; each ends with its reply, but an accepted change of life
cycle, which has none (R27, R493, R498, R501 to R503, R516 to R519, R533, R542). -/
def Obligations.SecurityRequests : Prop :=
  ∀ s : State, s.live = true → cruFree s = true → s.cru.boot = .released → ∀ seq : BitVec 8,
    (∀ (band : BitVec 8) (fl : Option Nat), band.toNat < 64 → s.lcState = 1 ∨ s.lcState = 2 → entropyFailed s = false →
      s.cru.fuses.kek ≠ 4095 →
      let x := createBand band.toNat fl s
      exec (.bandCreate seq band fl) s = .next
        (if x.st = 0 then cruReply 0x20 seq 0 [] x.s else cruReply 0x20 seq 8 [BitVec.ofNat 8 x.st] x.s)) ∧
    (∀ (action band : BitVec 8) (a : BitVec 40) (fl : Option Nat), cruMay s a.toNat 5376 = true →
      let r := reqSanitize action.toNat band.toNat (s.bytes a.toNat 5376) fl s
      exec (.cruSanitize seq action band a fl) s = .next
        (if r.st = 0 then cruReply 0x21 seq 0 r.extra (destroyBands (doomed s action.toNat band.toNat) false r.s)
         else cruReply 0x21 seq r.st r.extra r.s)) ∧
    (∀ a : BitVec 40, cruMay s a.toNat 5376 = true → 1 ≤ s.lcState → s.lcState ≤ 3 →
      let x := acceptAuth (s.bytes a.toNat 5376) 8 0 none s
      (authOk s (s.bytes a.toNat 5376) 8 0 = true →
        exec (.authCheck seq 8 a) s = .next (cruReply 0x22 seq x.st [] x.s)) ∧
      (authOk s (s.bytes a.toNat 5376) 8 0 = false →
        exec (.authCheck seq 8 a) s = .next (cruReply 0x22 seq 3 [] (cruEvent 4 s)))) ∧
    (∀ nonce dst : BitVec 40, cruMay s nonce.toNat 32 = true → cruMay s dst.toNat 5773 = true →
      exec (.cruAttest seq nonce dst) s = .next
        (cruReply 0x23 seq 0 [] (s.setBytes dst.toNat (report (s.bytes nonce.toNat 32) s)))) ∧
    (∀ (set index : BitVec 8) (base limit : BitVec 40) (en : Bool),
      (set.toNat ≤ 8 ∧ set.toNat ≠ 7 ∧ index.toNat < 16) ∨ (set.toNat = 15 ∧ index.toNat < 64) →
      base.toNat % 4096 = 0 → limit.toNat % 4096 = 0 → base.toNat ≤ limit.toNat → dramBase ≤ base.toNat →
      limit.toNat + 4096 ≤ dramBase + s.dramBytes → limit.toNat + 4096 ≤ apertureBase s →
      exec (.windowSet seq set index base limit en) s = .next
        (cruReply 0x30 seq 0 [] (fbEval (setWindow set.toNat index.toNat base.toNat limit.toNat en s)))) ∧
    (∀ f : BitVec 8, f.toNat ≤ 6 → exec (.funcReset seq f) s = .next (cruReply 0x31 seq 0 [] (startReset f.toNat s))) ∧
    (∀ f : BitVec 8, 6 < f.toNat → exec (.funcReset seq f) s = .next (cruReply 0x31 seq 1 [] s)) ∧
    (∀ (a : BitVec 40) (fl : Option Nat), lcWaits s = false → cruMay s a.toNat 5376 = true →
      let r := reqLcSet (s.bytes a.toNat 5376) fl s
      exec (.cruLcSet seq a fl) s = .next (if r.st = 0 then r.s else cruReply 0x40 seq r.st r.extra r.s))

/-- Events and function errors: a source raised, the error machine's timeout, clear, raised error and tail drop, a
posted software event, a token, and a function reset's start and end (R525 to R533, R537). -/
def Obligations.EventCommands : Prop :=
  ∀ s : State, s.live = true →
    (∀ (n : Fin 256) (b : Fin 8) (p : Option (List Byte)), isEftSource n = false → (sourceBit n 0).isSome →
      exec (.eventRaise n b p) s = .next (parkDropped (raiseWith n 0 p s))) ∧
    (∀ f : Fin 7, errState s f = 1 → s.rf Reg.EVC_CTRL 31 16 ≠ 0 →
      exec (.handleTimeout f) s = .next (parkDropped (tailDrop f 2 s))) ∧
    (∀ f : Fin 7, errState s f = 1 →
      exec (.errorSlotClear f) s = .next ((s.setReg (Reg.EVC_ERR_PRI f) 0).setRf (Reg.EVC_ERR_STATE f) 1 0 0)) ∧
    (∀ (f : Fin 8) (cond : BitVec 8), f.val ≠ 7 →
      exec (.errorRaise f cond) s = .next (parkDropped (functionError f (0x3000 + cond.toNat) s))) ∧
    (∀ f : Fin 8, f.val ≤ 6 → errState s f < 2 → exec (.tailDrop f) s = .next (
      let t := (s.setFence f true).setRf (Reg.EVC_ERR_STATE f) 1 0 2
      parkDropped (raiseQuiet 34 0 (some ([BitVec.ofNat 8 f, 3] ++ leBytes 2 (errPri s f) ++ leBytes 2 (errSec s f))) false
        (holdEfts f (holdRings f (fenceOwn (fun n s => raiseBy innerDrop n 0 none s) f t)))))) ∧
    (∀ (k : Fin 8) (cond : BitVec 8) (func : Fin 16), exec (.softPost k cond func) s = .next (
      raiseAs (48 + k) cond.toNat (min func.val 8) ((List.range 3).flatMap fun w => leBytes 4 (s.reg (Reg.EVC_SOFT_PAY w)).toNat)
        false (setStatus (48 + k) 0 s))) ∧
    (∀ n : Fin 256, s.rf (Reg.EVC_SRC n) 31 24 ≠ 0 → exec (.tokenRefill n) s = .next { s with evc := { s.evc with
      tokensUsed := Sparse.set (fun _ => 0) s.evc.tokensUsed n (Sparse.get (fun _ => 0) s.evc.tokensUsed n - 1) } }) ∧
    (∀ f : Fin 8, f.val ≤ 6 → errState s f ≠ 3 → exec (.functionReset f) s = .next (
      let t := parkDropped (tailDrop f 3 s)
      ((if (f.val = 2 ∨ f.val = 3) ∧ (actu t (f - 2)).retDone = false then parkDrive (f - 2) t else t).setReg Reg.EVC_FRESET
        (BitVec.ofNat 32 (f + 2 ^ 31))).setRf (Reg.EVC_ERR_STATE f) 1 0 3)) ∧
    (∀ (f : Fin 7) (pass : BitVec 4) (chopper : Bool), errState s f = 3 → (f.val = 2 → (actu s 0).retDone = true) →
      (f.val = 3 → (actu s 1).retDone = true) →
      exec (.functionResetEnd f pass chopper) s =
        .next (fbEval ((functionReset f pass.toNat chopper s).setRb Reg.EVC_FRESET 31 false)))

/-- The event recorder: draining, its drained record popped, freezing and its timeout, a window loaded, the fault
word, and the clock loaded (R535, R539 to R543). -/
def Obligations.RecorderCommands : Prop :=
  ∀ s : State, s.live = true →
    (∀ (old : Bool) (f : Option Nat), (old = true ∨ 8 ≤ s.evc.buf.length) → s.cf.op = none →
      exec (.recorderDrain old f) s = .next (recDrain 256 f s)) ∧
    (exec .drainPop s = .next { s with evc := { s.evc with buf := s.evc.buf.drop 1 } }) ∧
    (∀ on : Bool, exec (.recorderFreeze on) s =
      .next { s.setRb Reg.EVC_CTRL 1 on with evc := { s.evc with frozenSvc := on } }) ∧
    (exec (.freezeTimeout true) s = .next { s with evc := { s.evc with frozenSb := false } }) ∧
    (exec (.freezeTimeout false) s =
      .next { s.setRb Reg.EVC_CTRL 1 false with evc := { s.evc with frozenSvc := false } }) ∧
    (∀ (v : Fin 2) (seq : BitVec 32), exec (.windowLoad v seq) s = .next (loadWindow v seq.toNat s)) ∧
    (∀ page : Fin 4096, s.pwr.aonBusy = false → s.ramOnly = false → exec (.recorderFaultSet page) s = .next (
      raiseWith 38 0 (some (leBytes 2 page.val)) { s with pwr := { s.pwr with aonBusy := true }, mu := { s.mu with trip3 := tripNat (1 + page.val * 256) } })) ∧
    (∀ hi : BitVec 31, s.pwr.aonBusy = false → exec (.timeLoad hi) s = .next (
      let t := { s with pwr := { s.pwr with aonBusy := true } }.setReg Reg.EVC_TIME_SET_HI (hi.setWidth 32)
      setClock ((t.reg Reg.EVC_TIME_SET_LO).toNat + hi.toNat * 2 ^ 32) t))

/-- The supplies and the start: a dip and its end, the loss of power, an overvoltage, the end of hold-up, the power-up
with its ramp, its retries and its rails, and a rail fault (R412 to R415, R549 to R552, R584). -/
def Obligations.SupplyCommands : Prop :=
  ∀ s : State,
    (∀ v12 : Bool, s.pwr.powerUp = .up → exec (.inputDip v12) s = .next { s with
      pwr := if v12 then { s.pwr with vin12Good := false } else { s.pwr with vin5Good := false }
      mot := { s.mot with dip := true } }) ∧
    (s.pwr.powerUp = .off → s.mot.dip = false → s.mot.bootDue = false → s.pwr.holdup = false →
      exec .inputGood s = .next { s with mot := { s.mot with dip := false }, pwr := { s.pwr with vin12Good := true, vin5Good := true, powerUp := .holding } }) ∧
    (s.mot.dip = true → inputsGood s = false →
      exec .powerLoss s = .next (powerLoss { s with mot := { s.mot with dip := false } })) ∧
    (exec .inputOvervoltage s = .next (powerLoss { s with pwr := { s.pwr with vin12Good := false } })) ∧
    (exec .holdupDone s = .next (holdupEnd s)) ∧
    (exec .vmBelowHoldMin s = .next (holdupEnd s)) ∧
    (s.mot.bootDue = true → inputsGood s = true → s.pwr.resetPinLow = false → s.bud.quenched = none →
      exec .inputGoodBoot s = .next { s with mot := { s.mot with bootDue := false }, pwr := { s.pwr with powerUp := .holding } }) ∧
    (s.pwr.powerUp = .holding → inputsGood s = true → (s.rb Reg.PWR_CTRL 1 = true → s.pwr.sif3.out = false) →
      exec .powerUpStart s = .next { s with pwr := { s.pwr with isoOn := true, powerUp := .ramping, tries := 0 } }) ∧
    (s.pwr.powerUp = .ramping → s.pwr.tries < 2 → exec .rampFailure s =
      .next { s with pwr := { s.pwr with isoOn := false, tries := s.pwr.tries + 1, powerUp := .retryWait } }) ∧
    (s.pwr.powerUp = .ramping → s.pwr.tries = 2 → exec .rampFailure s =
      .next { s with pwr := { s.pwr with isoOn := false, tries := 3, powerUp := .gaveUp } }) ∧
    (s.pwr.powerUp = .retryWait → exec .rampRetry s =
      .next { s with pwr := { s.pwr with isoOn := true, powerUp := .ramping } }) ∧
    (s.pwr.powerUp = .ramping → exec .vmGood s =
      .next { s with pwr := { s.pwr with vmGood := true, pg := 1, powerUp := .rails 1 } }) ∧
    (∀ k, s.pwr.powerUp = .rails k → k < 7 → nbit s.pwr.pg k = false → exec .railSequenceStep s =
      .next { s with pwr := { s.pwr with pg := s.pwr.pg + 2 ^ k, powerUp := .rails (k + 1) } }) ∧
    (s.pwr.powerUp = .resetHold → s.pwr.pg = 0xFF → s.pwr.resetPinLow = false → s.bud.quenched = none →
      exec (.coldResetRelease true) s = .next (releaseReset { s with pwr := { s.pwr with powerUp := .up } })) ∧
    (∀ k : Fin 8, s.pwr.powerUp = .up → exec (.railFault k) s = .next (railFault k s)) ∧
    (∀ k, s.pwr.powerUp = .railFault k →
      exec .railFaultRestart s = .next { s with pwr := { s.pwr with powerUp := .rails 1 } })

/-- Resets, the presence pin and the slow-input filter: the reset pin's three events, the register's three resets, a
removal, an edge that holds and one that does not, a window, a stuck input, a re-arm, WAKE, the always-on domain's
loss, oscillator and write (R31, R555 to R570, R598). -/
def Obligations.ResetAndInputCommands : Prop :=
  ∀ s : State,
    (s.pwr.holdup = false → exec .resetPinAssert s =
      .next (beginReset .warm 6 { s with pwr := { s.pwr with resetPinLow := true } })) ∧
    (s.pwr.holdup = true → exec .resetPinAssert s = .next { s with pwr := { s.pwr with resetPinLow := true } }) ∧
    (s.pwr.resetPinLow = true → s.pwr.holdup = false → exec .resetPinLong s = .next (beginReset .cold 5 s)) ∧
    (s.pwr.powerUp = .up → s.bud.quenched = none → exec .resetPinRelease s =
      .next (releaseReset { s with pwr := { s.pwr with resetPinLow := false } })) ∧
    (s.live = true → s.pwr.holdup = false → exec .pwrResetWarm s = .next (beginReset .warm 7 s) ∧
      exec .pwrResetDevice s = .next (beginReset .device 7 s) ∧ exec .pwrResetCold s = .next (beginReset .cold 7 s)) ∧
    (s.pwr.sif3.out = false → exec .presenceRemoval s = .next (sifLevel 3 true s)) ∧
    (∀ (n : Fin 8) (level : Bool), exec (.sifEdge n level true) s = .next (sifLevel n level s)) ∧
    (∀ (n : Fin 8) (level : Bool), exec (.sifEdge n level false) s = .next (s.bumpRf
      (if n.val < 4 then Reg.SIF_GLITCH_0 else Reg.SIF_GLITCH_1) (n.val % 4 * 8 + 7) (n.val % 4 * 8))) ∧
    (∀ n : Fin 8, exec (.sifWindow n) s = .next (sifWindow n s)) ∧
    (∀ n : Fin 8, 3 ≤ n.val → fld (sif s n).cfgB 31 16 ≠ 0 → (sif s n).out = sifActive n → sifFaulty s n = false →
      exec (.sifStuck n) s = .next (sifFail n (8 + n.val) s)) ∧
    (exec (.sifRearm 4) s = .next (sifRearm 2 s)) ∧
    (s.pwr.sif5.out = false → exec .wakeAssert s = .next (sifLevel 5 true s)) ∧
    (s.pwr.powerUp = .off → s.pwr.inReset ≠ none → exec .vaonRetentionLoss s =
      .next { s with pwr := { s.pwr with aonLost := true, pg := s.pwr.pg / 2 * 2 } }) ∧
    (exec .aonOscFail s =
      .next { s with pwr := { s.pwr with aonInternalOsc := true }, evc := { s.evc with unsync := true } }) ∧
    (exec .aonWriteDone s = .next { s with pwr := { s.pwr with aonBusy := false } })

/-- Ports, frames, flow control and congestion: mode and enables, HOLD, links, a received frame, the FEC burst, PFC
and its storm, a context fetched, a CNP and a rate step (R34 to R46, R51, R53, R62). `t` is the state with nothing
sent yet. -/
def Obligations.NetPortCommands : Prop :=
  ∀ s t : State, s.live = true → netLive s = true → netFresh s = t →
    (s.fenced 1 = true → exec .svcFenceTimeout s = .next (tailDrop 0 3 s)) ∧
    (∀ v : BitVec 32, exec (.portModeSet none v) s = .next (netCtrlWrite v s)) ∧
    (∀ (p : Fin 2) (v : BitVec 32), exec (.portModeSet (some p) v) s = .next (netCfgWrite p v s)) ∧
    (∀ p : Fin 2, exec (.portEnable p) s = .next (netCtrlWrite (putBit (s.reg Reg.NET_CTRL) (4 + p) true) s)) ∧
    (exec .netHoldSet s = .next (netCtrlWrite (putBit (s.reg Reg.NET_CTRL) 16 true) s)) ∧
    (exec .netHoldClear s = .next (netCtrlWrite (putBit (s.reg Reg.NET_CTRL) 16 false) s)) ∧
    (∀ p : Fin 2, (port t p).training = true → portOn t p = true → nbit t.pwr.pg 6 = true →
      exec (.linkUp p) s = .next (resendPort p (releaseWaiting p (setLink p true t)))) ∧
    (∀ p : Fin 2, (port s p).up = true → exec (.linkDown p) s =
      .next (modPort p (fun x => { x with training := portOn s p, neg := portOn s p && s.rb (Reg.NET_P_CFG p) 0 })
        (setLink p false s))) ∧
    (∀ (p : Fin 2) (o : FrameObs), (port t p).up = true → exec (.rxFrame p o) s = .next (takeFrame p o t)) ∧
    (∀ p : Fin 2, exec (.fecBurstRearm p) s =
      .next (modPort p (fun x => { x with burstArmed := true, fec := [] }) s)) ∧
    (∀ (p : Fin 2) (occ : Fin 262145) (u : State), modPort p (fun x => { x with occ := occ }) t = u →
      (port u p).xoff = true → occ.val ≤ u.rf (Reg.NET_P_BUF_THR p) 31 16 * 1024 → exec (.pfcXon p occ) s =
        .next (netSend (.xon p (u.rf (Reg.NET_P_PFC p) 7 0)) (modPort p (fun x => { x with xoff := false }) u))) ∧
    (∀ q : Fin 16384, t.mu.errs = [] → q.val ∈ t.net.fetching → (makeRoom t).isSome = true →
      t.engineMay 0 (qpcAddr t q) 256 = true → exec (.contextFetchDone q) s = .next (cacheTouch q { t with net := { t.net with
        port0 := { t.net.port0 with missQ := t.net.port0.missQ.filter (· ≠ q.val) }
        port1 := { t.net.port1 with missQ := t.net.port1.missQ.filter (· ≠ q.val) } } })) ∧
    (∀ (p : Fin 2) (on off : BitVec 8) (u : State), modPort p (fun x => { x with
        paused := (((BitVec.ofNat 8 (port t p).paused ||| on) &&& ~~~off) &&& BitVec.ofNat 8 (t.rf (Reg.NET_P_PFC p) 7 0)).toNat })
        t = u → nbit (port t p).paused (u.rf (Reg.NET_P_PFC p) 10 8) = false →
      exec (.pfcPauseReceived p on off) s = .next (releaseWaiting p u)) ∧
    (∀ p : Fin 2, (port t p).paused ≠ 0 → exec (.pfcStorm p) s = .next (netEvent 5 t)) ∧
    (∀ q : Fin 16384, qpUp (qp t q) = true → (qp t q).lastDec = none → exec (.cnpReceived q) s = .next (setQp q { qp t q with
      rate := max (t.rf Reg.NET_CC_RATE 11 0) ((qp t q).rate - (qp t q).rate / 4)
      lastDec := some t.timeUs, incFrom := some t.timeUs } t)) ∧
    (∀ (q : Fin 16384) (from_ : Nat), (qp t q).incFrom = some from_ → (qp t q).made = true →
      from_ + t.rf Reg.NET_CC_RATE 23 16 ≤ t.timeUs → exec (.rateIncrease q) s = .next (setQp q { qp t q with
        rate := min (lineRate t (qp t q).port) ((qp t q).rate + t.rf Reg.NET_CC_RATE 31 24)
        incFrom := some t.timeUs } t))

/-- Rings and messages of NET: the raw ring's index and configuration, a mailbox's index, and each message for a queue
pair that can take it, with the timers of its requester and the pop of NET_QP_ERR_FIFO (R48, R54 to R60, R69). `t` is
the state with nothing sent yet. -/
def Obligations.NetMessageCommands : Prop :=
  ∀ s t : State, s.live = true → netLive s = true → netFresh s = t → t.mu.errs = [] →
    (∀ v : BitVec 32, v.toNat % 2 ^ 13 < 2 ^ (rawN s + 1) → ringCount (rawN s) (rawProd s) (v.toNat % 2 ^ 13) ≤ 2 ^ rawN s →
      exec (.rawConsWrite v) s = .next (s.setRf Reg.NET_RAW_CONS 12 0 (v.toNat % 2 ^ 13))) ∧
    (∀ v : BitVec 32, anyPortOn s = false → exec (.rawRingConfig true v) s =
      .next (((s.setReg Reg.NET_RAW_SIZE v).setReg Reg.NET_RAW_PROD 0).setReg Reg.NET_RAW_CONS 0)) ∧
    (∀ (m : Fin 256) (v : BitVec 32) (u : State), fld v 19 16 = s.rf (Reg.NET_MBX_CONS m) 19 16 →
      s.setRf (Reg.NET_MBX_CONS m) 12 0 (fld v 12 0) = u → fld v 12 0 < 2 ^ (mbxN s m + 1) →
      ringCount (mbxN s m) (mbxProd u m) (fld v 12 0) ≤ 2 ^ mbxN s m → exec (.mbxConsWrite m v) s =
        .next (modNet (fun x => { x with badCons := s.net.badCons.filter (· ≠ m.val) }) u)) ∧
    (∀ (q : Fin 16384) (first psn : BitVec 24) (bs : List Byte), qpUp (qp t q) = true →
      (port t (qp t q).port).up = true → first.toNat = (qp t q).rqPsn → opDefined 2 (capOp bs) = true →
      exec (.rxSend q ⟨first, psn⟩ bs false) s = .next (takeSend q psn.toNat bs t)) ∧
    (∀ (q : Fin 16384) (first psn : BitVec 24) (bs : List Byte), qpUp (qp t q) = true →
      (port t (qp t q).port).up = true → first.toNat < 2 ^ 23 → (qp t q).rqPsn < first.toNat →
      exec (.rxSend q ⟨first, psn⟩ bs false) s = .next (netSend (.nakSeq q) t)) ∧
    (∀ (q : Fin 16384) (a : BitVec 64) (key : BitVec 32) (bs : List Byte) (first psn : BitVec 24), qpUp (qp t q) = true →
      (port t (qp t q).port).up = true → first.toNat = (qp t q).rqPsn →
      advHolds t q a.toNat bs.length key.toNat = true →
      t.engineMay 0 a.toNat bs.length = true → exec (.rxRdmaWrite ⟨q, false⟩ a key bs ⟨first, psn⟩) s =
        .next (netSend (.ack q psn.toNat)
          (modQp q (fun x => { x with rqPsn := (psn.toNat + 1) % 2 ^ 24 }) (t.setBytes a.toNat bs)))) ∧
    (∀ (q : Fin 16384) (a : BitVec 64) (key : BitVec 32) (bs : List Byte) (first psn : BitVec 24), qpUp (qp t q) = true →
      (port t (qp t q).port).up = true → first.toNat = (qp t q).rqPsn →
      advHolds t q a.toNat bs.length key.toNat = false →
      exec (.rxRdmaWrite ⟨q, false⟩ a key bs ⟨first, psn⟩) s = .next (remoteBad q t)) ∧
    (∀ (q : Fin 16384) (a : BitVec 64) (key len : BitVec 32) (psn : BitVec 24), qpUp (qp t q) = true →
      (port t (qp t q).port).up = true → psn.toNat = (qp t q).rqPsn →
      advHolds t q a.toNat len.toNat key.toNat = true →
      t.engineMay 0 a.toNat len.toNat = true → exec (.rxRdmaRead ⟨q, false⟩ a key len psn) s =
        .next (netSend (.readResponse q (t.bytes a.toNat len.toNat))
          (modQp q (fun x => { x with rqPsn := (psn.toNat + packets q len.toNat) % 2 ^ 24 }) t))) ∧
    (∀ (q : Fin 16384) (bs : List Byte) (w : NetWr) (j : Job), qpUp (qp t q) = true → (port t (qp t q).port).up = true →
      oldestRead t q = some w → findJob t w.sq w.first = some j → (qp t q).readDone = 0 → bs.length = field j.entry 24 4 →
      exec (.rxReadResponse ⟨q, false⟩ bs) s = .next (writeOr 0 (field j.entry 16 5 + 0) bs
        (fun r s => failAccess w.sq w.first r
          (modNet (fun x => { x with wrs := x.wrs.filter fun v => !(v.sq = w.sq && v.first = w.first) })
            (modQp q (fun x => { x with readDone := 0 }) s)))
        (fun s => endWr w (modQp q (fun x => { x with readDone := 0 }) s))
        (ackUpTo q ((w.psn + 2 ^ 24 - 1) % 2 ^ 24) t.net.wrs (refreshRetries q t)))) ∧
    (∀ (q : Fin 16384) (psn : BitVec 24), qpUp (qp t q) = true → (port t (qp t q).port).up = true →
      exec (.rxAck ⟨q, false⟩ psn) s = .next (ackUpTo q psn.toNat t.net.wrs (refreshRetries q t)) ∧
      exec (.rxAck ⟨q, true⟩ psn) s = .next (ackUpTo q psn.toNat (cnpSend q t).net.wrs (refreshRetries q (cnpSend q t)))) ∧
    (∀ q : Fin 16384, qpUp (qp t q) = true → (port t (qp t q).port).up = true → (qp t q).rnrRetry ≠ 7 →
      (qp t q).rnrLeft ≠ 0 → exec (.rxNak ⟨q, false⟩ true) s =
        .next (setQp q { qp t q with rnrLeft := (qp t q).rnrLeft - 1, rnrWait := true } t)) ∧
    (∀ q : Fin 16384, qpUp (qp t q) = true → (port t (qp t q).port).up = true →
      exec (.rxNak ⟨q, false⟩ false) s = .next (qpError q t)) ∧
    (∀ q : Fin 16384, (qp t q).made = true → (qp t q).st = .rts → (qp t q).timeout ≠ 0 → (qp t q).rnrWait = false →
      (t.net.wrs.any fun w => w.qp = q) = true → (qp t q).triesLeft ≠ 0 → exec (.ackTimeout q) s =
        .next (resend q (setQp q { qp t q with triesLeft := (qp t q).triesLeft - 1 } t))) ∧
    (∀ q : Fin 16384, (qp t q).made = true → (qp t q).rnrWait = true → exec (.rnrTimerExpiry q) s =
      .next (resend q (modQp q (fun x => { x with rnrWait := false }) t))) ∧
    (∀ q r l, s.net.errFifo = (q, r) :: l → exec .qpErrFifoPop s = .next { s with
      net := { s.net with errFifo := l, errOvf := 0 }
      resp := ⟨BitVec.ofNat 64 (q + r * 2 ^ 16 + 2 ^ 31 + s.net.errOvf * 2 ^ 24), false⟩ })

/-- QP control and work requests of NET: what each operation of the next job of ring `r` does to its queue pair, the
advertised buffers and the wire (R41, R47, R51 to R59, R158, R161). `t` is the state with nothing sent yet; `q` the
queue pair that the entry names. -/
def Obligations.NetJobCommands : Prop :=
  ∀ (r : Fin 16384) (s t : State) (j : Job) (q : Nat), s.live = true → netLive s = true → netFresh s = t → t.mu.errs = [] →
    field j.entry 8 2 % 16384 = q →
    (nextWr t r 0 1 = some j → (qp t q).made = false → exec (.create r) s =
      .next (storeCtx q (failAccess j.sq j.first) (fun s => endCtl j 0 0 0 0 (setQp q (qpOf s j.entry) s)) t)) ∧
    (nextWr t r 0 1 = some j → (qp t q).made = true → exec (.create r) s = .next (endCtl j 6 0 0 0 t)) ∧
    (nextWr t r 0 2 = some j → (qp t q).made = true → qpMoves (qp t q).st (field j.entry 10 1 % 8) = true →
      exec (.modify r) s = .next (storeCtx q (failAccess j.sq j.first)
        (fun s => endCtl j 0 0 0 0 (qpMove q (field j.entry 10 1 % 8) j.entry s)) t)) ∧
    (nextWr t r 0 2 = some j → qpMoves (qp t q).st (field j.entry 10 1 % 8) = false →
      exec (.modify r) s = .next (endCtl j 6 0 0 0 t)) ∧
    (nextWr t r 0 3 = some j → (qp t q).made = true → exec (.query r) s = .next (endCtl j 0 (qp t q).st.code (qp t q).rate
      ((qp t q).sqPsn + (qp t q).rqPsn * 2 ^ 32) t)) ∧
    (nextWr t r 0 4 = some j → (qp t q).made = true → exec (.destroy r) s =
      .next (storeCtx q (failAccess j.sq j.first) (fun s => endCtl j 0 0 0 0
        (dropConns (fun k => k = q) (cacheForget q (setQp q Qp.none (qpFlush q s))))) t)) ∧
    (nextWr t r 0 5 = some j → (qp t q).made = true → q ∉ t.net.pinned → t.net.pinned.length < 64 → q ∈ t.net.cache →
      exec (.pin r) s = .next (endCtl j 0 0 0 0 (modNet (fun n => { n with pinned := q :: n.pinned }) (cacheTouch q t)))) ∧
    (nextWr t r 0 6 = some j → exec (.unpin r) s =
      .next (endCtl j 0 0 0 0 { t with net := { t.net with pinned := t.net.pinned.filter (· ≠ q) } })) ∧
    (nextWr t r 0 7 = some j → (qp t q).made = true → (qp t q).st = .init → exec (.bindMailbox r) s =
      .next (endCtl j 0 0 0 0 (setQp q { qp t q with mailbox := some (byteAt j.entry 10).toNat } t))) ∧
    (nextWr t r 0 8 = some j → (Sparse.get (fun _ => Adv.none) t.net.adv (field j.entry 8 2 % 4096)).qp = 0 →
      exec (.advertise r) s = .next (endCtl j 0 0 0 0 { t with net := { t.net with
        adv := Sparse.set (fun _ => Adv.none) t.net.adv (field j.entry 8 2 % 4096)
          ⟨field j.entry 10 2 % 16384, field j.entry 16 5, field j.entry 24 8, field j.entry 32 4⟩ } })) ∧
    (nextWr t r 0 9 = some j → exec (.withdraw r) s = .next (endCtl j 0 0 0 0 { t with net := { t.net with
      adv := Sparse.set (fun _ => Adv.none) t.net.adv (field j.entry 8 2 % 4096) Adv.none } })) ∧
    (nextWr t r 1 1 = some j → (qp t q).rnrWait = false → t.engineMay 0 (field j.entry 16 5) (field j.entry 24 4) = true →
      exec (.send r) s = .next (startWr false j
        (fun k s => netSend (.send k (t.bytes (field j.entry 16 5) (field j.entry 24 4))) s) t)) ∧
    (nextWr t r 1 2 = some j → (qp t q).rnrWait = false → t.engineMay 0 (field j.entry 16 5) (field j.entry 24 4) = true →
      exec (.rdmaWrite r) s = .next (startWr false j (fun k s => netSend (.rdmaWrite k (field j.entry 32 8)
        (field j.entry 40 4) (t.bytes (field j.entry 16 5) (field j.entry 24 4))) s) t)) ∧
    (nextWr t r 1 3 = some j → (qp t q).rnrWait = false →
      (t.net.wrs.filter fun w => w.qp = q && w.read).length < (qp t q).maxRd → exec (.rdmaRead r) s =
        .next (startWr true j (fun k s => netSend (.rdmaRead k (field j.entry 32 8) (field j.entry 40 4)
          (field j.entry 24 4)) s) t)) ∧
    (nextWr t r 2 1 = some j → mayTransmit t ((byteAt j.entry 8).toNat % 2) 0 = true →
      t.engineMay 0 (field j.entry 16 5) (field j.entry 24 2) = true → exec (.transmit r) s =
        .next (netSend (.raw ((byteAt j.entry 8).toNat % 2) (t.bytes (field j.entry 16 5) (field j.entry 24 2)))
          (finishJob j.sq j.first ⟨0, field j.entry 24 2, 0, 0, 0⟩ t)))

/-- Object commands and barriers of Stepata: a capsule placed while no command is outstanding, whose checks pass and
which may start, starts and does its opcode's work (R83, R90 to R95, R101, R117, R120). -/
def Obligations.ObjectCommandsStart : Prop :=
  ∀ (q : Fin 16384) (cap : List Byte) (o : CmdObs) (s : State), s.live = true →
    (capsuleRuns 0x10 q cap o s = true → exec (.put q cap o) s = .next (pumpN 6
      (startChange (startingCmd 0x10 q cap o s) (checkedAt 0x10 q cap o s)))) ∧
    (capsuleRuns 0x11 q cap o s = true → exec (.get q cap o) s = .next (pumpN 6
      (runGet (startingCmd 0x11 q cap o s) (checkedAt 0x11 q cap o s)))) ∧
    (capsuleRuns 0x12 q cap o s = true → exec (.write q cap o) s = .next (pumpN 6
      (startChange (startingCmd 0x12 q cap o s) (checkedAt 0x12 q cap o s)))) ∧
    (capsuleRuns 0x13 q cap o s = true → exec (.delete q cap o) s = .next (pumpN 6
      (startChange (startingCmd 0x13 q cap o s) (checkedAt 0x13 q cap o s)))) ∧
    (capsuleRuns 0x14 q cap o s = true → exec (.head q cap o) s = .next (pumpN 6
      (svcAnswer (startingCmd 0x14 q cap o s) (headAns (checkedAt 0x14 q cap o s) (startingCmd 0x14 q cap o s))
        (checkedAt 0x14 q cap o s)))) ∧
    (capsuleRuns 0x15 q cap o s = true → exec (.list q cap o) s = .next (pumpN 6
      (runList (startingCmd 0x15 q cap o s) (checkedAt 0x15 q cap o s)))) ∧
    (capsuleRuns 0x20 q cap o s = true → exec (.flush q cap o) s = .next (pumpN 6
      (runBarrier (startingCmd 0x20 q cap o s) (checkedAt 0x20 q cap o s)))) ∧
    (capsuleRuns 0x21 q cap o s = true → exec (.destage q cap o) s = .next (pumpN 6
      (runBarrier (startingCmd 0x21 q cap o s) (checkedAt 0x21 q cap o s)))) ∧
    (capsuleRuns 0x22 q cap o s = true → exec (.order q cap o) s = .next (pumpN 6
      (svcAnswer (startingCmd 0x22 q cap o s) {} (checkedAt 0x22 q cap o s)))) ∧
    (capsuleRuns 0x50 q cap o s = true → exec (.repairBuild q cap o) s = .next (pumpN 6
      (startChange (startingCmd 0x50 q cap o s) (checkedAt 0x50 q cap o s))))

/-- Session, feature, power, firmware, maintenance, recorder and queue commands of Stepata: a capsule placed while no
command is outstanding, whose checks pass and which may start, starts and does its opcode's work (R83, R87 to R89, R96
to R108, R117, R127). -/
def Obligations.AdminCommandsStart : Prop :=
  ∀ (q : Fin 16384) (cap : List Byte) (o : CmdObs) (s : State), s.live = true →
    (capsuleRuns 0x01 q cap o s = true → exec (.connect q cap o) s = .next (pumpN 6
      (runConnect (startingCmd 0x01 q cap o s) (checkedAt 0x01 q cap o s)))) ∧
    (capsuleRuns 0x02 q cap o s = true → exec (.disconnect q cap o) s = .next (pumpN 6
      (runDisconnect (startingCmd 0x02 q cap o s) (checkedAt 0x02 q cap o s)))) ∧
    (capsuleRuns 0x03 q cap o s = true → exec (.identify q cap o) s = .next (pumpN 6
      (svcAnswer (startingCmd 0x03 q cap o s) { r0 := 4096, host := fit 4096 (Machine.identify (checkedAt 0x03 q cap o s)) }
        (checkedAt 0x03 q cap o s)))) ∧
    (capsuleRuns 0x30 q cap o s = true → exec (.getFeature q cap o) s = .next (pumpN 6
      (let f := cdw (startingCmd 0x30 q cap o s).cap 0 % 65536
       let t := checkedAt 0x30 q cap o s
       svcAnswer (startingCmd 0x30 q cap o s) { r0 := feature t f, r1 := savedFeature t f } t))) ∧
    (capsuleRuns 0x31 q cap o s = true → exec (.setFeature q cap o) s = .next (pumpN 6
      (runSetFeature (startingCmd 0x31 q cap o s) (checkedAt 0x31 q cap o s)))) ∧
    (capsuleRuns 0x32 q cap o s = true → exec (.powerState q cap o) s = .next (pumpN 6
      (runPowerState (startingCmd 0x32 q cap o s) (checkedAt 0x32 q cap o s)))) ∧
    (capsuleRuns 0x40 q cap o s = true → exec (.fwStage q cap o) s = .next (pumpN 6
      (runStage (startingCmd 0x40 q cap o s) (pull (startingCmd 0x40 q cap o s) (checkedAt 0x40 q cap o s))))) ∧
    (capsuleRuns 0x41 q cap o s = true → exec (.fwActivate q cap o) s = .next (pumpN 6
      (runActivate (startingCmd 0x41 q cap o s) (checkedAt 0x41 q cap o s)))) ∧
    (capsuleRuns 0x42 q cap o s = true → exec (.formatEpochAdvance q cap o) s = .next (pumpN 6
      (runEpoch (startingCmd 0x42 q cap o s) (checkedAt 0x42 q cap o s)))) ∧
    (capsuleRuns 0x60 q cap o s = true → exec (.scrub q cap o) s = .next (pumpN 6
      (modCmd (startingCmd 0x60 q cap o s).seq (fun y => { y with started := true }) (checkedAt 0x60 q cap o s)))) ∧
    (capsuleRuns 0x61 q cap o s = true → exec (.sanitize q cap o) s = .next (pumpN 6
      (runSanitize (startingCmd 0x61 q cap o s) (pull (startingCmd 0x61 q cap o s) (checkedAt 0x61 q cap o s))))) ∧
    (capsuleRuns 0x62 q cap o s = true → exec (.attest q cap o) s = .next (pumpN 6
      (runAttest (startingCmd 0x62 q cap o s) (checkedAt 0x62 q cap o s)))) ∧
    (capsuleRuns 0x63 q cap o s = true → exec (.setTime q cap o) s = .next (pumpN 6
      (runSetTime (startingCmd 0x63 q cap o s) (checkedAt 0x63 q cap o s)))) ∧
    (capsuleRuns 0x64 q cap o s = true → exec (.recorderRead q cap o) s = .next (pumpN 6
      (runRecorderRead (startingCmd 0x64 q cap o s) (checkedAt 0x64 q cap o s)))) ∧
    (capsuleRuns 0x65 q cap o s = true → exec (.recorderClear q cap o) s = .next (pumpN 6
      (runRecorderClear (startingCmd 0x65 q cap o s) (pull (startingCmd 0x65 q cap o s) (checkedAt 0x65 q cap o s))))) ∧
    (capsuleRuns 0x70 q cap o s = true → exec (.errorLogRead q cap o) s = .next (pumpN 6
      (runLogRead (startingCmd 0x70 q cap o s) (checkedAt 0x70 q cap o s)))) ∧
    (capsuleRuns 0x71 q cap o s = true → exec (.queueRestart q cap o) s = .next (pumpN 6
      (runRestart (startingCmd 0x71 q cap o s) (checkedAt 0x71 q cap o s)))) ∧
    (capsuleRuns 0x72 q cap o s = true → exec (.abort q cap o) s = .next (pumpN 6
      (runAbort (startingCmd 0x72 q cap o s) (checkedAt 0x72 q cap o s))))

/-- The service image's own work while it runs: a power state that holds is entered, an entry is turned back for a command
that needs the media, a change commits, or is answered with what keeps it from committing, a committed change is
acknowledged, a live activation suspends what still runs, and times out, a destage starts at the high-water mark, and
the next staged page whose live blocks stand on the disk is released (R112, R113, R134 to R136, R231, R232). -/
def Obligations.ServiceEvents : Prop :=
  ∀ s : State, s.live = true →
    (∀ e : Entering, svcLive s = true → (svcFresh s).svc.entering = some e → e.working = true →
      stateHolds (svcFresh s) e.state = true → reverses e (svcFresh s) = false → exec .powerStateEntered s = .next (enterState e (svcFresh s))) ∧
    (∀ e : Entering, svcLive s = true → (svcFresh s).svc.entering = some e → reverses e (svcFresh s) = true →
      exec .powerStateReversal s = .next (
        let p := (svcFresh s).svc.ps
        pump (answerEntry e { r0 := p, r1 := p } (modSvc (fun v => { v with entering := some ⟨p, none, [], true⟩ })
          (svcFresh s))))) ∧
    (∀ (q : Fin 16384) (tag : BitVec 16) (x : Cmd), svcLive s = true → cmdAt (svcFresh s) q tag.toNat = some x →
      changes (capOp x.cap) = true → x.started = true → x.committed = none → x.suspended = false →
      mediaThere (svcFresh s) x = true →
      (changeFault (svcFresh s) x = none → exec (.writeCommit q tag) s = .next (pump (commitChange x (svcFresh s)))) ∧
      (∀ st d, changeFault (svcFresh s) x = some (st, d) → exec (.writeCommit q tag) s =
        .next (pump (svcAnswer x { st := st, detail := d } (noteSet x st (svcFresh s)))))) ∧
    (∀ (q : Fin 16384) (tag : BitVec 16) (x : Cmd) (n gen : Nat) (fault : Bool), svcLive s = true →
      cmdAt (svcFresh s) q tag.toNat = some x → x.committed = some (n, gen) → x.suspended = false →
      exec (.writeAcknowledge q tag fault) s = .next (pump (ackChange x n gen fault (svcFresh s)))) ∧
    (svcLive s = true → (svcFresh s).svc.paused = true → (svcFresh s).cru.activation = none →
      cruFree (svcFresh s) = true → stagedImage (svcFresh s) 2 = true → exec .activationSuspend s =
        .next (activateLive (modSvc (fun v => { v with cmds := v.cmds.map suspend }) (svcFresh s)))) ∧
    (s.cru.activation ≠ none → exec .activationTimeout s = .next (activationEnds { st := 0x405 } (activationFail s))) ∧
    (svcLive s = true → exec .destageStart s =
      .next (modSvc (fun v => { v with destaging := v.destaging || atHighWater (svcFresh s) }) (svcFresh s))) ∧
    (∀ (pbas : List (BitVec 36)) (p : Staged), svcLive s = true → nextPage (svcFresh s) = some p →
      mayDestage (svcFresh s) = true → mediaUp (svcFresh s) = true →
      (∀ a ∈ pbas, (svcFresh s).fenced (2 + (zoneEnt (svcFresh s) (a.toNat / 2 ^ 17)).act) = false) → pageOnDisk (svcFresh s) p (pbas.map BitVec.toNat) = true →
      exec (.stagedPageRelease pbas) s = .next (pump (releasePage p (pbas.map BitVec.toNat) (svcFresh s))))

/-- Sideband messages that Crucible serves in a lifecycle state that allows them, and the MCTP messages of other types:
what each answers and changes; a control message to another address, and one of a type that is not served, has no effect,
and on I3C a dynamic address may be assigned (R70, R71, R498, R499, R516 to R518, R540 to R544). -/
def Obligations.SidebandCommands : Prop :=
  ∀ (v : BitVec 32) (s : State), s.live = true → cruFree s = true → v.toNat = vendorNumber s → 1 ≤ s.lcState →
    (∀ (dest : BitVec 7) (msg : List Byte), sbAddress s = some dest → exec (.mctpControlMessage ⟨dest, none, 0, msg⟩) s =
      .next (sbSend ([0, byteAt msg 1 &&& 0x1F, byteAt msg 2] ++ (s.drawBytes 8).1) (s.drawBytes 8).2)) ∧
    (∀ (dest type : BitVec 7) (msg : List Byte), sbAddress s ≠ some dest ∨ type ≠ 0 →
      exec (.mctpControlMessage ⟨dest, none, type, msg⟩) s = .next s) ∧
    (∀ (dest a type : BitVec 7) (msg : List Byte), s.pwr.sbMode = 2 → dest ≠ a →
      exec (.mctpControlMessage ⟨dest, some a, type, msg⟩) s = .next (modCru (fun c => { c with i3cAddr := some a }) s)) ∧
    (s.lcState ≤ 4 → exec (.identityGet v) s = .next (sbReply v 1 0 (identify s ++ identityKey s) s)) ∧
    (∀ nonce, s.lcState ≤ 4 → exec (.sidebandAttest v nonce) s = .next (sbReply v 2 0 (report nonce s) s)) ∧
    (∀ auth fl, s.lcState ≤ 3 → lcWaits s = false → exec (.sidebandLcSet v auth fl) s =
      .next (if (reqLcSet auth fl s).st = 0 then (reqLcSet auth fl s).s
        else sbReply v 3 (reqLcSet auth fl s).st [] (reqLcSet auth fl s).s)) ∧
    (∀ digest, s.lcState = 1 → digest.length = 32 → bit s.vaultWord 2 = false → exec (.keyslotSet v 1 digest) s =
      .next (sbReply v 4 0 [] (burnVault 4 (modFuses (fun u => { u with slot1 := orBytes u.slot1 digest }) s)))) ∧
    (∀ auth fl, 2 ≤ s.lcState → s.lcState ≤ 3 → exec (.authAction v auth fl) s =
      .next (sbReply v 5 (reqAuthAction auth fl s).st [] (reqAuthAction auth fl s).s)) ∧
    (∀ (seq : BitVec 32) (n : BitVec 8) (r : List Byte), s.lcState ≤ 4 → 1 ≤ n.toNat → n.toNat ≤ 8 →
      (recordsFrom s seq.toNat n.toNat).getLast? = some r → exec (.recRead v seq n) s = .next (sbReply v 0x10 0
        (leBytes 1 (recordsFrom s seq.toNat n.toNat).length ++ leBytes 4 ((field r 8 4 + 1) % 2 ^ 32) ++
          (recordsFrom s seq.toNat n.toNat).flatten) s)) ∧
    (∀ on : BitVec 8, s.lcState ≤ 4 → on.toNat ≤ 1 →
      exec (.recFreeze v on) s = .next (sbReply v 0x11 0 [] (setFreeze true (on = 1) s))) ∧
    (∀ auth fl, s.lcState ≤ 3 → exec (.recClear v auth fl) s = .next (sbReply v 0x12 (reqAuthClear auth s).st []
      (if (reqAuthClear auth s).st = 0 then recClear fl (reqAuthClear auth s).s else (reqAuthClear auth s).s))) ∧
    (s.lcState ≤ 4 → exec (.recStatus v) s = .next (sbReply v 0x13 0 (leBytes 4 (evcStatus s).toNat ++
      leBytes 4 s.evc.nextSeq ++ leBytes 4 ((((keptRecords s).find? recCrcOk).map fun b => field b 8 4).getD 0) ++
      ([Reg.EVC_LOST, Reg.EVC_FULL_DROPS, Reg.EVC_FROZEN_DROPS, Reg.EVC_SUPPRESSED].flatMap fun a =>
        leBytes 4 (s.reg a).toNat)) s))

/-- The budget arbiter never overspends: whatever the pool, the four metered functions' grants of one window add up to
no more than it, a function of weight 0 or with a balance at or above its ceiling is granted nothing, and a grant
leaves a balance no higher than the function's ceiling (R430). -/
def Obligations.BudgetGrantsFit : Prop :=
  ∀ (s : State) (pool : Nat),
    (windowGrants s pool).length = 4 ∧ (windowGrants s pool).sum ≤ pool ∧
    ∀ f : Nat, 2 ≤ f → f ≤ 5 →
      (baWeight s f = 0 ∨ baMax s f ≤ balance s f → (windowGrants s pool).getD (f - 2) 0 = 0) ∧
      ((windowGrants s pool).getD (f - 2) 0 ≠ 0 → balance s f + (windowGrants s pool).getD (f - 2) 0 ≤ baMax s f)
end

