-- ==== Sys2Proof/Laws/Sparse.lean ====
section
/-!
SUPPORT. Laws/Sparse.lean: what reading, writing and clearing a sparse map do, and that they keep the canonical form.
-/

namespace Sys2Proof.Sparse

variable {α : Type}

theorem lookup_filter_ne (m : Sparse α) (k j : Nat) (h : j ≠ k) :
    (m.filter fun e => e.1 ≠ k).lookup j = m.lookup j := by
  induction m with
  | nil => rfl
  | cons e t ih =>
    obtain ⟨a, v⟩ := e
    by_cases ha : a = k
    · subst ha
      have : (j == a) = false := by simpa using h
      simpa [List.lookup_cons, this] using ih
    · by_cases hj : j = a
      · subst hj
        simp [ha]
      · have : (j == a) = false := by simpa using hj
        simpa [ha, List.lookup_cons, this] using ih

theorem lookup_filter_self (m : Sparse α) (k : Nat) : (m.filter fun e => e.1 ≠ k).lookup k = none := by
  induction m with
  | nil => rfl
  | cons e t ih =>
    obtain ⟨a, v⟩ := e
    by_cases ha : a = k
    · simpa [ha] using ih
    · have : (k == a) = false := by simpa using fun h => ha h.symm
      simpa [ha, List.lookup_cons, this] using ih

theorem lookup_ins_ne (m : Sparse α) (k j : Nat) (v : α) (h : j ≠ k) : (ins k v m).lookup j = m.lookup j := by
  have hk : (j == k) = false := by simpa using h
  induction m with
  | nil => simpa [ins] using h
  | cons e t ih =>
    obtain ⟨a, w⟩ := e
    by_cases ha : k < a
    · simp [ins, ha, List.lookup_cons, hk]
    · simp only [ins, ha, if_false, List.lookup_cons, ih]

theorem lookup_ins_self (m : Sparse α) (k : Nat) (v : α) (h : m.lookup k = none) : (ins k v m).lookup k = some v := by
  induction m with
  | nil => simp [ins]
  | cons e t ih =>
    obtain ⟨a, w⟩ := e
    by_cases ha : k < a
    · simp [ins, ha]
    · have hka : (k == a) = false := by
        by_contra hc
        simp only [Bool.not_eq_false] at hc
        simp [List.lookup_cons, hc] at h
      simp only [List.lookup_cons, hka] at h
      simp only [ins, ha, if_false, List.lookup_cons, hka]
      exact ih h

variable [DecidableEq α]

/-- A read after a write to the same key gives the value written. -/
@[simp] theorem get_set_self (d : Nat → α) (m : Sparse α) (k : Nat) (v : α) : get d (set d m k v) k = v := by
  unfold get set
  by_cases hv : v = d k
  · simp only [hv, if_true, lookup_filter_self]
  · simp only [hv, if_false, lookup_ins_self _ _ _ (lookup_filter_self m k)]

/-- A write leaves every other key alone. -/
theorem get_set_ne (d : Nat → α) (m : Sparse α) (k j : Nat) (v : α) (h : j ≠ k) : get d (set d m k v) j = get d m j := by
  unfold get set
  by_cases hv : v = d k
  · simp only [hv, if_true, lookup_filter_ne _ _ _ h]
  · simp only [hv, if_false, lookup_ins_ne _ _ _ _ h, lookup_filter_ne _ _ _ h]

theorem get_set (d : Nat → α) (m : Sparse α) (k j : Nat) (v : α) :
    get d (set d m k v) j = if j = k then v else get d m j := by
  by_cases h : j = k
  · simp [h]
  · simp [h, get_set_ne _ _ _ _ _ h]

omit [DecidableEq α] in
theorem get_clear (d : Nat → α) (m : Sparse α) (p : Nat → Bool) (j : Nat) :
    get d (clear m p) j = if p j then d j else get d m j := by
  unfold get clear
  have : (m.filter fun e => !p e.1).lookup j = if p j then none else m.lookup j := by
    induction m with
    | nil => simp
    | cons e t ih =>
      obtain ⟨a, v⟩ := e
      by_cases hj : j = a
      · subst hj
        cases hp : p j
        · simp [hp]
        · simpa [hp] using ih
      · have hb : (j == a) = false := by simpa using hj
        cases hp : p a
        · simp only [List.filter_cons, hp, Bool.not_false, if_true, List.lookup_cons, hb, ih]
        · simp only [List.filter_cons, hp, Bool.not_true, Bool.false_eq_true, if_false, List.lookup_cons, hb, ih]
  rw [this]
  by_cases hp : p j <;> simp [hp]

/-- A list of bytes stored at consecutive keys leaves every other key alone. -/
theorem get_setList_of_lt (d : Nat → α) (m : Sparse α) (k j : Nat) (vs : List α) (h : j < k ∨ k + vs.length ≤ j) :
    get d (setList d m k vs) j = get d m j := by
  induction vs generalizing m k with
  | nil => rfl
  | cons v vs ih =>
    simp only [List.length_cons] at h
    rw [setList, ih _ _ (by omega), get_set_ne _ _ _ _ _ (by omega)]

/-- The byte stored at each of the keys. -/
theorem get_setList_at (d : Nat → α) (m : Sparse α) (k i : Nat) (vs : List α) (h : i < vs.length) :
    get d (setList d m k vs) (k + i) = vs[i] := by
  induction vs generalizing m k i with
  | nil => simp at h
  | cons v vs ih =>
    cases i with
    | zero =>
      rw [setList, get_setList_of_lt _ _ _ _ _ (by omega)]
      simp
    | succ i =>
      have := ih (set d m k v) (k + 1) i (by simpa using h)
      rw [setList, show k + (i + 1) = k + 1 + i by omega, this]
      simp

/-! ## The canonical form -/

/-- The canonical form as a statement: keys strictly rising, no entry at its default. -/
theorem wf_iff (d : Nat → α) (m : Sparse α) :
    wf d m = true ↔ m.Pairwise (fun a b => a.1 < b.1) ∧ ∀ e ∈ m, e.2 ≠ d e.1 := by
  induction m with
  | nil => simp [wf]
  | cons e t ih =>
    obtain ⟨k, v⟩ := e
    cases t with
    | nil => simp [wf]
    | cons f t =>
      obtain ⟨k', v'⟩ := f
      simp only [wf, Bool.and_eq_true, decide_eq_true_eq, ih, List.pairwise_cons, List.mem_cons]
      constructor
      · rintro ⟨⟨hv, hk⟩, ⟨h1, h2⟩, h3⟩
        refine ⟨⟨?_, h1, h2⟩, ?_⟩
        · rintro a (rfl | ha)
          · exact hk
          · exact lt_trans hk (h1 a ha)
        · rintro a (rfl | ha)
          · exact hv
          · exact h3 a ha
      · rintro ⟨⟨h1, h2, h3⟩, h4⟩
        exact ⟨⟨h4 (k, v) (Or.inl rfl), h1 (k', v') (Or.inl rfl)⟩, ⟨h2, h3⟩, fun a ha => h4 a (Or.inr ha)⟩

theorem ins_mem (m : Sparse α) (k : Nat) (v : α) (e : Nat × α) : e ∈ ins k v m ↔ e = (k, v) ∨ e ∈ m := by
  induction m with
  | nil => simp [ins]
  | cons f t ih =>
    obtain ⟨a, w⟩ := f
    by_cases ha : k < a
    · simp [ins, ha]
    · simp only [ins, ha, if_false, List.mem_cons, ih]
      tauto

theorem ins_sorted (m : Sparse α) (k : Nat) (v : α) (hm : m.Pairwise fun a b => a.1 < b.1) (hk : ∀ e ∈ m, e.1 ≠ k) :
    (ins k v m).Pairwise fun a b => a.1 < b.1 := by
  induction m with
  | nil => simp [ins]
  | cons f t ih =>
    obtain ⟨a, w⟩ := f
    have hp := List.pairwise_cons.1 hm
    by_cases ha : k < a
    · simp only [ins, ha, if_true]
      refine List.pairwise_cons.2 ⟨?_, hm⟩
      intro e he
      rcases List.mem_cons.1 he with rfl | he
      · exact ha
      · exact lt_trans ha (hp.1 e he)
    · simp only [ins, ha, if_false]
      refine List.pairwise_cons.2 ⟨?_, ih hp.2 fun e he => hk e (List.mem_cons_of_mem _ he)⟩
      intro e he
      rcases (ins_mem t k v e).1 he with rfl | he
      · have : a ≠ k := hk (a, w) (by simp)
        show a < k
        omega
      · exact hp.1 e he

/-- A write keeps the canonical form. -/
theorem set_wf (d : Nat → α) (m : Sparse α) (k : Nat) (v : α) (h : wf d m = true) : wf d (set d m k v) = true := by
  rw [wf_iff] at h ⊢
  have hs : (m.filter fun e => e.1 ≠ k).Pairwise fun a b => a.1 < b.1 := h.1.filter _
  have hd : ∀ e ∈ m.filter fun e => e.1 ≠ k, e.2 ≠ d e.1 := fun e he => h.2 e (List.mem_of_mem_filter he)
  unfold set
  by_cases hv : v = d k
  · simp only [hv, if_true]
    exact ⟨hs, hd⟩
  · simp only [hv, if_false]
    refine ⟨ins_sorted _ _ _ hs ?_, ?_⟩
    · intro e he
      simpa using (List.mem_filter.1 he).2
    · intro e he
      rcases (ins_mem _ k v e).1 he with rfl | he
      · exact hv
      · exact hd e he

/-- A write of consecutive keys keeps the canonical form. -/
theorem setList_wf (d : Nat → α) (m : Sparse α) (k : Nat) (vs : List α) (h : wf d m = true) :
    wf d (setList d m k vs) = true := by
  induction vs generalizing m k with
  | nil => exact h
  | cons v vs ih => exact ih _ _ (set_wf d m k v h)

/-- Clearing keys keeps the canonical form. -/
theorem clear_wf (d : Nat → α) (m : Sparse α) (p : Nat → Bool) (h : wf d m = true) : wf d (clear m p) = true := by
  rw [wf_iff] at h ⊢
  exact ⟨h.1.filter _, fun e he => h.2 e (List.mem_of_mem_filter he)⟩

end Sys2Proof.Sparse
end

