-- ==== Sys2Proof/Laws/State.lean ====
section
/-!
SUPPORT. Laws/State.lean: what each named update of the state leaves in each field, and what reading a register or a byte gives
after it.
-/

namespace Sys2Proof.Machine.State

open Sys2Proof

@[simp] theorem setReg_pending (s : State) (a : Nat) (v : Word) : (s.setReg a v).pending = s.pending := rfl
@[simp] theorem setReg_mem (s : State) (a : Nat) (v : Word) : (s.setReg a v).mem = s.mem := rfl
@[simp] theorem setReg_resp (s : State) (a : Nat) (v : Word) : (s.setReg a v).resp = s.resp := rfl
@[simp] theorem setReg_timeUs (s : State) (a : Nat) (v : Word) : (s.setReg a v).timeUs = s.timeUs := rfl
@[simp] theorem setReg_drawn (s : State) (a : Nat) (v : Word) : (s.setReg a v).drawn = s.drawn := rfl
@[simp] theorem setReg_evc (s : State) (a : Nat) (v : Word) : (s.setReg a v).evc = s.evc := rfl
@[simp] theorem setReg_mu (s : State) (a : Nat) (v : Word) : (s.setReg a v).mu = s.mu := rfl
@[simp] theorem setReg_pwr (s : State) (a : Nat) (v : Word) : (s.setReg a v).pwr = s.pwr := rfl
@[simp] theorem setReg_rings (s : State) (a : Nat) (v : Word) : (s.setReg a v).rings = s.rings := rfl
@[simp] theorem setReg_efts (s : State) (a : Nat) (v : Word) : (s.setReg a v).efts = s.efts := rfl
@[simp] theorem setReg_stg (s : State) (a : Nat) (v : Word) : (s.setReg a v).stg = s.stg := rfl
@[simp] theorem setReg_zone (s : State) (a : Nat) (v : Word) : (s.setReg a v).zone = s.zone := rfl
@[simp] theorem setReg_medA (s : State) (a : Nat) (v : Word) : (s.setReg a v).medA = s.medA := rfl
@[simp] theorem setReg_medB (s : State) (a : Nat) (v : Word) : (s.setReg a v).medB = s.medB := rfl
@[simp] theorem setReg_mot (s : State) (a : Nat) (v : Word) : (s.setReg a v).mot = s.mot := rfl
@[simp] theorem setReg_bud (s : State) (a : Nat) (v : Word) : (s.setReg a v).bud = s.bud := rfl
@[simp] theorem setReg_cal (s : State) (a : Nat) (v : Word) : (s.setReg a v).cal = s.cal := rfl
@[simp] theorem setReg_xfm (s : State) (a : Nat) (v : Word) : (s.setReg a v).xfm = s.xfm := rfl
@[simp] theorem setReg_cf (s : State) (a : Nat) (v : Word) : (s.setReg a v).cf = s.cf := rfl
@[simp] theorem setReg_cru (s : State) (a : Nat) (v : Word) : (s.setReg a v).cru = s.cru := rfl
@[simp] theorem setReg_net (s : State) (a : Nat) (v : Word) : (s.setReg a v).net = s.net := rfl
@[simp] theorem setReg_svc (s : State) (a : Nat) (v : Word) : (s.setReg a v).svc = s.svc := rfl

@[simp] theorem setRf_pending (s : State) (a hi lo v : Nat) : (s.setRf a hi lo v).pending = s.pending := rfl
@[simp] theorem setRf_mem (s : State) (a hi lo v : Nat) : (s.setRf a hi lo v).mem = s.mem := rfl
@[simp] theorem setRf_resp (s : State) (a hi lo v : Nat) : (s.setRf a hi lo v).resp = s.resp := rfl
@[simp] theorem setRf_timeUs (s : State) (a hi lo v : Nat) : (s.setRf a hi lo v).timeUs = s.timeUs := rfl
@[simp] theorem setRf_drawn (s : State) (a hi lo v : Nat) : (s.setRf a hi lo v).drawn = s.drawn := rfl
@[simp] theorem setRf_evc (s : State) (a hi lo v : Nat) : (s.setRf a hi lo v).evc = s.evc := rfl
@[simp] theorem setRf_mu (s : State) (a hi lo v : Nat) : (s.setRf a hi lo v).mu = s.mu := rfl
@[simp] theorem setRf_pwr (s : State) (a hi lo v : Nat) : (s.setRf a hi lo v).pwr = s.pwr := rfl
@[simp] theorem setRf_rings (s : State) (a hi lo v : Nat) : (s.setRf a hi lo v).rings = s.rings := rfl
@[simp] theorem setRf_efts (s : State) (a hi lo v : Nat) : (s.setRf a hi lo v).efts = s.efts := rfl
@[simp] theorem setRf_stg (s : State) (a hi lo v : Nat) : (s.setRf a hi lo v).stg = s.stg := rfl
@[simp] theorem setRf_zone (s : State) (a hi lo v : Nat) : (s.setRf a hi lo v).zone = s.zone := rfl
@[simp] theorem setRf_medA (s : State) (a hi lo v : Nat) : (s.setRf a hi lo v).medA = s.medA := rfl
@[simp] theorem setRf_medB (s : State) (a hi lo v : Nat) : (s.setRf a hi lo v).medB = s.medB := rfl
@[simp] theorem setRf_mot (s : State) (a hi lo v : Nat) : (s.setRf a hi lo v).mot = s.mot := rfl
@[simp] theorem setRf_bud (s : State) (a hi lo v : Nat) : (s.setRf a hi lo v).bud = s.bud := rfl
@[simp] theorem setRf_cal (s : State) (a hi lo v : Nat) : (s.setRf a hi lo v).cal = s.cal := rfl
@[simp] theorem setRf_xfm (s : State) (a hi lo v : Nat) : (s.setRf a hi lo v).xfm = s.xfm := rfl
@[simp] theorem setRf_cf (s : State) (a hi lo v : Nat) : (s.setRf a hi lo v).cf = s.cf := rfl
@[simp] theorem setRf_cru (s : State) (a hi lo v : Nat) : (s.setRf a hi lo v).cru = s.cru := rfl
@[simp] theorem setRf_net (s : State) (a hi lo v : Nat) : (s.setRf a hi lo v).net = s.net := rfl
@[simp] theorem setRf_svc (s : State) (a hi lo v : Nat) : (s.setRf a hi lo v).svc = s.svc := rfl

@[simp] theorem setRb_pending (s : State) (a i : Nat) (b : Bool) : (s.setRb a i b).pending = s.pending := rfl
@[simp] theorem setRb_mem (s : State) (a i : Nat) (b : Bool) : (s.setRb a i b).mem = s.mem := rfl
@[simp] theorem setRb_resp (s : State) (a i : Nat) (b : Bool) : (s.setRb a i b).resp = s.resp := rfl
@[simp] theorem setRb_timeUs (s : State) (a i : Nat) (b : Bool) : (s.setRb a i b).timeUs = s.timeUs := rfl
@[simp] theorem setRb_drawn (s : State) (a i : Nat) (b : Bool) : (s.setRb a i b).drawn = s.drawn := rfl
@[simp] theorem setRb_evc (s : State) (a i : Nat) (b : Bool) : (s.setRb a i b).evc = s.evc := rfl
@[simp] theorem setRb_mu (s : State) (a i : Nat) (b : Bool) : (s.setRb a i b).mu = s.mu := rfl
@[simp] theorem setRb_pwr (s : State) (a i : Nat) (b : Bool) : (s.setRb a i b).pwr = s.pwr := rfl
@[simp] theorem setRb_rings (s : State) (a i : Nat) (b : Bool) : (s.setRb a i b).rings = s.rings := rfl
@[simp] theorem setRb_efts (s : State) (a i : Nat) (b : Bool) : (s.setRb a i b).efts = s.efts := rfl
@[simp] theorem setRb_stg (s : State) (a i : Nat) (b : Bool) : (s.setRb a i b).stg = s.stg := rfl
@[simp] theorem setRb_zone (s : State) (a i : Nat) (b : Bool) : (s.setRb a i b).zone = s.zone := rfl
@[simp] theorem setRb_medA (s : State) (a i : Nat) (b : Bool) : (s.setRb a i b).medA = s.medA := rfl
@[simp] theorem setRb_medB (s : State) (a i : Nat) (b : Bool) : (s.setRb a i b).medB = s.medB := rfl
@[simp] theorem setRb_mot (s : State) (a i : Nat) (b : Bool) : (s.setRb a i b).mot = s.mot := rfl
@[simp] theorem setRb_bud (s : State) (a i : Nat) (b : Bool) : (s.setRb a i b).bud = s.bud := rfl
@[simp] theorem setRb_cal (s : State) (a i : Nat) (b : Bool) : (s.setRb a i b).cal = s.cal := rfl
@[simp] theorem setRb_xfm (s : State) (a i : Nat) (b : Bool) : (s.setRb a i b).xfm = s.xfm := rfl
@[simp] theorem setRb_cf (s : State) (a i : Nat) (b : Bool) : (s.setRb a i b).cf = s.cf := rfl
@[simp] theorem setRb_cru (s : State) (a i : Nat) (b : Bool) : (s.setRb a i b).cru = s.cru := rfl
@[simp] theorem setRb_net (s : State) (a i : Nat) (b : Bool) : (s.setRb a i b).net = s.net := rfl
@[simp] theorem setRb_svc (s : State) (a i : Nat) (b : Bool) : (s.setRb a i b).svc = s.svc := rfl

@[simp] theorem bump_pending (s : State) (a k : Nat) : (s.bump a k).pending = s.pending := rfl
@[simp] theorem bump_mem (s : State) (a k : Nat) : (s.bump a k).mem = s.mem := rfl
@[simp] theorem bump_resp (s : State) (a k : Nat) : (s.bump a k).resp = s.resp := rfl
@[simp] theorem bump_timeUs (s : State) (a k : Nat) : (s.bump a k).timeUs = s.timeUs := rfl
@[simp] theorem bump_drawn (s : State) (a k : Nat) : (s.bump a k).drawn = s.drawn := rfl
@[simp] theorem bump_evc (s : State) (a k : Nat) : (s.bump a k).evc = s.evc := rfl
@[simp] theorem bump_mu (s : State) (a k : Nat) : (s.bump a k).mu = s.mu := rfl
@[simp] theorem bump_pwr (s : State) (a k : Nat) : (s.bump a k).pwr = s.pwr := rfl
@[simp] theorem bump_rings (s : State) (a k : Nat) : (s.bump a k).rings = s.rings := rfl
@[simp] theorem bump_efts (s : State) (a k : Nat) : (s.bump a k).efts = s.efts := rfl
@[simp] theorem bump_stg (s : State) (a k : Nat) : (s.bump a k).stg = s.stg := rfl
@[simp] theorem bump_zone (s : State) (a k : Nat) : (s.bump a k).zone = s.zone := rfl
@[simp] theorem bump_medA (s : State) (a k : Nat) : (s.bump a k).medA = s.medA := rfl
@[simp] theorem bump_medB (s : State) (a k : Nat) : (s.bump a k).medB = s.medB := rfl
@[simp] theorem bump_mot (s : State) (a k : Nat) : (s.bump a k).mot = s.mot := rfl
@[simp] theorem bump_bud (s : State) (a k : Nat) : (s.bump a k).bud = s.bud := rfl
@[simp] theorem bump_cal (s : State) (a k : Nat) : (s.bump a k).cal = s.cal := rfl
@[simp] theorem bump_xfm (s : State) (a k : Nat) : (s.bump a k).xfm = s.xfm := rfl
@[simp] theorem bump_cf (s : State) (a k : Nat) : (s.bump a k).cf = s.cf := rfl
@[simp] theorem bump_cru (s : State) (a k : Nat) : (s.bump a k).cru = s.cru := rfl
@[simp] theorem bump_net (s : State) (a k : Nat) : (s.bump a k).net = s.net := rfl
@[simp] theorem bump_svc (s : State) (a k : Nat) : (s.bump a k).svc = s.svc := rfl

@[simp] theorem bumpRf_pending (s : State) (a hi lo k : Nat) : (s.bumpRf a hi lo k).pending = s.pending := rfl
@[simp] theorem bumpRf_mem (s : State) (a hi lo k : Nat) : (s.bumpRf a hi lo k).mem = s.mem := rfl
@[simp] theorem bumpRf_resp (s : State) (a hi lo k : Nat) : (s.bumpRf a hi lo k).resp = s.resp := rfl
@[simp] theorem bumpRf_timeUs (s : State) (a hi lo k : Nat) : (s.bumpRf a hi lo k).timeUs = s.timeUs := rfl
@[simp] theorem bumpRf_drawn (s : State) (a hi lo k : Nat) : (s.bumpRf a hi lo k).drawn = s.drawn := rfl
@[simp] theorem bumpRf_evc (s : State) (a hi lo k : Nat) : (s.bumpRf a hi lo k).evc = s.evc := rfl
@[simp] theorem bumpRf_mu (s : State) (a hi lo k : Nat) : (s.bumpRf a hi lo k).mu = s.mu := rfl
@[simp] theorem bumpRf_pwr (s : State) (a hi lo k : Nat) : (s.bumpRf a hi lo k).pwr = s.pwr := rfl
@[simp] theorem bumpRf_rings (s : State) (a hi lo k : Nat) : (s.bumpRf a hi lo k).rings = s.rings := rfl
@[simp] theorem bumpRf_efts (s : State) (a hi lo k : Nat) : (s.bumpRf a hi lo k).efts = s.efts := rfl
@[simp] theorem bumpRf_stg (s : State) (a hi lo k : Nat) : (s.bumpRf a hi lo k).stg = s.stg := rfl
@[simp] theorem bumpRf_zone (s : State) (a hi lo k : Nat) : (s.bumpRf a hi lo k).zone = s.zone := rfl
@[simp] theorem bumpRf_medA (s : State) (a hi lo k : Nat) : (s.bumpRf a hi lo k).medA = s.medA := rfl
@[simp] theorem bumpRf_medB (s : State) (a hi lo k : Nat) : (s.bumpRf a hi lo k).medB = s.medB := rfl
@[simp] theorem bumpRf_mot (s : State) (a hi lo k : Nat) : (s.bumpRf a hi lo k).mot = s.mot := rfl
@[simp] theorem bumpRf_bud (s : State) (a hi lo k : Nat) : (s.bumpRf a hi lo k).bud = s.bud := rfl
@[simp] theorem bumpRf_cal (s : State) (a hi lo k : Nat) : (s.bumpRf a hi lo k).cal = s.cal := rfl
@[simp] theorem bumpRf_xfm (s : State) (a hi lo k : Nat) : (s.bumpRf a hi lo k).xfm = s.xfm := rfl
@[simp] theorem bumpRf_cf (s : State) (a hi lo k : Nat) : (s.bumpRf a hi lo k).cf = s.cf := rfl
@[simp] theorem bumpRf_cru (s : State) (a hi lo k : Nat) : (s.bumpRf a hi lo k).cru = s.cru := rfl
@[simp] theorem bumpRf_net (s : State) (a hi lo k : Nat) : (s.bumpRf a hi lo k).net = s.net := rfl
@[simp] theorem bumpRf_svc (s : State) (a hi lo k : Nat) : (s.bumpRf a hi lo k).svc = s.svc := rfl

@[simp] theorem resetRegs_pending (s : State) (p : Nat → Bool) : (s.resetRegs p).pending = s.pending := rfl
@[simp] theorem resetRegs_mem (s : State) (p : Nat → Bool) : (s.resetRegs p).mem = s.mem := rfl
@[simp] theorem resetRegs_resp (s : State) (p : Nat → Bool) : (s.resetRegs p).resp = s.resp := rfl
@[simp] theorem resetRegs_timeUs (s : State) (p : Nat → Bool) : (s.resetRegs p).timeUs = s.timeUs := rfl
@[simp] theorem resetRegs_drawn (s : State) (p : Nat → Bool) : (s.resetRegs p).drawn = s.drawn := rfl
@[simp] theorem resetRegs_evc (s : State) (p : Nat → Bool) : (s.resetRegs p).evc = s.evc := rfl
@[simp] theorem resetRegs_mu (s : State) (p : Nat → Bool) : (s.resetRegs p).mu = s.mu := rfl
@[simp] theorem resetRegs_pwr (s : State) (p : Nat → Bool) : (s.resetRegs p).pwr = s.pwr := rfl
@[simp] theorem resetRegs_rings (s : State) (p : Nat → Bool) : (s.resetRegs p).rings = s.rings := rfl
@[simp] theorem resetRegs_efts (s : State) (p : Nat → Bool) : (s.resetRegs p).efts = s.efts := rfl
@[simp] theorem resetRegs_stg (s : State) (p : Nat → Bool) : (s.resetRegs p).stg = s.stg := rfl
@[simp] theorem resetRegs_zone (s : State) (p : Nat → Bool) : (s.resetRegs p).zone = s.zone := rfl
@[simp] theorem resetRegs_medA (s : State) (p : Nat → Bool) : (s.resetRegs p).medA = s.medA := rfl
@[simp] theorem resetRegs_medB (s : State) (p : Nat → Bool) : (s.resetRegs p).medB = s.medB := rfl
@[simp] theorem resetRegs_mot (s : State) (p : Nat → Bool) : (s.resetRegs p).mot = s.mot := rfl
@[simp] theorem resetRegs_bud (s : State) (p : Nat → Bool) : (s.resetRegs p).bud = s.bud := rfl
@[simp] theorem resetRegs_cal (s : State) (p : Nat → Bool) : (s.resetRegs p).cal = s.cal := rfl
@[simp] theorem resetRegs_xfm (s : State) (p : Nat → Bool) : (s.resetRegs p).xfm = s.xfm := rfl
@[simp] theorem resetRegs_cf (s : State) (p : Nat → Bool) : (s.resetRegs p).cf = s.cf := rfl
@[simp] theorem resetRegs_cru (s : State) (p : Nat → Bool) : (s.resetRegs p).cru = s.cru := rfl
@[simp] theorem resetRegs_net (s : State) (p : Nat → Bool) : (s.resetRegs p).net = s.net := rfl
@[simp] theorem resetRegs_svc (s : State) (p : Nat → Bool) : (s.resetRegs p).svc = s.svc := rfl

@[simp] theorem setBytes_pending (s : State) (a : Nat) (bs : List Byte) : (s.setBytes a bs).pending = s.pending := rfl
@[simp] theorem setBytes_regs (s : State) (a : Nat) (bs : List Byte) : (s.setBytes a bs).regs = s.regs := rfl
@[simp] theorem setBytes_resp (s : State) (a : Nat) (bs : List Byte) : (s.setBytes a bs).resp = s.resp := rfl
@[simp] theorem setBytes_timeUs (s : State) (a : Nat) (bs : List Byte) : (s.setBytes a bs).timeUs = s.timeUs := rfl
@[simp] theorem setBytes_drawn (s : State) (a : Nat) (bs : List Byte) : (s.setBytes a bs).drawn = s.drawn := rfl
@[simp] theorem setBytes_evc (s : State) (a : Nat) (bs : List Byte) : (s.setBytes a bs).evc = s.evc := rfl
@[simp] theorem setBytes_mu (s : State) (a : Nat) (bs : List Byte) : (s.setBytes a bs).mu = s.mu := rfl
@[simp] theorem setBytes_pwr (s : State) (a : Nat) (bs : List Byte) : (s.setBytes a bs).pwr = s.pwr := rfl
@[simp] theorem setBytes_rings (s : State) (a : Nat) (bs : List Byte) : (s.setBytes a bs).rings = s.rings := rfl
@[simp] theorem setBytes_efts (s : State) (a : Nat) (bs : List Byte) : (s.setBytes a bs).efts = s.efts := rfl
@[simp] theorem setBytes_stg (s : State) (a : Nat) (bs : List Byte) : (s.setBytes a bs).stg = s.stg := rfl
@[simp] theorem setBytes_zone (s : State) (a : Nat) (bs : List Byte) : (s.setBytes a bs).zone = s.zone := rfl
@[simp] theorem setBytes_medA (s : State) (a : Nat) (bs : List Byte) : (s.setBytes a bs).medA = s.medA := rfl
@[simp] theorem setBytes_medB (s : State) (a : Nat) (bs : List Byte) : (s.setBytes a bs).medB = s.medB := rfl
@[simp] theorem setBytes_mot (s : State) (a : Nat) (bs : List Byte) : (s.setBytes a bs).mot = s.mot := rfl
@[simp] theorem setBytes_bud (s : State) (a : Nat) (bs : List Byte) : (s.setBytes a bs).bud = s.bud := rfl
@[simp] theorem setBytes_cal (s : State) (a : Nat) (bs : List Byte) : (s.setBytes a bs).cal = s.cal := rfl
@[simp] theorem setBytes_xfm (s : State) (a : Nat) (bs : List Byte) : (s.setBytes a bs).xfm = s.xfm := rfl
@[simp] theorem setBytes_cf (s : State) (a : Nat) (bs : List Byte) : (s.setBytes a bs).cf = s.cf := rfl
@[simp] theorem setBytes_cru (s : State) (a : Nat) (bs : List Byte) : (s.setBytes a bs).cru = s.cru := rfl
@[simp] theorem setBytes_net (s : State) (a : Nat) (bs : List Byte) : (s.setBytes a bs).net = s.net := rfl
@[simp] theorem setBytes_svc (s : State) (a : Nat) (bs : List Byte) : (s.setBytes a bs).svc = s.svc := rfl

@[simp] theorem setFlash_pending (s : State) (a : Nat) (bs : List Byte) : (s.setFlash a bs).pending = s.pending := rfl
@[simp] theorem setFlash_regs (s : State) (a : Nat) (bs : List Byte) : (s.setFlash a bs).regs = s.regs := rfl
@[simp] theorem setFlash_mem (s : State) (a : Nat) (bs : List Byte) : (s.setFlash a bs).mem = s.mem := rfl
@[simp] theorem setFlash_resp (s : State) (a : Nat) (bs : List Byte) : (s.setFlash a bs).resp = s.resp := rfl
@[simp] theorem setFlash_timeUs (s : State) (a : Nat) (bs : List Byte) : (s.setFlash a bs).timeUs = s.timeUs := rfl
@[simp] theorem setFlash_drawn (s : State) (a : Nat) (bs : List Byte) : (s.setFlash a bs).drawn = s.drawn := rfl
@[simp] theorem setFlash_evc (s : State) (a : Nat) (bs : List Byte) : (s.setFlash a bs).evc = s.evc := rfl
@[simp] theorem setFlash_mu (s : State) (a : Nat) (bs : List Byte) : (s.setFlash a bs).mu = s.mu := rfl
@[simp] theorem setFlash_pwr (s : State) (a : Nat) (bs : List Byte) : (s.setFlash a bs).pwr = s.pwr := rfl
@[simp] theorem setFlash_rings (s : State) (a : Nat) (bs : List Byte) : (s.setFlash a bs).rings = s.rings := rfl
@[simp] theorem setFlash_efts (s : State) (a : Nat) (bs : List Byte) : (s.setFlash a bs).efts = s.efts := rfl
@[simp] theorem setFlash_stg (s : State) (a : Nat) (bs : List Byte) : (s.setFlash a bs).stg = s.stg := rfl
@[simp] theorem setFlash_zone (s : State) (a : Nat) (bs : List Byte) : (s.setFlash a bs).zone = s.zone := rfl
@[simp] theorem setFlash_medA (s : State) (a : Nat) (bs : List Byte) : (s.setFlash a bs).medA = s.medA := rfl
@[simp] theorem setFlash_medB (s : State) (a : Nat) (bs : List Byte) : (s.setFlash a bs).medB = s.medB := rfl
@[simp] theorem setFlash_mot (s : State) (a : Nat) (bs : List Byte) : (s.setFlash a bs).mot = s.mot := rfl
@[simp] theorem setFlash_bud (s : State) (a : Nat) (bs : List Byte) : (s.setFlash a bs).bud = s.bud := rfl
@[simp] theorem setFlash_cal (s : State) (a : Nat) (bs : List Byte) : (s.setFlash a bs).cal = s.cal := rfl
@[simp] theorem setFlash_xfm (s : State) (a : Nat) (bs : List Byte) : (s.setFlash a bs).xfm = s.xfm := rfl
@[simp] theorem setFlash_cru (s : State) (a : Nat) (bs : List Byte) : (s.setFlash a bs).cru = s.cru := rfl
@[simp] theorem setFlash_net (s : State) (a : Nat) (bs : List Byte) : (s.setFlash a bs).net = s.net := rfl
@[simp] theorem setFlash_svc (s : State) (a : Nat) (bs : List Byte) : (s.setFlash a bs).svc = s.svc := rfl

@[simp] theorem eraseFlash_pending (s : State) (a n : Nat) : (s.eraseFlash a n).pending = s.pending := rfl
@[simp] theorem eraseFlash_regs (s : State) (a n : Nat) : (s.eraseFlash a n).regs = s.regs := rfl
@[simp] theorem eraseFlash_mem (s : State) (a n : Nat) : (s.eraseFlash a n).mem = s.mem := rfl
@[simp] theorem eraseFlash_resp (s : State) (a n : Nat) : (s.eraseFlash a n).resp = s.resp := rfl
@[simp] theorem eraseFlash_timeUs (s : State) (a n : Nat) : (s.eraseFlash a n).timeUs = s.timeUs := rfl
@[simp] theorem eraseFlash_drawn (s : State) (a n : Nat) : (s.eraseFlash a n).drawn = s.drawn := rfl
@[simp] theorem eraseFlash_evc (s : State) (a n : Nat) : (s.eraseFlash a n).evc = s.evc := rfl
@[simp] theorem eraseFlash_mu (s : State) (a n : Nat) : (s.eraseFlash a n).mu = s.mu := rfl
@[simp] theorem eraseFlash_pwr (s : State) (a n : Nat) : (s.eraseFlash a n).pwr = s.pwr := rfl
@[simp] theorem eraseFlash_rings (s : State) (a n : Nat) : (s.eraseFlash a n).rings = s.rings := rfl
@[simp] theorem eraseFlash_efts (s : State) (a n : Nat) : (s.eraseFlash a n).efts = s.efts := rfl
@[simp] theorem eraseFlash_stg (s : State) (a n : Nat) : (s.eraseFlash a n).stg = s.stg := rfl
@[simp] theorem eraseFlash_zone (s : State) (a n : Nat) : (s.eraseFlash a n).zone = s.zone := rfl
@[simp] theorem eraseFlash_medA (s : State) (a n : Nat) : (s.eraseFlash a n).medA = s.medA := rfl
@[simp] theorem eraseFlash_medB (s : State) (a n : Nat) : (s.eraseFlash a n).medB = s.medB := rfl
@[simp] theorem eraseFlash_mot (s : State) (a n : Nat) : (s.eraseFlash a n).mot = s.mot := rfl
@[simp] theorem eraseFlash_bud (s : State) (a n : Nat) : (s.eraseFlash a n).bud = s.bud := rfl
@[simp] theorem eraseFlash_cal (s : State) (a n : Nat) : (s.eraseFlash a n).cal = s.cal := rfl
@[simp] theorem eraseFlash_xfm (s : State) (a n : Nat) : (s.eraseFlash a n).xfm = s.xfm := rfl
@[simp] theorem eraseFlash_cru (s : State) (a n : Nat) : (s.eraseFlash a n).cru = s.cru := rfl
@[simp] theorem eraseFlash_net (s : State) (a n : Nat) : (s.eraseFlash a n).net = s.net := rfl
@[simp] theorem eraseFlash_svc (s : State) (a n : Nat) : (s.eraseFlash a n).svc = s.svc := rfl

@[simp] theorem setEft_pending (s : State) (e : Nat) (x : Eft) : (s.setEft e x).pending = s.pending := rfl
@[simp] theorem setEft_regs (s : State) (e : Nat) (x : Eft) : (s.setEft e x).regs = s.regs := rfl
@[simp] theorem setEft_mem (s : State) (e : Nat) (x : Eft) : (s.setEft e x).mem = s.mem := rfl
@[simp] theorem setEft_resp (s : State) (e : Nat) (x : Eft) : (s.setEft e x).resp = s.resp := rfl
@[simp] theorem setEft_timeUs (s : State) (e : Nat) (x : Eft) : (s.setEft e x).timeUs = s.timeUs := rfl
@[simp] theorem setEft_drawn (s : State) (e : Nat) (x : Eft) : (s.setEft e x).drawn = s.drawn := rfl
@[simp] theorem setEft_evc (s : State) (e : Nat) (x : Eft) : (s.setEft e x).evc = s.evc := rfl
@[simp] theorem setEft_mu (s : State) (e : Nat) (x : Eft) : (s.setEft e x).mu = s.mu := rfl
@[simp] theorem setEft_pwr (s : State) (e : Nat) (x : Eft) : (s.setEft e x).pwr = s.pwr := rfl
@[simp] theorem setEft_rings (s : State) (e : Nat) (x : Eft) : (s.setEft e x).rings = s.rings := rfl
@[simp] theorem setEft_stg (s : State) (e : Nat) (x : Eft) : (s.setEft e x).stg = s.stg := rfl
@[simp] theorem setEft_zone (s : State) (e : Nat) (x : Eft) : (s.setEft e x).zone = s.zone := rfl
@[simp] theorem setEft_medA (s : State) (e : Nat) (x : Eft) : (s.setEft e x).medA = s.medA := rfl
@[simp] theorem setEft_medB (s : State) (e : Nat) (x : Eft) : (s.setEft e x).medB = s.medB := rfl
@[simp] theorem setEft_mot (s : State) (e : Nat) (x : Eft) : (s.setEft e x).mot = s.mot := rfl
@[simp] theorem setEft_bud (s : State) (e : Nat) (x : Eft) : (s.setEft e x).bud = s.bud := rfl
@[simp] theorem setEft_cal (s : State) (e : Nat) (x : Eft) : (s.setEft e x).cal = s.cal := rfl
@[simp] theorem setEft_xfm (s : State) (e : Nat) (x : Eft) : (s.setEft e x).xfm = s.xfm := rfl
@[simp] theorem setEft_cf (s : State) (e : Nat) (x : Eft) : (s.setEft e x).cf = s.cf := rfl
@[simp] theorem setEft_cru (s : State) (e : Nat) (x : Eft) : (s.setEft e x).cru = s.cru := rfl
@[simp] theorem setEft_net (s : State) (e : Nat) (x : Eft) : (s.setEft e x).net = s.net := rfl
@[simp] theorem setEft_svc (s : State) (e : Nat) (x : Eft) : (s.setEft e x).svc = s.svc := rfl

@[simp] theorem setFence_pending (s : State) (f : Nat) (b : Bool) : (s.setFence f b).pending = s.pending := rfl
@[simp] theorem setFence_regs (s : State) (f : Nat) (b : Bool) : (s.setFence f b).regs = s.regs := rfl
@[simp] theorem setFence_mem (s : State) (f : Nat) (b : Bool) : (s.setFence f b).mem = s.mem := rfl
@[simp] theorem setFence_resp (s : State) (f : Nat) (b : Bool) : (s.setFence f b).resp = s.resp := rfl
@[simp] theorem setFence_timeUs (s : State) (f : Nat) (b : Bool) : (s.setFence f b).timeUs = s.timeUs := rfl
@[simp] theorem setFence_drawn (s : State) (f : Nat) (b : Bool) : (s.setFence f b).drawn = s.drawn := rfl
@[simp] theorem setFence_evc (s : State) (f : Nat) (b : Bool) : (s.setFence f b).evc = s.evc := rfl
@[simp] theorem setFence_pwr (s : State) (f : Nat) (b : Bool) : (s.setFence f b).pwr = s.pwr := rfl
@[simp] theorem setFence_rings (s : State) (f : Nat) (b : Bool) : (s.setFence f b).rings = s.rings := rfl
@[simp] theorem setFence_efts (s : State) (f : Nat) (b : Bool) : (s.setFence f b).efts = s.efts := rfl
@[simp] theorem setFence_stg (s : State) (f : Nat) (b : Bool) : (s.setFence f b).stg = s.stg := rfl
@[simp] theorem setFence_zone (s : State) (f : Nat) (b : Bool) : (s.setFence f b).zone = s.zone := rfl
@[simp] theorem setFence_medA (s : State) (f : Nat) (b : Bool) : (s.setFence f b).medA = s.medA := rfl
@[simp] theorem setFence_medB (s : State) (f : Nat) (b : Bool) : (s.setFence f b).medB = s.medB := rfl
@[simp] theorem setFence_mot (s : State) (f : Nat) (b : Bool) : (s.setFence f b).mot = s.mot := rfl
@[simp] theorem setFence_bud (s : State) (f : Nat) (b : Bool) : (s.setFence f b).bud = s.bud := rfl
@[simp] theorem setFence_cal (s : State) (f : Nat) (b : Bool) : (s.setFence f b).cal = s.cal := rfl
@[simp] theorem setFence_xfm (s : State) (f : Nat) (b : Bool) : (s.setFence f b).xfm = s.xfm := rfl
@[simp] theorem setFence_cf (s : State) (f : Nat) (b : Bool) : (s.setFence f b).cf = s.cf := rfl
@[simp] theorem setFence_cru (s : State) (f : Nat) (b : Bool) : (s.setFence f b).cru = s.cru := rfl
@[simp] theorem setFence_net (s : State) (f : Nat) (b : Bool) : (s.setFence f b).net = s.net := rfl
@[simp] theorem setFence_svc (s : State) (f : Nat) (b : Bool) : (s.setFence f b).svc = s.svc := rfl

/-- A register reads what was set. -/
@[simp] theorem reg_setReg (s : State) (a : Nat) (v : Word) : (s.setReg a v).reg a = v := by
  simp [reg, setReg]

/-- Setting a register leaves every other one alone. -/
theorem reg_setReg_ne (s : State) (a b : Nat) (v : Word) (h : b ≠ a) : (s.setReg a v).reg b = s.reg b := by
  simp [reg, setReg, Sparse.get_set_ne _ _ _ _ _ h]

theorem reg_setReg_if (s : State) (a b : Nat) (v : Word) : (s.setReg a v).reg b = if b = a then v else s.reg b := by
  simp [reg, setReg, Sparse.get_set]

/-- A register is unchanged by whatever leaves the register file alone. -/
theorem reg_congr {s t : State} (h : t.regs = s.regs) (a : Nat) : t.reg a = s.reg a := by simp [reg, h]

/-- A byte is unchanged by whatever leaves memory alone. -/
theorem byte_congr {s t : State} (h : t.mem = s.mem) (a : Nat) : t.byte a = s.byte a := by simp [byte, h]

/-- Stored bytes read back. -/
theorem byte_setBytes_at (s : State) (a i : Nat) (bs : List Byte) (h : i < bs.length) :
    (s.setBytes a bs).byte (a + i) = bs[i] := Sparse.get_setList_at _ _ _ _ _ h

/-- A store leaves every byte outside it alone. -/
theorem byte_setBytes_of_lt (s : State) (a b : Nat) (bs : List Byte) (h : b < a ∨ a + bs.length ≤ b) :
    (s.setBytes a bs).byte b = s.byte b := Sparse.get_setList_of_lt _ _ _ _ _ h

/-- A store keeps the canonical form of memory. -/
theorem setBytes_wf (s : State) (a : Nat) (bs : List Byte) (h : Sparse.wf memDefault s.mem = true) :
    Sparse.wf memDefault (s.setBytes a bs).mem = true := Sparse.setList_wf _ _ _ _ h

/-- A register write keeps the canonical form of the register file, and so does a reset of registers. -/
theorem setReg_wf (s : State) (a : Nat) (v : Word) (h : Sparse.wf Reg.resetOf s.regs = true) :
    Sparse.wf Reg.resetOf (s.setReg a v).regs = true := Sparse.set_wf _ _ _ _ h

theorem resetRegs_wf (s : State) (p : Nat → Bool) (h : Sparse.wf Reg.resetOf s.regs = true) :
    Sparse.wf Reg.resetOf (s.resetRegs p).regs = true := Sparse.clear_wf _ _ _ h

/-- Programming and erasing keep the canonical form of the code-flash array. -/
theorem setFlash_wf (s : State) (a : Nat) (bs : List Byte) (h : Sparse.wf cfErased s.cf.arr = true) :
    Sparse.wf cfErased (s.setFlash a bs).cf.arr = true := Sparse.setList_wf _ _ _ _ h

theorem eraseFlash_wf (s : State) (a n : Nat) (h : Sparse.wf cfErased s.cf.arr = true) :
    Sparse.wf cfErased (s.eraseFlash a n).cf.arr = true := by
  simp only [eraseFlash]
  exact Sparse.clear_wf _ _ (fun k => decide (a ≤ k) && decide (k < a + n)) h

/-- The eft that was set. -/
theorem eft_setEft (s : State) (e : Nat) (x : Eft) (h : e < 12) : (s.setEft e x).eft e = x := by
  simp [eft, setEft, Vector.getD, h]

theorem eft_setEft_ne (s : State) (e f : Nat) (x : Eft) (h : f ≠ e) (hf : f < 12) : (s.setEft e x).eft f = s.eft f := by
  simp [eft, setEft, Vector.getD, hf, Vector.getElem_setIfInBounds, h.symm]

/-- A command of the logic die runs while the logic die is live. -/
@[simp] theorem whenLive_live (s : State) (f : State → State) (h : s.live = true) : s.whenLive f = .next (f s) := by
  simp [whenLive, h]

/-- And is without effect while it is not. -/
@[simp] theorem whenLive_held (s : State) (f : State → State) (h : s.live = false) : s.whenLive f = .next s := by
  simp [whenLive, h]

/-- `live` looks at the power die and the budget arbiter alone. -/
theorem live_congr {s t : State} (hp : t.pwr = s.pwr) (hb : t.bud = s.bud) : t.live = s.live := by simp [live, hp, hb]

end Sys2Proof.Machine.State
end

