-- ==== Sys2Proof/Laws/Bus.lean ====
section
/-!
SUPPORT. Laws/Bus.lean: engine accesses where no stored word is in error.
-/

namespace Sys2Proof.Machine

open Sys2Proof

theorem errsIn_clean {s : State} (h : s.mu.errs = []) (a n : Nat) : errsIn s a n = [] := by simp [errsIn, h]

/-- A read inside the initiator's windows delivers the stored bytes and changes nothing. -/
theorem busRead_clean {s : State} {f a n : Nat} (h : s.mu.errs = []) (hw : s.engineMay f a n = true) :
    busRead f a n s = (.ok (s.bytes a n), s) := by
  rcases Nat.eq_zero_or_pos n with rfl | hn
  · simp [busRead, State.bytes, Sparse.getList]
  · have : ¬ n = 0 := by omega
    simp [busRead, this, hw, eccRead, errsIn_clean h]

/-- A write inside the initiator's windows stores the bytes and does nothing else. -/
theorem busWrite_clean {s : State} {f a : Nat} {bs : List Byte} (h : s.mu.errs = [])
    (hw : s.engineMay f a bs.length = true) : busWrite f a bs s = (.ok [], s.setBytes a bs) := by
  have e : ∀ p : Nat → Bool, { s.mu with errs := Sparse.clear s.mu.errs p } = s.mu := by
    intro p
    rw [show Sparse.clear s.mu.errs p = s.mu.errs by simp [Sparse.clear, h]]
  cases bs with
  | nil => simp [busWrite, State.setBytes, Sparse.setList]
  | cons b t =>
    simp only [busWrite, List.isEmpty_cons, Bool.false_eq_true, if_false, hw, if_true, eccWrite, errsIn_clean h]
    simp [e]; rfl

theorem readOr_clean {s : State} {f a n : Nat} (h : s.mu.errs = []) (hw : s.engineMay f a n = true)
    (bad : BusRes → State → State) (k : List Byte → State → State) : readOr f a n bad k s = k (s.bytes a n) s := by
  simp [readOr, busRead_clean h hw]

theorem writeOr_clean {s : State} {f a : Nat} {bs : List Byte} (h : s.mu.errs = [])
    (hw : s.engineMay f a bs.length = true) (bad : BusRes → State → State) (k : State → State) :
    writeOr f a bs bad k s = k (s.setBytes a bs) := by
  simp [writeOr, busWrite_clean h hw]

theorem bytes_length (s : State) (a n : Nat) : (s.bytes a n).length = n := by
  simp only [State.bytes]
  induction n generalizing a with
  | zero => rfl
  | succ n ih => simp [Sparse.getList, ih]

/-- Reads of several ranges in turn deliver their stored bytes. -/
theorem readAll_clean {s : State} {n : Nat} (h : s.mu.errs = []) (bad : BusRes → State → State)
    (k : List (List Byte) → State → State) (l : List Nat) (hw : ∀ a ∈ l, s.engineMay 5 a n = true)
    (acc : List (List Byte)) : readAll n bad k l acc s = k (acc ++ l.map fun a => s.bytes a n) s := by
  induction l generalizing acc with
  | nil => simp [readAll]
  | cons a t ih =>
    rw [readAll, readOr_clean h (hw a (by simp)), ih fun b hb => hw b (by simp [hb])]
    simp

end Sys2Proof.Machine
end

