-- ==== Sys2Proof/Laws/Eft.lean ====
section
/-!
SUPPORT. Laws/Eft.lean: the step from an eft that is at a microword to what the microword does.
-/

namespace Sys2Proof.Machine

open Sys2Proof

theorem State.setEft_setEft (s : State) (e : Nat) (x y : Eft) : (s.setEft e x).setEft e y = s.setEft e y := by
  simp [State.setEft, Vector.setIfInBounds]

/-- An eft at a word the predicate admits executes it. -/
theorem runWord_at {s : State} {e : Nat} {w : MWord} (h : atWord s e w) (p : MWord → Bool) (hp : p w = true)
    (act : MWord → State → State) : runWord e .clean p act s = act w (fetched s e) := by
  obtain ⟨_, h2, h3, h4, h5⟩ := h
  simp [runWord, h2, h3, h4, hp, fetchDo, h5, fetched]

/-- An eft at a word of an opcode executes it. -/
theorem runWord_op {s : State} {e k : Nat} {w : MWord} (h : atWord s e w) (hk : mwOp w = k) (act : MWord → State → State) :
    runWord e .clean (opIs k) act s = act w (fetched s e) := runWord_at h _ (by simp [opIs, hk]) act

/-- An eft at an IN of a port executes it. -/
theorem runPort_in {s : State} {e port : Nat} {w : MWord} (h : atIn s e port w) (act : MWord → State → State) :
    runPort e .clean port act s = act w (fetched s e) := by
  obtain ⟨h1, h2, h3⟩ := h
  exact runWord_at h1 _ (by simp [h2, h3]) act

/-- An eft at an OUT of a port executes it. -/
theorem runPort_out {s : State} {e port : Nat} {w : MWord} (h : atOut s e port w) (act : MWord → State → State) :
    runPort e .clean port act s = act w (fetched s e) := by
  obtain ⟨h1, h2, h3⟩ := h
  exact runWord_at h1 _ (by simp [h2, h3]) act

theorem modUnit_fetched (s : State) (e : Fin 12) (f : EftUnit → EftUnit) : modUnit e f (fetched s e) = unitDid s e f := by
  simp [modUnit, modEft, unitDid, fetched, State.eft_setEft, State.setEft_setEft]

@[simp] theorem fetched_eft_unit (s : State) (e : Fin 12) : ((fetched s e).eft e).unit = (s.eft e).unit := by
  simp [fetched, modEft, State.eft_setEft]

@[simp] theorem fetched_scr (s : State) (e : Fin 12) (r : Nat) : scr (fetched s e) e r = scr s e r := by
  simp [scr]

@[simp] theorem fetched_isCommitted (s : State) (e : Fin 12) : isCommitted (fetched s e) e = isCommitted s e := by
  simp [isCommitted]

@[simp] theorem fetched_reg (s : State) (e a : Nat) : (fetched s e).reg a = s.reg a := rfl
@[simp] theorem fetched_med (s : State) (e x : Nat) : med (fetched s e) x = med s x := rfl
@[simp] theorem fetched_stg (s : State) (e : Nat) : (fetched s e).stg = s.stg := rfl

end Sys2Proof.Machine
end

