-- ==== Sys2Proof/Laws/Events.lean ====
section
/-!
SUPPORT. Laws/Events.lean: what raising an event leaves alone (R526, R529 to R532).
-/

namespace Sys2Proof.Machine

open Sys2Proof

namespace KeepsData

theorem refl (s : State) : KeepsData s s := ⟨rfl, rfl, rfl, rfl, rfl, rfl, rfl, rfl, rfl, rfl, rfl, rfl, rfl⟩

theorem trans {s t u : State} (h : KeepsData s t) (k : KeepsData t u) : KeepsData s u :=
  ⟨k.1.trans h.1, k.2.trans h.2, k.3.trans h.3, k.4.trans h.4, k.5.trans h.5, k.6.trans h.6, k.7.trans h.7, k.8.trans h.8,
    k.9.trans h.9, k.10.trans h.10, k.11.trans h.11, k.12.trans h.12, k.13.trans h.13⟩

/-- What changes the registers, the recorder, the memory unit, the efts, MEDx, MOT, NET, the answer and the counter of free
values alone keeps the data. -/
theorem of_fields (s : State) (r e m x a b o n z d) : KeepsData s { s with
    regs := r, evc := e, mu := m, efts := x, medA := a, medB := b, mot := o, net := n, resp := z, drawn := d } :=
  ⟨rfl, rfl, rfl, rfl, rfl, rfl, rfl, rfl, rfl, rfl, rfl, rfl, rfl⟩

theorem ite {s t u : State} {c : Prop} [Decidable c] (h : KeepsData s t) (k : KeepsData s u) :
    KeepsData s (if c then t else u) := by split <;> assumption

theorem foldl {α : Type} (f : State → α → State) (h : ∀ s a, KeepsData s (f s a)) (l : List α) (s : State) :
    KeepsData s (l.foldl f s) := by
  induction l generalizing s with
  | nil => exact refl s
  | cons a l ih => exact (h s a).trans (ih _)

theorem setReg (s : State) (a : Nat) (v : Word) : KeepsData s (s.setReg a v) := of_fields s _ _ _ _ _ _ _ _ _ _
theorem setRf (s : State) (a hi lo v : Nat) : KeepsData s (s.setRf a hi lo v) := of_fields s _ _ _ _ _ _ _ _ _ _
theorem setRb (s : State) (a i : Nat) (b : Bool) : KeepsData s (s.setRb a i b) := of_fields s _ _ _ _ _ _ _ _ _ _
theorem bump (s : State) (a k : Nat) : KeepsData s (s.bump a k) := of_fields s _ _ _ _ _ _ _ _ _ _
theorem bumpRf (s : State) (a hi lo k : Nat) : KeepsData s (s.bumpRf a hi lo k) := of_fields s _ _ _ _ _ _ _ _ _ _
theorem setFence (s : State) (f : Nat) (b : Bool) : KeepsData s (s.setFence f b) := of_fields s _ _ _ _ _ _ _ _ _ _
theorem setEft (s : State) (e : Nat) (x : Eft) : KeepsData s (s.setEft e x) := of_fields s _ _ _ _ _ _ _ _ _ _

theorem modMed (x : Nat) (f : Med → Med) (s : State) : KeepsData s (modMed x f s) := by
  unfold Machine.modMed; split <;> exact of_fields s _ _ _ _ _ _ _ _ _ _

theorem modAct (x : Nat) (f : Actuator → Actuator) (s : State) : KeepsData s (modAct x f s) := by
  unfold Machine.modAct; split <;> exact of_fields s _ _ _ _ _ _ _ _ _ _

theorem modSv (x : Nat) (f : Sv → Sv) (s : State) : KeepsData s (modSv x f s) := modMed x _ s

theorem gatesFall (x : Nat) (s : State) : KeepsData s (gatesFall x s) := by
  unfold Machine.gatesFall endWriteRun modWr
  refine trans ?_ ((modMed x _ _).trans (modMed x _ _))
  split
  · split
    · exact modMed x _ _
    · exact refl s
  · exact refl s

theorem hardStop (x : Nat) (s : State) : KeepsData s (hardStop x s) := by
  unfold Machine.hardStop modWr
  exact (gatesFall x s).trans (modMed x _ _)

theorem parkDrive (x : Nat) (s : State) : KeepsData s (parkDrive x s) := modAct x _ s

theorem traceOn (x k : Nat) (s : State) : KeepsData s (traceOn x k s) := ite (modSv x _ s) (refl s)

theorem assertWus (x : Nat) (s : State) : KeepsData s (assertWus x s) :=
  ite (refl s) (((modSv x _ s).trans (bump _ _ _)).trans (traceOn x 1 _))

theorem svEnterBy (ev : Nat → State → State) (h : ∀ n s, n ≠ 36 → KeepsData s (ev n s)) (x : Nat) (st : SvSt) (s : State) :
    KeepsData s (svEnterBy ev x st s) := by
  unfold Machine.svEnterBy
  refine ite (refl s) ?_
  dsimp only
  generalize hm : Machine.modSv x _ s = m
  have k : KeepsData s (Machine.traceOn x 5 (if st.away = true then Machine.assertWus x m else m)) :=
    (hm ▸ modSv x _ s : KeepsData s m).trans ((ite (assertWus x m) (refl m)).trans (traceOn x 5 _))
  exact ite (k.trans (ite (((setRb _ _ _ _).trans (modSv 1 _ _)).trans (h _ _ (by decide))) (refl _))) k

theorem dropMed (ev : Nat → State → State) (h : ∀ n s, n ≠ 36 → KeepsData s (ev n s)) (x : Nat) (s : State) :
    KeepsData s (dropMed ev x s) := by
  unfold Machine.dropMed modWr modRc
  exact (hardStop x s).trans ((modMed x _ _).trans ((modMed x _ _).trans
    ((svEnterBy ev h x .held _).trans ((modSv x _ _).trans (parkDrive x _)))))

theorem dropMot (s : State) : KeepsData s (dropMot s) := by
  have k (o : Mot) : KeepsData s { s with mot := o } := of_fields s _ _ _ _ _ _ _ _ _ _
  exact (k _).trans ((gatesFall 0 _).trans ((gatesFall 1 _).trans ((parkDrive 0 _).trans (parkDrive 1 _))))

theorem setStatus (n cond : Nat) (s : State) : KeepsData s (setStatus n cond s) := by
  unfold Machine.setStatus
  split
  · exact setRb s _ _ _
  · exact refl s

theorem offerRecord (n cond func sev : Nat) (p : List Byte) (s : State) : KeepsData s (offerRecord n cond func sev p s).1 := by
  unfold Machine.offerRecord
  dsimp only
  split
  · exact refl s
  split
  · exact bump s _ _
  split
  · exact bump s _ _
  split
  · exact bump s _ _
  split
  · exact of_fields s _ _ _ _ _ _ _ _ _ _
  · split <;> exact of_fields s _ _ _ _ _ _ _ _ _ _

theorem raiseAs (n cond func : Nat) (p : List Byte) (e : Bool) (s : State) : KeepsData s (raiseAs n cond func p e s) := by
  unfold Machine.raiseAs
  dsimp only
  split
  · exact (offerRecord ..).trans ((setStatus ..).trans (offerRecord ..))
  · exact offerRecord ..

theorem raiseQuiet (n cond : Nat) (p : Option (List Byte)) (e : Bool) (s : State) :
    KeepsData s (raiseQuiet n cond p e s) := (setStatus n cond s).trans (raiseAs ..)

theorem netHold (s : State) : KeepsData s (netHold s) := by
  unfold Machine.netHold
  split
  · exact refl s
  · exact of_fields s _ _ _ _ _ _ _ _ _ _

theorem fenceOwn (ev : Nat → State → State) (h : ∀ n s, n ≠ 36 → KeepsData s (ev n s)) (f : Nat) (s : State) :
    KeepsData s (fenceOwn ev f s) := by
  unfold Machine.fenceOwn
  split
  · exact netHold s
  · exact dropMed ev h 0 s
  · exact dropMed ev h 1 s
  · exact ite ((dropMot s).trans (h _ _ (by decide))) (dropMot s)
  · exact refl s

theorem holdRings (f : Nat) (s : State) : KeepsData s (holdRings f s) :=
  foldl _ (fun t _ => ite (setRf t _ _ _ _) (refl t)) _ s

theorem holdEfts (f : Nat) (s : State) : KeepsData s (holdEfts f s) := foldl _ (fun t e => setEft t e _) _ s

theorem tailDropBy (ev : Nat → State → State) (h : ∀ n s, n ≠ 36 → KeepsData s (ev n s)) (f cause : Nat) (s : State) :
    KeepsData s (tailDropBy ev f cause s) := by
  unfold Machine.tailDropBy
  refine ite (refl s) ?_
  exact ((setFence s f true).trans (setRf _ _ _ _ _)).trans ((fenceOwn ev h f _).trans
    ((holdRings f _).trans ((holdEfts f _).trans (raiseQuiet ..))))

theorem functionErrorBy (drop : Nat → Nat → State → State) (k : ∀ f c s, KeepsData s (drop f c s)) (f code : Nat) (s : State)
    (h : f ≤ 6) : KeepsData s (functionErrorBy drop f code s) := by
  unfold Machine.functionErrorBy
  rw [if_neg (Nat.not_lt.mpr h)]
  dsimp only
  split
  · exact ((setReg s _ _).trans (setRf _ _ _ _ _)).trans (raiseQuiet ..)
  · exact (setReg s _ _).trans ((raiseQuiet ..).trans (k ..))
  · exact bumpRf s _ _ _ _

end KeepsData

/-- A source other than MEM_WINDOW stands for an error of a function, 0 to 6, or for none. -/
theorem ferrOf_le (s : State) (n cond : Nat) (p : List Byte) (f : Nat) (hn : n ≠ 36) (h : ferrOf s n cond p = some f) :
    f ≤ 6 := by
  have hb : ∀ n, n < 208 → blockOf n ≤ 6 := by
    intro n hn
    unfold blockOf
    repeat' split
    all_goals omega
  unfold ferrOf isEftSource at h
  split at h
  · rename_i h1
    injection h with h
    subst h
    apply hb
    simp only [Bool.and_eq_true, Bool.or_eq_true, decide_eq_true_eq] at h1
    omega
  · split at h
    · split at h
      · rename_i h1
        injection h with h
        subst h
        apply hb
        simp only [Bool.and_eq_true, Bool.or_eq_true, decide_eq_true_eq] at h1
        omega
      · cases h
    · cases h

/-- Raising a source keeps the data, where tail drop does. -/
theorem KeepsData.raiseBy (drop : Nat → Nat → State → State) (k : ∀ f c s, KeepsData s (drop f c s)) (n cond : Nat)
    (p : Option (List Byte)) (s : State) (hn : n ≠ 36) : KeepsData s (raiseBy drop n cond p s) := by
  unfold Machine.raiseBy
  dsimp only
  split
  · rename_i f hf
    exact (KeepsData.raiseQuiet ..).trans (KeepsData.functionErrorBy drop k f _ _ (ferrOf_le s n cond _ f hn hf))
  · exact KeepsData.raiseQuiet ..

/-- Tail drop of a function keeps the data. -/
theorem KeepsData.tailDrop (f cause : Nat) (s : State) : KeepsData s (tailDrop f cause s) :=
  KeepsData.tailDropBy _ (fun n s hn => KeepsData.raiseBy innerDrop
    (fun f c s => KeepsData.tailDropBy _ (fun n s _ => KeepsData.raiseQuiet n 0 none false s) f c s) n 0 none s hn) f cause s

/-- An error of a function, 0 to 6, keeps the data. -/
theorem KeepsData.functionError (f code : Nat) (s : State) (h : f ≤ 6) : KeepsData s (functionError f code s) :=
  KeepsData.functionErrorBy _ KeepsData.tailDrop f code s h

/-- Raising a source keeps the data. -/
theorem KeepsData.raiseWith (n cond : Nat) (p : Option (List Byte)) (s : State) (hn : n ≠ 36) :
    KeepsData s (raiseWith n cond p s) := KeepsData.raiseBy _ KeepsData.tailDrop n cond p s hn

theorem KeepsData.raise (n : Nat) (s : State) (hn : n ≠ 36) : KeepsData s (raise n s) := KeepsData.raiseWith n 0 none s hn

/-- A hardware error of a function, 0 to 6, keeps the data. -/
theorem KeepsData.hwError (f cond : Nat) (d : List Byte) (s : State) (h : f ≤ 6) : KeepsData s (hwError f cond d s) :=
  (KeepsData.raiseQuiet ..).trans (KeepsData.functionError f _ _ h)

/-- What keeps the data keeps it or parks. -/
theorem KeepsData.orParks {s t : State} (h : KeepsData s t) : KeepsOrParks s t := ⟨t, h, .inl rfl⟩

/-- What keeps the data, with the park that follows where MOT is fenced by then. -/
theorem KeepsData.parks {s t : State} (h : KeepsData s t) : KeepsOrParks s (parkDropped t) := by
  refine ⟨t, h, ?_⟩
  unfold parkDropped
  split
  · rename_i k; exact .inr ⟨k, rfl⟩
  · exact .inl rfl

end Sys2Proof.Machine
end

