-- ==== Sys2Proof/Laws/Held.lean ====
section
/-!
SUPPORT. Laws/Held.lean: commands of the logic die have no effect while it is held in reset or quenched (DEDUCED, log entry 31).
-/

namespace Sys2Proof.Machine

open Sys2Proof

/-- A command of the logic die changes nothing while the logic die is held. -/
theorem exec_held (c : Instr) (s : State) (h : s.live = false) (hc : onLogicDie c = true) : exec c s = .next s := by
  cases c with
  | registerWrite ini addr size v =>
    have e : execRegisterWrite ini addr size v s = .next s := by simp only [execRegisterWrite, State.whenLive_held _ _ h]
    exact e
  | retractPhaseEnd x => exact absurd hc Bool.false_ne_true
  | retractDone x => exact absurd hc Bool.false_ne_true
  | rampLatched x => exact absurd hc Bool.false_ne_true
  | forceParkAssert => exact absurd hc Bool.false_ne_true
  | sprueAlignmentLoss => exact absurd hc Bool.false_ne_true
  | sprueRetrainTimeout => exact absurd hc Bool.false_ne_true
  | svcFenceTimeout =>
    have e : execSvcFenceTimeout s = .next s := by simp only [execSvcFenceTimeout, State.whenLive_held _ _ h]
    exact e
  | portModeSet p v =>
    have e : execPortModeSet p v s = .next s := by simp only [execPortModeSet, State.whenLive_held _ _ h]
    exact e
  | portEnable p =>
    have e : execPortEnable p s = .next s := by simp only [execPortEnable, State.whenLive_held _ _ h]
    exact e
  | netHoldSet =>
    have e : execNetHoldSet s = .next s := by simp only [execNetHoldSet, State.whenLive_held _ _ h]
    exact e
  | netHoldClear =>
    have e : execNetHoldClear s = .next s := by simp only [execNetHoldClear, State.whenLive_held _ _ h]
    exact e
  | linkUp p =>
    have e : execLinkUp p s = .next s := by simp only [execLinkUp, State.whenLive_held _ _ h]
    exact e
  | linkDown p =>
    have e : execLinkDown p s = .next s := by simp only [execLinkDown, State.whenLive_held _ _ h]
    exact e
  | rxFrame p o =>
    have e : execRxFrame p o s = .next s := by simp only [execRxFrame, State.whenLive_held _ _ h]
    exact e
  | fecBurstRearm p =>
    have e : execFecBurstRearm p s = .next s := by simp only [execFecBurstRearm, State.whenLive_held _ _ h]
    exact e
  | pfcXon p occ =>
    have e : execPfcXon p occ s = .next s := by simp only [execPfcXon, State.whenLive_held _ _ h]
    exact e
  | contextFetchDone q =>
    have e : execContextFetchDone q s = .next s := by simp only [execContextFetchDone, State.whenLive_held _ _ h]
    exact e
  | pfcPauseReceived p on off =>
    have e : execPfcPauseReceived p on off s = .next s := by simp only [execPfcPauseReceived, State.whenLive_held _ _ h]
    exact e
  | pfcStorm p =>
    have e : execPfcStorm p s = .next s := by simp only [execPfcStorm, State.whenLive_held _ _ h]
    exact e
  | cnpReceived q =>
    have e : execCnpReceived q s = .next s := by simp only [execCnpReceived, State.whenLive_held _ _ h]
    exact e
  | rateIncrease q =>
    have e : execRateIncrease q s = .next s := by simp only [execRateIncrease, State.whenLive_held _ _ h]
    exact e
  | rawConsWrite v =>
    have e : execRawConsWrite v s = .next s := by simp only [execRawConsWrite, State.whenLive_held _ _ h]
    exact e
  | rawRingConfig size v =>
    have e : execRawRingConfig size v s = .next s := by simp only [execRawRingConfig, State.whenLive_held _ _ h]
    exact e
  | mbxConsWrite m v =>
    have e : execMbxConsWrite m v s = .next s := by simp only [execMbxConsWrite, State.whenLive_held _ _ h]
    exact e
  | rxSend q psns bytes ce =>
    have e : execRxSend q psns bytes ce s = .next s := by simp only [execRxSend, State.whenLive_held _ _ h]
    exact e
  | rxRdmaWrite h' addr key bytes psns =>
    have e : execRxRdmaWrite h' addr key bytes psns s = .next s := by simp only [execRxRdmaWrite, State.whenLive_held _ _ h]
    exact e
  | rxRdmaRead h' addr key len psn =>
    have e : execRxRdmaRead h' addr key len psn s = .next s := by simp only [execRxRdmaRead, State.whenLive_held _ _ h]
    exact e
  | rxReadResponse h' bytes =>
    have e : execRxReadResponse h' bytes s = .next s := by simp only [execRxReadResponse, State.whenLive_held _ _ h]
    exact e
  | rxAck h' psn =>
    have e : execRxAck h' psn s = .next s := by simp only [execRxAck, State.whenLive_held _ _ h]
    exact e
  | rxNak h' rnr =>
    have e : execRxNak h' rnr s = .next s := by simp only [execRxNak, State.whenLive_held _ _ h]
    exact e
  | ackTimeout q =>
    have e : execAckTimeout q s = .next s := by simp only [execAckTimeout, State.whenLive_held _ _ h]
    exact e
  | rnrTimerExpiry q =>
    have e : execRnrTimerExpiry q s = .next s := by simp only [execRnrTimerExpiry, State.whenLive_held _ _ h]
    exact e
  | qpErrFifoPop =>
    have e : execQpErrFifoPop s = .next s := by simp only [execQpErrFifoPop, State.whenLive_held _ _ h]
    exact e
  | create r =>
    have e : execCreate r s = .next s := by simp only [execCreate, State.whenLive_held _ _ h]
    exact e
  | modify r =>
    have e : execModify r s = .next s := by simp only [execModify, State.whenLive_held _ _ h]
    exact e
  | query r =>
    have e : execQuery r s = .next s := by simp only [execQuery, State.whenLive_held _ _ h]
    exact e
  | destroy r =>
    have e : execDestroy r s = .next s := by simp only [execDestroy, State.whenLive_held _ _ h]
    exact e
  | pin r =>
    have e : execPin r s = .next s := by simp only [execPin, State.whenLive_held _ _ h]
    exact e
  | unpin r =>
    have e : execUnpin r s = .next s := by simp only [execUnpin, State.whenLive_held _ _ h]
    exact e
  | bindMailbox r =>
    have e : execBindMailbox r s = .next s := by simp only [execBindMailbox, State.whenLive_held _ _ h]
    exact e
  | advertise r =>
    have e : execAdvertise r s = .next s := by simp only [execAdvertise, State.whenLive_held _ _ h]
    exact e
  | withdraw r =>
    have e : execWithdraw r s = .next s := by simp only [execWithdraw, State.whenLive_held _ _ h]
    exact e
  | send r =>
    have e : execSend r s = .next s := by simp only [execSend, State.whenLive_held _ _ h]
    exact e
  | rdmaWrite r =>
    have e : execRdmaWrite r s = .next s := by simp only [execRdmaWrite, State.whenLive_held _ _ h]
    exact e
  | rdmaRead r =>
    have e : execRdmaRead r s = .next s := by simp only [execRdmaRead, State.whenLive_held _ _ h]
    exact e
  | transmit r =>
    have e : execTransmit r s = .next s := by simp only [execTransmit, State.whenLive_held _ _ h]
    exact e
  | mctpControlMessage msg =>
    have e : execMctpControlMessage msg s = .next s := by simp only [execMctpControlMessage, State.whenLive_held _ _ h]
    exact e
  | identityGet vendor =>
    have e : execIdentityGet vendor s = .next s := by simp only [execIdentityGet, State.whenLive_held _ _ h]
    exact e
  | sidebandAttest vendor nonce =>
    have e : execSidebandAttest vendor nonce s = .next s := by simp only [execSidebandAttest, State.whenLive_held _ _ h]
    exact e
  | sidebandLcSet vendor auth fl =>
    have e : execSidebandLcSet vendor auth fl s = .next s := by simp only [execSidebandLcSet, State.whenLive_held _ _ h]
    exact e
  | keyslotSet vendor slot digest =>
    have e : execKeyslotSet vendor slot digest s = .next s := by simp only [execKeyslotSet, State.whenLive_held _ _ h]
    exact e
  | authAction vendor auth fl =>
    have e : execAuthAction vendor auth fl s = .next s := by simp only [execAuthAction, State.whenLive_held _ _ h]
    exact e
  | recRead vendor seq n =>
    have e : execRecRead vendor seq n s = .next s := by simp only [execRecRead, State.whenLive_held _ _ h]
    exact e
  | recFreeze vendor on =>
    have e : execRecFreeze vendor on s = .next s := by simp only [execRecFreeze, State.whenLive_held _ _ h]
    exact e
  | recClear vendor auth fl =>
    have e : execRecClear vendor auth fl s = .next s := by simp only [execRecClear, State.whenLive_held _ _ h]
    exact e
  | recStatus vendor =>
    have e : execRecStatus vendor s = .next s := by simp only [execRecStatus, State.whenLive_held _ _ h]
    exact e
  | connect q cap obs =>
    have e : execConnect q cap obs s = .next s := by simp only [execConnect, State.whenLive_held _ _ h]
    exact e
  | disconnect q cap obs =>
    have e : execDisconnect q cap obs s = .next s := by simp only [execDisconnect, State.whenLive_held _ _ h]
    exact e
  | identify q cap obs =>
    have e : execIdentify q cap obs s = .next s := by simp only [execIdentify, State.whenLive_held _ _ h]
    exact e
  | put q cap obs =>
    have e : execPut q cap obs s = .next s := by simp only [execPut, State.whenLive_held _ _ h]
    exact e
  | get q cap obs =>
    have e : execGet q cap obs s = .next s := by simp only [execGet, State.whenLive_held _ _ h]
    exact e
  | write q cap obs =>
    have e : execWrite q cap obs s = .next s := by simp only [execWrite, State.whenLive_held _ _ h]
    exact e
  | delete q cap obs =>
    have e : execDelete q cap obs s = .next s := by simp only [execDelete, State.whenLive_held _ _ h]
    exact e
  | head q cap obs =>
    have e : execHead q cap obs s = .next s := by simp only [execHead, State.whenLive_held _ _ h]
    exact e
  | list q cap obs =>
    have e : execList q cap obs s = .next s := by simp only [execList, State.whenLive_held _ _ h]
    exact e
  | flush q cap obs =>
    have e : execFlush q cap obs s = .next s := by simp only [execFlush, State.whenLive_held _ _ h]
    exact e
  | destage q cap obs =>
    have e : execDestage q cap obs s = .next s := by simp only [execDestage, State.whenLive_held _ _ h]
    exact e
  | order q cap obs =>
    have e : execOrder q cap obs s = .next s := by simp only [execOrder, State.whenLive_held _ _ h]
    exact e
  | getFeature q cap obs =>
    have e : execGetFeature q cap obs s = .next s := by simp only [execGetFeature, State.whenLive_held _ _ h]
    exact e
  | setFeature q cap obs =>
    have e : execSetFeature q cap obs s = .next s := by simp only [execSetFeature, State.whenLive_held _ _ h]
    exact e
  | powerState q cap obs =>
    have e : execPowerState q cap obs s = .next s := by simp only [execPowerState, State.whenLive_held _ _ h]
    exact e
  | powerStateEntered =>
    have e : execPowerStateEntered s = .next s := by simp only [execPowerStateEntered, State.whenLive_held _ _ h]
    exact e
  | powerStateReversal =>
    have e : execPowerStateReversal s = .next s := by simp only [execPowerStateReversal, State.whenLive_held _ _ h]
    exact e
  | fwStage q cap obs =>
    have e : execFwStage q cap obs s = .next s := by simp only [execFwStage, State.whenLive_held _ _ h]
    exact e
  | fwActivate q cap obs =>
    have e : execFwActivate q cap obs s = .next s := by simp only [execFwActivate, State.whenLive_held _ _ h]
    exact e
  | formatEpochAdvance q cap obs =>
    have e : execFormatEpochAdvance q cap obs s = .next s := by simp only [execFormatEpochAdvance, State.whenLive_held _ _ h]
    exact e
  | repairBuild q cap obs =>
    have e : execRepairBuild q cap obs s = .next s := by simp only [execRepairBuild, State.whenLive_held _ _ h]
    exact e
  | scrub q cap obs =>
    have e : execScrub q cap obs s = .next s := by simp only [execScrub, State.whenLive_held _ _ h]
    exact e
  | sanitize q cap obs =>
    have e : execSanitize q cap obs s = .next s := by simp only [execSanitize, State.whenLive_held _ _ h]
    exact e
  | attest q cap obs =>
    have e : execAttest q cap obs s = .next s := by simp only [execAttest, State.whenLive_held _ _ h]
    exact e
  | setTime q cap obs =>
    have e : execSetTime q cap obs s = .next s := by simp only [execSetTime, State.whenLive_held _ _ h]
    exact e
  | recorderRead q cap obs =>
    have e : execRecorderRead q cap obs s = .next s := by simp only [execRecorderRead, State.whenLive_held _ _ h]
    exact e
  | recorderClear q cap obs =>
    have e : execRecorderClear q cap obs s = .next s := by simp only [execRecorderClear, State.whenLive_held _ _ h]
    exact e
  | errorLogRead q cap obs =>
    have e : execErrorLogRead q cap obs s = .next s := by simp only [execErrorLogRead, State.whenLive_held _ _ h]
    exact e
  | queueRestart q cap obs =>
    have e : execQueueRestart q cap obs s = .next s := by simp only [execQueueRestart, State.whenLive_held _ _ h]
    exact e
  | abort q cap obs =>
    have e : execAbort q cap obs s = .next s := by simp only [execAbort, State.whenLive_held _ _ h]
    exact e
  | writeCommit q tag =>
    have e : execWriteCommit q tag s = .next s := by simp only [execWriteCommit, State.whenLive_held _ _ h]
    exact e
  | writeAcknowledge q tag fault =>
    have e : execWriteAcknowledge q tag fault s = .next s := by simp only [execWriteAcknowledge, State.whenLive_held _ _ h]
    exact e
  | activationSuspend =>
    have e : execActivationSuspend s = .next s := by simp only [execActivationSuspend, State.whenLive_held _ _ h]
    exact e
  | activationTimeout =>
    have e : execActivationTimeout s = .next s := by simp only [execActivationTimeout, State.whenLive_held _ _ h]
    exact e
  | destageStart =>
    have e : execDestageStart s = .next s := by simp only [execDestageStart, State.whenLive_held _ _ h]
    exact e
  | stagedPageRelease low =>
    have e : execStagedPageRelease low s = .next s := by simp only [execStagedPageRelease, State.whenLive_held _ _ h]
    exact e
  | sqEnable q =>
    have e : execSqEnable q s = .next s := by simp only [execSqEnable, State.whenLive_held _ _ h]
    exact e
  | cqEnable c =>
    have e : execCqEnable c s = .next s := by simp only [execCqEnable, State.whenLive_held _ _ h]
    exact e
  | sqDoorbell q v =>
    have e : execSqDoorbell q v s = .next s := by simp only [execSqDoorbell, State.whenLive_held _ _ h]
    exact e
  | cqDoorbell c v =>
    have e : execCqDoorbell c v s = .next s := by simp only [execCqDoorbell, State.whenLive_held _ _ h]
    exact e
  | entryFetchDone q idx =>
    have e : execEntryFetchDone q idx s = .next s := by simp only [execEntryFetchDone, State.whenLive_held _ _ h]
    exact e
  | phaseRetry q =>
    have e : execPhaseRetry q s = .next s := by simp only [execPhaseRetry, State.whenLive_held _ _ h]
    exact e
  | jobStart q aged =>
    have e : execJobStart q aged s = .next s := by simp only [execJobStart, State.whenLive_held _ _ h]
    exact e
  | completionPost q =>
    have e : execCompletionPost q s = .next s := by simp only [execCompletionPost, State.whenLive_held _ _ h]
    exact e
  | spillWrite c =>
    have e : execSpillWrite c s = .next s := by simp only [execSpillWrite, State.whenLive_held _ _ h]
    exact e
  | ringErrFifoPop =>
    have e : execRingErrFifoPop s = .next s := by simp only [execRingErrFifoPop, State.whenLive_held _ _ h]
    exact e
  | nop e o =>
    have e : execNop e o s = .next s := by simp only [execNop, State.whenLive_held _ _ h]
    exact e
  | ldi e o =>
    have e : execLdi e o s = .next s := by simp only [execLdi, State.whenLive_held _ _ h]
    exact e
  | ldh e o =>
    have e : execLdh e o s = .next s := by simp only [execLdh, State.whenLive_held _ _ h]
    exact e
  | addi e o =>
    have e : execAddi e o s = .next s := by simp only [execAddi, State.whenLive_held _ _ h]
    exact e
  | mov e o =>
    have e : execMov e o s = .next s := by simp only [execMov, State.whenLive_held _ _ h]
    exact e
  | add e o =>
    have e : execAdd e o s = .next s := by simp only [execAdd, State.whenLive_held _ _ h]
    exact e
  | sub e o =>
    have e : execSub e o s = .next s := by simp only [execSub, State.whenLive_held _ _ h]
    exact e
  | and e o =>
    have e : execAnd e o s = .next s := by simp only [execAnd, State.whenLive_held _ _ h]
    exact e
  | or e o =>
    have e : execOr e o s = .next s := by simp only [execOr, State.whenLive_held _ _ h]
    exact e
  | xor e o =>
    have e : execXor e o s = .next s := by simp only [execXor, State.whenLive_held _ _ h]
    exact e
  | shl e o =>
    have e : execShl e o s = .next s := by simp only [execShl, State.whenLive_held _ _ h]
    exact e
  | shr e o =>
    have e : execShr e o s = .next s := by simp only [execShr, State.whenLive_held _ _ h]
    exact e
  | cmp e o =>
    have e : execCmp e o s = .next s := by simp only [execCmp, State.whenLive_held _ _ h]
    exact e
  | job e o =>
    have e : execJob e o s = .next s := by simp only [execJob, State.whenLive_held _ _ h]
    exact e
  | xfer e o =>
    have e : execXfer e o s = .next s := by simp only [execXfer, State.whenLive_held _ _ h]
    exact e
  | xferDone e =>
    have e : execXferDone e s = .next s := by simp only [execXferDone, State.whenLive_held _ _ h]
    exact e
  | wait e o =>
    have e : execWait e o s = .next s := by simp only [execWait, State.whenLive_held _ _ h]
    exact e
  | waitTimeout e =>
    have e : execWaitTimeout e s = .next s := by simp only [execWaitTimeout, State.whenLive_held _ _ h]
    exact e
  | br e o =>
    have e : execBr e o s = .next s := by simp only [execBr, State.whenLive_held _ _ h]
    exact e
  | call e o =>
    have e : execCall e o s = .next s := by simp only [execCall, State.whenLive_held _ _ h]
    exact e
  | ret e o =>
    have e : execRet e o s = .next s := by simp only [execRet, State.whenLive_held _ _ h]
    exact e
  | dbnz e o =>
    have e : execDbnz e o s = .next s := by simp only [execDbnz, State.whenLive_held _ _ h]
    exact e
  | commit e o =>
    have e : execCommit e o s = .next s := by simp only [execCommit, State.whenLive_held _ _ h]
    exact e
  | endUnit e o =>
    have e : execEndUnit e o s = .next s := by simp only [execEndUnit, State.whenLive_held _ _ h]
    exact e
  | fail e o =>
    have e : execFail e o s = .next s := by simp only [execFail, State.whenLive_held _ _ h]
    exact e
  | res e o =>
    have e : execRes e o s = .next s := by simp only [execRes, State.whenLive_held _ _ h]
    exact e
  | evt e o =>
    have e : execEvt e o s = .next s := by simp only [execEvt, State.whenLive_held _ _ h]
    exact e
  | halt e o =>
    have e : execHalt e o s = .next s := by simp only [execHalt, State.whenLive_held _ _ h]
    exact e
  | unitAbandon e k =>
    have e : execUnitAbandon e k s = .next s := by simp only [execUnitAbandon, State.whenLive_held _ _ h]
    exact e
  | unitRestart e =>
    have e : execUnitRestart e s = .next s := by simp only [execUnitRestart, State.whenLive_held _ _ h]
    exact e
  | eftWatchdog e =>
    have e : execEftWatchdog e s = .next s := by simp only [execEftWatchdog, State.whenLive_held _ _ h]
    exact e
  | breakpointHalt e =>
    have e : execBreakpointHalt e s = .next s := by simp only [execBreakpointHalt, State.whenLive_held _ _ h]
    exact e
  | timeUs e o =>
    have e : execTimeUs e o s = .next s := by simp only [execTimeUs, State.whenLive_held _ _ h]
    exact e
  | unitRestarts e o =>
    have e : execUnitRestarts e o s = .next s := by simp only [execUnitRestarts, State.whenLive_held _ _ h]
    exact e
  | token e o =>
    have e : execToken e o s = .next s := by simp only [execToken, State.whenLive_held _ _ h]
    exact e
  | loadStart e =>
    have e : execLoadStart e s = .next s := by simp only [execLoadStart, State.whenLive_held _ _ h]
    exact e
  | csDataWrite e v =>
    have e : execCsDataWrite e v s = .next s := by simp only [execCsDataWrite, State.whenLive_held _ _ h]
    exact e
  | loadFinish e =>
    have e : execLoadFinish e s = .next s := by simp only [execLoadFinish, State.whenLive_held _ _ h]
    exact e
  | eftRun e b =>
    have e : execEftRun e b s = .next s := by simp only [execEftRun, State.whenLive_held _ _ h]
    exact e
  | eftStep e o =>
    have e : execEftStep e o s = .next s := by simp only [execEftStep, State.whenLive_held _ _ h]
    exact e
  | eftResume e =>
    have e : execEftResume e s = .next s := by simp only [execEftResume, State.whenLive_held _ _ h]
    exact e
  | channelEnable c en =>
    have e : execChannelEnable c en s = .next s := by simp only [execChannelEnable, State.whenLive_held _ _ h]
    exact e
  | rateSwitch c =>
    have e : execRateSwitch c s = .next s := by simp only [execRateSwitch, State.whenLive_held _ _ h]
    exact e
  | rateSwitchDone c passed =>
    have e : execRateSwitchDone c passed s = .next s := by simp only [execRateSwitchDone, State.whenLive_held _ _ h]
    exact e
  | readPage c reads soft tmo =>
    have e : execReadPage c reads soft tmo s = .next s := by simp only [execReadPage, State.whenLive_held _ _ h]
    exact e
  | programPage c failed tmo =>
    have e : execProgramPage c failed tmo s = .next s := by simp only [execProgramPage, State.whenLive_held _ _ h]
    exact e
  | eraseBlock c failed tmo =>
    have e : execEraseBlock c failed tmo s = .next s := by simp only [execEraseBlock, State.whenLive_held _ _ h]
    exact e
  | stgSetFeature c =>
    have e : execStgSetFeature c s = .next s := by simp only [execStgSetFeature, State.whenLive_held _ _ h]
    exact e
  | stgGetFeature c =>
    have e : execStgGetFeature c s = .next s := by simp only [execStgGetFeature, State.whenLive_held _ _ h]
    exact e
  | resetLun c =>
    have e : execResetLun c s = .next s := by simp only [execResetLun, State.whenLive_held _ _ h]
    exact e
  | readParam c tmo =>
    have e : execReadParam c tmo s = .next s := by simp only [execReadParam, State.whenLive_held _ _ h]
    exact e
  | cmd e o =>
    have e : execCmd e o s = .next s := by simp only [execCmd, State.whenLive_held _ _ h]
    exact e
  | addr e o =>
    have e : execAddr e o s = .next s := by simp only [execAddr, State.whenLive_held _ _ h]
    exact e
  | apply e o =>
    have e : execApply e o s = .next s := by simp only [execApply, State.whenLive_held _ _ h]
    exact e
  | status e o =>
    have e : execStatus e o s = .next s := by simp only [execStatus, State.whenLive_held _ _ h]
    exact e
  | decode e o =>
    have e : execDecode e o s = .next s := by simp only [execDecode, State.whenLive_held _ _ h]
    exact e
  | decodeDone c obs =>
    have e : execDecodeDone c obs s = .next s := by simp only [execDecodeDone, State.whenLive_held _ _ h]
    exact e
  | syndrome e o =>
    have e : execSyndrome e o s = .next s := by simp only [execSyndrome, State.whenLive_held _ _ h]
    exact e
  | yield e o =>
    have e : execYield e o s = .next s := by simp only [execYield, State.whenLive_held _ _ h]
    exact e
  | confirm e o =>
    have e : execConfirm e o s = .next s := by simp only [execConfirm, State.whenLive_held _ _ h]
    exact e
  | suspend e o =>
    have e : execSuspend e o s = .next s := by simp only [execSuspend, State.whenLive_held _ _ h]
    exact e
  | resume e o =>
    have e : execResume e o s = .next s := by simp only [execResume, State.whenLive_held _ _ h]
    exact e
  | reset e o =>
    have e : execReset e o s = .next s := by simp only [execReset, State.whenLive_held _ _ h]
    exact e
  | featureData e o =>
    have e : execFeatureData e o s = .next s := by simp only [execFeatureData, State.whenLive_held _ _ h]
    exact e
  | lunReady c d fail =>
    have e : execLunReady c d fail s = .next s := by simp only [execLunReady, State.whenLive_held _ _ h]
    exact e
  | arrayTimeout c d =>
    have e : execArrayTimeout c d s = .next s := by simp only [execArrayTimeout, State.whenLive_held _ _ h]
    exact e
  | suspendRequest c d timeLeft =>
    have e : execSuspendRequest c d timeLeft s = .next s := by simp only [execSuspendRequest, State.whenLive_held _ _ h]
    exact e
  | suspendResumeCondition c d byTime =>
    have e : execSuspendResumeCondition c d byTime s = .next s := by simp only [execSuspendResumeCondition, State.whenLive_held _ _ h]
    exact e
  | parkedJobResume c =>
    have e : execParkedJobResume c s = .next s := by simp only [execParkedJobResume, State.whenLive_held _ _ h]
    exact e
  | blkCmd v =>
    have e : execBlkCmd v s = .next s := by simp only [execBlkCmd, State.whenLive_held _ _ h]
    exact e
  | blkCmdApply =>
    have e : execBlkCmdApply s = .next s := by simp only [execBlkCmdApply, State.whenLive_held _ _ h]
    exact e
  | adviseFifoPop =>
    have e : execAdviseFifoPop s = .next s := by simp only [execAdviseFifoPop, State.whenLive_held _ _ h]
    exact e
  | compress l mis =>
    have e : execCompress l mis s = .next s := by simp only [execCompress, State.whenLive_held _ _ h]
    exact e
  | decompress l =>
    have e : execDecompress l s = .next s := by simp only [execDecompress, State.whenLive_held _ _ h]
    exact e
  | encode =>
    have e : execEncode s = .next s := by simp only [execEncode, State.whenLive_held _ _ h]
    exact e
  | erasureDecode =>
    have e : execErasureDecode s = .next s := by simp only [execErasureDecode, State.whenLive_held _ _ h]
    exact e
  | encrypt l n =>
    have e : execEncrypt l n s = .next s := by simp only [execEncrypt, State.whenLive_held _ _ h]
    exact e
  | decrypt l n =>
    have e : execDecrypt l n s = .next s := by simp only [execDecrypt, State.whenLive_held _ _ h]
    exact e
  | copy =>
    have e : execCopy s = .next s := by simp only [execCopy, State.whenLive_held _ _ h]
    exact e
  | zoneEnable =>
    have e : execZoneEnable s = .next s := by simp only [execZoneEnable, State.whenLive_held _ _ h]
    exact e
  | zoneScanDone =>
    have e : execZoneScanDone s = .next s := by simp only [execZoneScanDone, State.whenLive_held _ _ h]
    exact e
  | zoneOpen z =>
    have e : execZoneOpen z s = .next s := by simp only [execZoneOpen, State.whenLive_held _ _ h]
    exact e
  | zoneClose z =>
    have e : execZoneClose z s = .next s := by simp only [execZoneClose, State.whenLive_held _ _ h]
    exact e
  | zoneFinish z =>
    have e : execZoneFinish z s = .next s := by simp only [execZoneFinish, State.whenLive_held _ _ h]
    exact e
  | zoneReset o =>
    have e : execZoneReset o s = .next s := by simp only [execZoneReset, State.whenLive_held _ _ h]
    exact e
  | zoneSync z =>
    have e : execZoneSync z s = .next s := by simp only [execZoneSync, State.whenLive_held _ _ h]
    exact e
  | setRo z =>
    have e : execSetRo z s = .next s := by simp only [execSetRo, State.whenLive_held _ _ h]
    exact e
  | zoneOffline z =>
    have e : execZoneOffline z s = .next s := by simp only [execZoneOffline, State.whenLive_held _ _ h]
    exact e
  | remap z =>
    have e : execRemap z s = .next s := by simp only [execRemap, State.whenLive_held _ _ h]
    exact e
  | zoneCmdUndefined z k =>
    have e : execZoneCmdUndefined z k s = .next s := by simp only [execZoneCmdUndefined, State.whenLive_held _ _ h]
    exact e
  | zoneOffer v =>
    have e : execZoneOffer v s = .next s := by simp only [execZoneOffer, State.whenLive_held _ _ h]
    exact e
  | writeRelease z =>
    have e : execWriteRelease z s = .next s := by simp only [execWriteRelease, State.whenLive_held _ _ h]
    exact e
  | palTransaction x wr addr r1 r2 r3 =>
    have e : execPalTransaction x wr addr r1 r2 r3 s = .next s := by simp only [execPalTransaction, State.whenLive_held _ _ h]
    exact e
  | preampFaultInput x o =>
    have e : execPreampFaultInput x o s = .next s := by simp only [execPreampFaultInput, State.whenLive_held _ _ h]
    exact e
  | palCmd x v r1 r2 r3 =>
    have e : execPalCmd x v r1 r2 r3 s = .next s := by simp only [execPalCmd, State.whenLive_held _ _ h]
    exact e
  | tdSweep x v =>
    have e : execTdSweep x v s = .next s := by simp only [execTdSweep, State.whenLive_held _ _ h]
    exact e
  | whead e o =>
    have e : execWhead e o s = .next s := by simp only [execWhead, State.whenLive_held _ _ h]
    exact e
  | wsect e o =>
    have e : execWsect e o s = .next s := by simp only [execWsect, State.whenLive_held _ _ h]
    exact e
  | wparity e o =>
    have e : execWparity e o s = .next s := by simp only [execWparity, State.whenLive_held _ _ h]
    exact e
  | wstat e o =>
    have e : execWstat e o s = .next s := by simp only [execWstat, State.whenLive_held _ _ h]
    exact e
  | wend e o =>
    have e : execWend e o s = .next s := by simp only [execWend, State.whenLive_held _ _ h]
    exact e
  | arm e o =>
    have e : execArm e o s = .next s := by simp only [execArm, State.whenLive_held _ _ h]
    exact e
  | writeSectorPass x mine o =>
    have e : execWriteSectorPass x mine o s = .next s := by simp only [execWriteSectorPass, State.whenLive_held _ _ h]
    exact e
  | sectorWriteEnd x =>
    have e : execSectorWriteEnd x s = .next s := by simp only [execSectorWriteEnd, State.whenLive_held _ _ h]
    exact e
  | rhead e o =>
    have e : execRhead e o s = .next s := by simp only [execRhead, State.whenLive_held _ _ h]
    exact e
  | rsect e o =>
    have e : execRsect e o s = .next s := by simp only [execRsect, State.whenLive_held _ _ h]
    exact e
  | rarm e o =>
    have e : execRarm e o s = .next s := by simp only [execRarm, State.whenLive_held _ _ h]
    exact e
  | rstat e o =>
    have e : execRstat e o s = .next s := by simp only [execRstat, State.whenLive_held _ _ h]
    exact e
  | rerased e o =>
    have e : execRerased e o s = .next s := by simp only [execRerased, State.whenLive_held _ _ h]
    exact e
  | rend e o =>
    have e : execRend e o s = .next s := by simp only [execRend, State.whenLive_held _ _ h]
    exact e
  | readSectorPass x o =>
    have e : execReadSectorPass x o s = .next s := by simp only [execReadSectorPass, State.whenLive_held _ _ h]
    exact e
  | sectorReadOutcome x o =>
    have e : execSectorReadOutcome x o s = .next s := by simp only [execSectorReadOutcome, State.whenLive_held _ _ h]
    exact e
  | sectorGap x =>
    have e : execSectorGap x s = .next s := by simp only [execSectorGap, State.whenLive_held _ _ h]
    exact e
  | adcMeasPeriod x r k off gain skew =>
    have e : execAdcMeasPeriod x r k off gain skew s = .next s := by simp only [execAdcMeasPeriod, State.whenLive_held _ _ h]
    exact e
  | sync e o =>
    have e : execSync e o s = .next s := by simp only [execSync, State.whenLive_held _ _ h]
    exact e
  | sslot e o =>
    have e : execSslot e o s = .next s := by simp only [execSslot, State.whenLive_held _ _ h]
    exact e
  | spin e o =>
    have e : execSpin e o s = .next s := by simp only [execSpin, State.whenLive_held _ _ h]
    exact e
  | oredet e o =>
    have e : execOredet e o s = .next s := by simp only [execOredet, State.whenLive_held _ _ h]
    exact e
  | offlineDone x o =>
    have e : execOfflineDone x o s = .next s := by simp only [execOfflineDone, State.whenLive_held _ _ h]
    exact e
  | ostat e o =>
    have e : execOstat e o s = .next s := by simp only [execOstat, State.whenLive_held _ _ h]
    exact e
  | ocstart e o =>
    have e : execOcstart e o s = .next s := by simp only [execOcstart, State.whenLive_held _ _ h]
    exact e
  | ocstat e o =>
    have e : execOcstat e o s = .next s := by simp only [execOcstat, State.whenLive_held _ _ h]
    exact e
  | ocsolve e o =>
    have e : execOcsolve e o s = .next s := by simp only [execOcsolve, State.whenLive_held _ _ h]
    exact e
  | ocsolveDone x =>
    have e : execOcsolveDone x s = .next s := by simp only [execOcsolveDone, State.whenLive_held _ _ h]
    exact e
  | redetect x o =>
    have e : execRedetect x o s = .next s := by simp only [execRedetect, State.whenLive_held _ _ h]
    exact e
  | mediaRead e obs =>
    have e : execMediaRead e obs s = .next s := by simp only [execMediaRead, State.whenLive_held _ _ h]
    exact e
  | mediaWrite e obs =>
    have e : execMediaWrite e obs s = .next s := by simp only [execMediaWrite, State.whenLive_held _ _ h]
    exact e
  | verify e obs =>
    have e : execVerify e obs s = .next s := by simp only [execVerify, State.whenLive_held _ _ h]
    exact e
  | capture e obs =>
    have e : execCapture e obs s = .next s := by simp only [execCapture, State.whenLive_held _ _ h]
    exact e
  | seek e o =>
    have e : execSeek e o s = .next s := by simp only [execSeek, State.whenLive_held _ _ h]
    exact e
  | load e o =>
    have e : execLoad e o s = .next s := by simp only [execLoad, State.whenLive_held _ _ h]
    exact e
  | unload e latched =>
    have e : execUnload e latched s = .next s := by simp only [execUnload, State.whenLive_held _ _ h]
    exact e
  | wedgeStrobe x o =>
    have e : execWedgeStrobe x o s = .next s := by simp only [execWedgeStrobe, State.whenLive_held _ _ h]
    exact e
  | svstat e o =>
    have e : execSvstat e o s = .next s := by simp only [execSvstat, State.whenLive_held _ _ h]
    exact e
  | retarget e o =>
    have e : execRetarget e o s = .next s := by simp only [execRetarget, State.whenLive_held _ _ h]
    exact e
  | roffset e o =>
    have e : execRoffset e o s = .next s := by simp only [execRoffset, State.whenLive_held _ _ h]
    exact e
  | rampOff e o =>
    have e : execRampOff e o s = .next s := by simp only [execRampOff, State.whenLive_held _ _ h]
    exact e
  | rampOn e o =>
    have e : execRampOn e o s = .next s := by simp only [execRampOn, State.whenLive_held _ _ h]
    exact e
  | rampTimeout x =>
    have e : execRampTimeout x s = .next s := by simp only [execRampTimeout, State.whenLive_held _ _ h]
    exact e
  | faultClr x =>
    have e : execFaultClr x s = .next s := by simp only [execFaultClr, State.whenLive_held _ _ h]
    exact e
  | svCmdRetarget x v =>
    have e : execSvCmdRetarget x v s = .next s := by simp only [execSvCmdRetarget, State.whenLive_held _ _ h]
    exact e
  | traceArm x =>
    have e : execTraceArm x s = .next s := by simp only [execTraceArm, State.whenLive_held _ _ h]
    exact e
  | traceTrigNow x =>
    have e : execTraceTrigNow x s = .next s := by simp only [execTraceTrigNow, State.whenLive_held _ _ h]
    exact e
  | traceStop x =>
    have e : execTraceStop x s = .next s := by simp only [execTraceStop, State.whenLive_held _ _ h]
    exact e
  | servoLaneFrame x good => exact absurd hc Bool.false_ne_true
  | laneTimeout x => exact absurd hc Bool.false_ne_true
  | speedCommand v =>
    have e : execSpeedCommand v s = .next s := by simp only [execSpeedCommand, State.whenLive_held _ _ h]
    exact e
  | speedRefTick rev => exact absurd hc Bool.false_ne_true
  | speedLoopTick act iq held weak => exact absurd hc Bool.false_ne_true
  | detectEnd o => exact absurd hc Bool.false_ne_true
  | stopDetected => exact absurd hc Bool.false_ne_true
  | startTimeout => exact absurd hc Bool.false_ne_true
  | hallEdge o => exact absurd hc Bool.false_ne_true
  | relockTimeout => exact absurd hc Bool.false_ne_true
  | alignEnd => exact absurd hc Bool.false_ne_true
  | pwmPeriod o => exact absurd hc Bool.false_ne_true
  | vmOvervoltage => exact absurd hc Bool.false_ne_true
  | inputDip v12 => exact absurd hc Bool.false_ne_true
  | powerLoss => exact absurd hc Bool.false_ne_true
  | holdupDone => exact absurd hc Bool.false_ne_true
  | vmBelowHoldMin => exact absurd hc Bool.false_ne_true
  | inputGoodBoot => exact absurd hc Bool.false_ne_true
  | modelStep duty =>
    have e : execModelStep duty s = .next s := by simp only [execModelStep, State.whenLive_held _ _ h]
    exact e
  | sensorSample t => exact absurd hc Bool.false_ne_true
  | quenchCooled => exact absurd hc Bool.false_ne_true
  | sensorRearm m =>
    have e : execSensorRearm m s = .next s := by simp only [execSensorRearm, State.whenLive_held _ _ h]
    exact e
  | budgetWindow p12 meters =>
    have e : execBudgetWindow p12 meters s = .next s := by simp only [execBudgetWindow, State.whenLive_held _ _ h]
    exact e
  | avfsTick slack =>
    have e : execAvfsTick slack s = .next s := by simp only [execAvfsTick, State.whenLive_held _ _ h]
    exact e
  | coreDroop =>
    have e : execCoreDroop s = .next s := by simp only [execCoreDroop, State.whenLive_held _ _ h]
    exact e
  | calRequest m =>
    have e : execCalRequest m s = .next s := by simp only [execCalRequest, State.whenLive_held _ _ h]
    exact e
  | calRunStart k heads =>
    have e : execCalRunStart k heads s = .next s := by simp only [execCalRunStart, State.whenLive_held _ _ h]
    exact e
  | calDeferTimeout k =>
    have e : execCalDeferTimeout k s = .next s := by simp only [execCalDeferTimeout, State.whenLive_held _ _ h]
    exact e
  | calRunTimeout k =>
    have e : execCalRunTimeout k s = .next s := by simp only [execCalRunTimeout, State.whenLive_held _ _ h]
    exact e
  | calRunEnd k o =>
    have e : execCalRunEnd k o s = .next s := by simp only [execCalRunEnd, State.whenLive_held _ _ h]
    exact e
  | scrubStart v =>
    have e : execScrubStart v s = .next s := by simp only [execScrubStart, State.whenLive_held _ _ h]
    exact e
  | scrubStop =>
    have e : execScrubStop s = .next s := by simp only [execScrubStop, State.whenLive_held _ _ h]
    exact e
  | scrubEnd =>
    have e : execScrubEnd s = .next s := by simp only [execScrubEnd, State.whenLive_held _ _ h]
    exact e
  | errorTableClear m =>
    have e : execErrorTableClear m s = .next s := by simp only [execErrorTableClear, State.whenLive_held _ _ h]
    exact e
  | voteCheck ups => exact absurd hc Bool.false_ne_true
  | dramRefresh =>
    have e : execDramRefresh s = .next s := by simp only [execDramRefresh, State.whenLive_held _ _ h]
    exact e
  | dramTempPoll a b c d e =>
    have e : execDramTempPoll a b c d e s = .next s := by simp only [execDramTempPoll, State.whenLive_held _ _ h]
    exact e
  | dramTrainingDone top =>
    have e : execDramTrainingDone top s = .next s := by simp only [execDramTrainingDone, State.whenLive_held _ _ h]
    exact e
  | wipeDone =>
    have e : execWipeDone s = .next s := by simp only [execWipeDone, State.whenLive_held _ _ h]
    exact e
  | xipRead l cru =>
    have e : execXipRead l cru s = .next s := by simp only [execXipRead, State.whenLive_held _ _ h]
    exact e
  | cfProgram off src len flags ra mtvec =>
    have e : execCfProgram off src len flags ra mtvec s = .next s := by simp only [execCfProgram, State.whenLive_held _ _ h]
    exact e
  | cfErase off kind flags ra mtvec =>
    have e : execCfErase off kind flags ra mtvec s = .next s := by simp only [execCfErase, State.whenLive_held _ _ h]
    exact e
  | cfInfo =>
    have e : execCfInfo s = .next s := by simp only [execCfInfo, State.whenLive_held _ _ h]
    exact e
  | cfPulseEnd left =>
    have e : execCfPulseEnd left s = .next s := by simp only [execCfPulseEnd, State.whenLive_held _ _ h]
    exact e
  | l2Invalidate v =>
    have e : execL2Invalidate v s = .next s := by simp only [execL2Invalidate, State.whenLive_held _ _ h]
    exact e
  | mailboxSend =>
    have e : execMailboxSend s = .next s := by simp only [execMailboxSend, State.whenLive_held _ _ h]
    exact e
  | mailboxReply =>
    have e : execMailboxReply s = .next s := by simp only [execMailboxReply, State.whenLive_held _ _ h]
    exact e
  | cruMbxPop =>
    have e : execCruMbxPop s = .next s := by simp only [execCruMbxPop, State.whenLive_held _ _ h]
    exact e
  | svcCmbxPop =>
    have e : execSvcCmbxPop s = .next s := by simp only [execSvcCmbxPop, State.whenLive_held _ _ h]
    exact e
  | flashWrite seq off src len fl =>
    have e : execFlashWrite seq off src len fl s = .next s := by simp only [execFlashWrite, State.whenLive_held _ _ h]
    exact e
  | flashErase seq off kind fl =>
    have e : execFlashErase seq off kind fl s = .next s := by simp only [execFlashErase, State.whenLive_held _ _ h]
    exact e
  | settingsWrite seq tag src len fl =>
    have e : execSettingsWrite seq tag src len fl s = .next s := by simp only [execSettingsWrite, State.whenLive_held _ _ h]
    exact e
  | stage seq target place off src len final fl =>
    have e : execStage seq target place off src len final fl s = .next s := by simp only [execStage, State.whenLive_held _ _ h]
    exact e
  | activate seq target mode =>
    have e : execActivate seq target mode s = .next s := by simp only [execActivate, State.whenLive_held _ _ h]
    exact e
  | ready seq =>
    have e : execReady seq s = .next s := by simp only [execReady, State.whenLive_held _ _ h]
    exact e
  | bandCreate seq band fl =>
    have e : execBandCreate seq band fl s = .next s := by simp only [execBandCreate, State.whenLive_held _ _ h]
    exact e
  | cruSanitize seq action band a fl =>
    have e : execCruSanitize seq action band a fl s = .next s := by simp only [execCruSanitize, State.whenLive_held _ _ h]
    exact e
  | authCheck seq action a =>
    have e : execAuthCheck seq action a s = .next s := by simp only [execAuthCheck, State.whenLive_held _ _ h]
    exact e
  | cruAttest seq nonce dst =>
    have e : execCruAttest seq nonce dst s = .next s := by simp only [execCruAttest, State.whenLive_held _ _ h]
    exact e
  | windowSet seq set index base limit en =>
    have e : execWindowSet seq set index base limit en s = .next s := by simp only [execWindowSet, State.whenLive_held _ _ h]
    exact e
  | funcReset seq f =>
    have e : execFuncReset seq f s = .next s := by simp only [execFuncReset, State.whenLive_held _ _ h]
    exact e
  | cruLcSet seq a fl =>
    have e : execCruLcSet seq a fl s = .next s := by simp only [execCruLcSet, State.whenLive_held _ _ h]
    exact e
  | debugLcMould => exact absurd hc Bool.false_ne_true
  | fuseLifecycle arg =>
    have e : execFuseLifecycle arg s = .next s := by simp only [execFuseLifecycle, State.whenLive_held _ _ h]
    exact e
  | fuseVaultWord arg =>
    have e : execFuseVaultWord arg s = .next s := by simp only [execFuseVaultWord, State.whenLive_held _ _ h]
    exact e
  | fuseKekStep arg =>
    have e : execFuseKekStep arg s = .next s := by simp only [execFuseKekStep, State.whenLive_held _ _ h]
    exact e
  | fuseSvnCru arg =>
    have e : execFuseSvnCru arg s = .next s := by simp only [execFuseSvnCru, State.whenLive_held _ _ h]
    exact e
  | fuseSvnSvc arg =>
    have e : execFuseSvnSvc arg s = .next s := by simp only [execFuseSvnSvc, State.whenLive_held _ _ h]
    exact e
  | fuseSvnProf arg =>
    have e : execFuseSvnProf arg s = .next s := by simp only [execFuseSvnProf, State.whenLive_held _ _ h]
    exact e
  | fuseKeySlot arg =>
    have e : execFuseKeySlot arg s = .next s := by simp only [execFuseKeySlot, State.whenLive_held _ _ h]
    exact e
  | fuseIdentitySeed arg =>
    have e : execFuseIdentitySeed arg s = .next s := by simp only [execFuseIdentitySeed, State.whenLive_held _ _ h]
    exact e
  | fuseBurnDone =>
    have e : execFuseBurnDone s = .next s := by simp only [execFuseBurnDone, State.whenLive_held _ _ h]
    exact e
  | bandCmdCreate b =>
    have e : execBandCmdCreate b s = .next s := by simp only [execBandCmdCreate, State.whenLive_held _ _ h]
    exact e
  | bandLoad b =>
    have e : execBandLoad b s = .next s := by simp only [execBandLoad, State.whenLive_held _ _ h]
    exact e
  | bandUnload b =>
    have e : execBandUnload b s = .next s := by simp only [execBandUnload, State.whenLive_held _ _ h]
    exact e
  | bandRewrap b =>
    have e : execBandRewrap b s = .next s := by simp only [execBandRewrap, State.whenLive_held _ _ h]
    exact e
  | hashStart outlen =>
    have e : execHashStart outlen s = .next s := by simp only [execHashStart, State.whenLive_held _ _ h]
    exact e
  | hashDone =>
    have e : execHashDone s = .next s := by simp only [execHashDone, State.whenLive_held _ _ h]
    exact e
  | rngDataRead =>
    have e : execRngDataRead s = .next s := by simp only [execRngDataRead, State.whenLive_held _ _ h]
    exact e
  | entropyHealthFail =>
    have e : execEntropyHealthFail s = .next s := by simp only [execEntropyHealthFail, State.whenLive_held _ _ h]
    exact e
  | wdogKick =>
    have e : execWdogKick s = .next s := by simp only [execWdogKick, State.whenLive_held _ _ h]
    exact e
  | wdogStop =>
    have e : execWdogStop s = .next s := by simp only [execWdogStop, State.whenLive_held _ _ h]
    exact e
  | bootWatchdogExpiry =>
    have e : execBootWatchdogExpiry s = .next s := by simp only [execBootWatchdogExpiry, State.whenLive_held _ _ h]
    exact e
  | trialTimeout =>
    have e : execTrialTimeout s = .next s := by simp only [execTrialTimeout, State.whenLive_held _ _ h]
    exact e
  | coreRestart m =>
    have e : execCoreRestart m s = .next s := by simp only [execCoreRestart, State.whenLive_held _ _ h]
    exact e
  | bootStart kat entropy chopper pass straps => exact absurd hc Bool.false_ne_true
  | eventRaise n bit payload =>
    have e : execEventRaise n bit payload s = .next s := by simp only [execEventRaise, State.whenLive_held _ _ h]
    exact e
  | handleTimeout f =>
    have e : execHandleTimeout f s = .next s := by simp only [execHandleTimeout, State.whenLive_held _ _ h]
    exact e
  | errorSlotClear f =>
    have e : execErrorSlotClear f s = .next s := by simp only [execErrorSlotClear, State.whenLive_held _ _ h]
    exact e
  | errorRaise f cond =>
    have e : execErrorRaise f cond s = .next s := by simp only [execErrorRaise, State.whenLive_held _ _ h]
    exact e
  | tailDrop f =>
    have e : execTailDrop f s = .next s := by simp only [execTailDrop, State.whenLive_held _ _ h]
    exact e
  | functionReset f =>
    have e : execFunctionReset f s = .next s := by simp only [execFunctionReset, State.whenLive_held _ _ h]
    exact e
  | functionResetEnd f pass chopper =>
    have e : execFunctionResetEnd f pass chopper s = .next s := by simp only [execFunctionResetEnd, State.whenLive_held _ _ h]
    exact e
  | softPost k cond func =>
    have e : execSoftPost k cond func s = .next s := by simp only [execSoftPost, State.whenLive_held _ _ h]
    exact e
  | recorderDrain old f =>
    have e : execRecorderDrain old f s = .next s := by simp only [execRecorderDrain, State.whenLive_held _ _ h]
    exact e
  | drainPop =>
    have e : execDrainPop s = .next s := by simp only [execDrainPop, State.whenLive_held _ _ h]
    exact e
  | recorderFreeze on =>
    have e : execRecorderFreeze on s = .next s := by simp only [execRecorderFreeze, State.whenLive_held _ _ h]
    exact e
  | freezeTimeout sb =>
    have e : execFreezeTimeout sb s = .next s := by simp only [execFreezeTimeout, State.whenLive_held _ _ h]
    exact e
  | windowLoad v seq =>
    have e : execWindowLoad v seq s = .next s := by simp only [execWindowLoad, State.whenLive_held _ _ h]
    exact e
  | recorderFaultSet page =>
    have e : execRecorderFaultSet page s = .next s := by simp only [execRecorderFaultSet, State.whenLive_held _ _ h]
    exact e
  | timeLoad hi =>
    have e : execTimeLoad hi s = .next s := by simp only [execTimeLoad, State.whenLive_held _ _ h]
    exact e
  | tokenRefill n =>
    have e : execTokenRefill n s = .next s := by simp only [execTokenRefill, State.whenLive_held _ _ h]
    exact e
  | inputGood => exact absurd hc Bool.false_ne_true
  | powerUpStart => exact absurd hc Bool.false_ne_true
  | rampFailure => exact absurd hc Bool.false_ne_true
  | vmGood => exact absurd hc Bool.false_ne_true
  | railSequenceStep => exact absurd hc Bool.false_ne_true
  | coldResetRelease xtal => exact absurd hc Bool.false_ne_true
  | railFault k => exact absurd hc Bool.false_ne_true
  | presenceRemoval => exact absurd hc Bool.false_ne_true
  | resetPinAssert => exact absurd hc Bool.false_ne_true
  | resetPinLong => exact absurd hc Bool.false_ne_true
  | resetPinRelease => exact absurd hc Bool.false_ne_true
  | pwrResetWarm =>
    have e : execPwrResetWarm s = .next s := by simp only [execPwrResetWarm, State.whenLive_held _ _ h]
    exact e
  | pwrResetDevice =>
    have e : execPwrResetDevice s = .next s := by simp only [execPwrResetDevice, State.whenLive_held _ _ h]
    exact e
  | pwrResetCold =>
    have e : execPwrResetCold s = .next s := by simp only [execPwrResetCold, State.whenLive_held _ _ h]
    exact e
  | sifEdge n level held => exact absurd hc Bool.false_ne_true
  | sifWindow n => exact absurd hc Bool.false_ne_true
  | sifStuck n => exact absurd hc Bool.false_ne_true
  | sifRearm m => exact absurd hc Bool.false_ne_true
  | wakeAssert => exact absurd hc Bool.false_ne_true
  | debugIrUpdate r => exact absurd hc Bool.false_ne_true
  | inputOvervoltage => exact absurd hc Bool.false_ne_true
  | aonOscFail => exact absurd hc Bool.false_ne_true
  | sprueLinkRetrained => exact absurd hc Bool.false_ne_true
  | vaonRetentionLoss => exact absurd hc Bool.false_ne_true
  | scrubWord pat =>
    have e : execScrubWord pat s = .next s := by simp only [execScrubWord, State.whenLive_held _ _ h]
    exact e
  | cfVerifyDone =>
    have e : execCfVerifyDone s = .next s := by simp only [execCfVerifyDone, State.whenLive_held _ _ h]
    exact e
  | brakeChopper up => exact absurd hc Bool.false_ne_true
  | rampRetry => exact absurd hc Bool.false_ne_true
  | railFaultRestart => exact absurd hc Bool.false_ne_true
  | aonWriteDone => exact absurd hc Bool.false_ne_true
  | bandCmdDone =>
    have e : execBandCmdDone s = .next s := by simp only [execBandCmdDone, State.whenLive_held _ _ h]
    exact e

end Sys2Proof.Machine
end

