-- ==== Sys2Proof/Laws/Med.lean ====
section
/-!
SUPPORT. Laws/Med.lean: what the changes of a MEDx keep and what they make, and the register reads they leave alone.
-/

namespace Sys2Proof.Machine

open Sys2Proof

@[simp] theorem med_modMed (x : Nat) (f : Med → Med) (s : State) : med (modMed x f s) x = f (med s x) := by
  unfold med modMed; split <;> rfl
@[simp] theorem med_modWr (x : Nat) (f : Wr → Wr) (s : State) :
    med (modWr x f s) x = { med s x with wr := f (med s x).wr } := med_modMed ..
@[simp] theorem med_modRc (x : Nat) (f : Rc → Rc) (s : State) :
    med (modRc x f s) x = { med s x with rc := f (med s x).rc } := med_modMed ..
@[simp] theorem med_modSr (x : Nat) (f : Sr → Sr) (s : State) :
    med (modSr x f s) x = { med s x with sr := f (med s x).sr } := med_modMed ..
@[simp] theorem med_modSv (x : Nat) (f : Sv → Sv) (s : State) :
    med (modSv x f s) x = { med s x with sv := f (med s x).sv } := med_modMed ..

@[simp] theorem med_setReg (s : State) (a x : Nat) (v : Word) : med (s.setReg a v) x = med s x := rfl
@[simp] theorem sv_setReg (s : State) (a x : Nat) (v : Word) : sv (s.setReg a v) x = sv s x := rfl

@[simp] theorem modMed_regs (x : Nat) (f : Med → Med) (s : State) : (modMed x f s).regs = s.regs := by
  unfold modMed; split <;> rfl
@[simp] theorem modMed_mem (x : Nat) (f : Med → Med) (s : State) : (modMed x f s).mem = s.mem := by
  unfold modMed; split <;> rfl
@[simp] theorem modMed_mu (x : Nat) (f : Med → Med) (s : State) : (modMed x f s).mu = s.mu := by
  unfold modMed; split <;> rfl
@[simp] theorem modMed_efts (x : Nat) (f : Med → Med) (s : State) : (modMed x f s).efts = s.efts := by
  unfold modMed; split <;> rfl
@[simp] theorem modMed_rings (x : Nat) (f : Med → Med) (s : State) : (modMed x f s).rings = s.rings := by
  unfold modMed; split <;> rfl
@[simp] theorem modMed_rf (x : Nat) (f : Med → Med) (s : State) (a hi lo : Nat) : (modMed x f s).rf a hi lo = s.rf a hi lo := by
  unfold modMed; split <;> rfl
@[simp] theorem modMed_rb (x : Nat) (f : Med → Med) (s : State) (a i : Nat) : (modMed x f s).rb a i = s.rb a i := by
  unfold modMed; split <;> rfl

@[simp] theorem modRc_mem (x : Nat) (f : Rc → Rc) (s : State) : (modRc x f s).mem = s.mem := modMed_mem ..
@[simp] theorem modSr_mem (x : Nat) (f : Sr → Sr) (s : State) : (modSr x f s).mem = s.mem := modMed_mem ..
@[simp] theorem modRc_efts (x : Nat) (f : Rc → Rc) (s : State) : (modRc x f s).efts = s.efts := modMed_efts ..
@[simp] theorem modSr_efts (x : Nat) (f : Sr → Sr) (s : State) : (modSr x f s).efts = s.efts := modMed_efts ..
@[simp] theorem modRc_mu (x : Nat) (f : Rc → Rc) (s : State) : (modRc x f s).mu = s.mu := modMed_mu ..
@[simp] theorem modSr_mu (x : Nat) (f : Sr → Sr) (s : State) : (modSr x f s).mu = s.mu := modMed_mu ..
@[simp] theorem modSr_rf (x : Nat) (f : Sr → Sr) (s : State) (a hi lo : Nat) : (modSr x f s).rf a hi lo = s.rf a hi lo :=
  modMed_rf ..
@[simp] theorem modRc_rf (x : Nat) (f : Rc → Rc) (s : State) (a hi lo : Nat) : (modRc x f s).rf a hi lo = s.rf a hi lo :=
  modMed_rf ..
@[simp] theorem modSr_rb (x : Nat) (f : Sr → Sr) (s : State) (a i : Nat) : (modSr x f s).rb a i = s.rb a i := modMed_rb ..

/-- A change of a sample slot leaves the read channel, the memory and the registers as they were. -/
@[simp] theorem med_modSlot_rc (x k : Nat) (f : Sample → Sample) (s : State) : (med (modSlot x k f s) x).rc = (med s x).rc := by
  simp [modSlot]
@[simp] theorem modSlot_efts (x k : Nat) (f : Sample → Sample) (s : State) : (modSlot x k f s).efts = s.efts := modMed_efts ..
@[simp] theorem modSlot_mu (x k : Nat) (f : Sample → Sample) (s : State) : (modSlot x k f s).mu = s.mu := modMed_mu ..
@[simp] theorem modSlot_mem (x k : Nat) (f : Sample → Sample) (s : State) : (modSlot x k f s).mem = s.mem := modSr_mem ..
@[simp] theorem modSlot_rf (x k : Nat) (f : Sample → Sample) (s : State) (a hi lo : Nat) :
    (modSlot x k f s).rf a hi lo = s.rf a hi lo := modSr_rf ..

@[simp] theorem med_bump (s : State) (a x n : Nat) : med (s.bump a n) x = med s x := (rfl)

/-- A counter's step leaves the memory unit and the efts as they were. -/
theorem bump_keeps (s : State) (a n : Nat) : (s.bump a n).mu = s.mu ∧ (s.bump a n).efts = s.efts := ⟨rfl, rfl⟩

theorem wakeEft_mu (e ev : Nat) (s : State) : (wakeEft e ev s).mu = s.mu := by
  unfold wakeEft; split
  · split
    · unfold endWait; split <;> rfl
    · rfl
  · rfl

/-- An eft that waits for nothing is not woken (R182). -/
theorem wakeEft_idle (e ev : Nat) (s : State) (h : (s.eft e).wait = .none) : wakeEft e ev s = s := by
  rw [wakeEft, h]

theorem wakeEft_efts (e ev : Nat) (s t : State) (h : (s.eft e).wait = .none) (ht : t.efts = s.efts) :
    (wakeEft e ev t).efts = s.efts := by
  rw [wakeEft_idle, ht]; rw [State.eft, ht]; exact h

theorem med_wakeEft (e ev x : Nat) (s : State) : med (wakeEft e ev s) x = med s x := by
  unfold wakeEft; split
  · split
    · unfold endWait; split <;> rfl
    · rfl
  · rfl

theorem med_keepSamples (x : Nat) (p : ReadPass) (o sw : Nat) (s : State) : (med (keepSamples x p o sw s) x).rc = (med s x).rc := by
  unfold keepSamples
  dsimp only
  split
  · split <;> simp
  · rfl

/-- The last armed sector that decodes is reported with outcome 0, the flags its pass gave, the iterations and the weight
(R327, R333). -/
theorem finishRead_rstat (x : Nat) (p : ReadPass) (g sw : Nat) (s : State) (h : p.arm.seq = (med s x).rc.seq) :
    (med (finishRead x p 0 g sw s) x).rc.rstat =
      BitVec.ofNat 32 (p.flags * 2 ^ 4 + g * 2 ^ 12 + (if g = 0 then 0 else sw) * 2 ^ 16) := by
  simp [finishRead, h, med_wakeEft, med_keepSamples]

/-- The slot that a passing sector takes is no part of the read channel. -/
@[simp] theorem takeSlot_rc (x : Nat) (a : ReadArm) (s : State) : (med (takeSlot x a s) x).rc = (med s x).rc := by
  unfold takeSlot; split <;> simp
@[simp] theorem takeSlot_rf (x : Nat) (a : ReadArm) (s : State) (r hi lo : Nat) : (takeSlot x a s).rf r hi lo = s.rf r hi lo := by
  unfold takeSlot; split <;> simp
@[simp] theorem takeSlot_rb (x : Nat) (a : ReadArm) (s : State) (r i : Nat) : (takeSlot x a s).rb r i = s.rb r i := by
  unfold takeSlot; split <;> simp [modSlot]
@[simp] theorem takeSlot_mem (x : Nat) (a : ReadArm) (s : State) : (takeSlot x a s).mem = s.mem := by
  unfold takeSlot; split <;> simp

/-- A pass without lock (R317): the sector has ended NO_LOCK, and no decoding starts. -/
theorem readPass_noLock (x : Nat) (a : ReadArm) (o : SectorObs) (s : State)
    (h : lockBit (s.rf (Reg.MED_RC_TIMING x) 23 16) (lockTaus (acquire s x a o) o.unit) = none) :
    ∃ (t : State) (q : ReadPass), readPass x a o s = finishRead x q 2 0 0 t ∧ q.arm = a ∧ (med t x).rc.armed = none ∧
      (med t x).rc.locked = false ∧ (med t x).rc.synced = false ∧ (med t x).rc.decoding = (med s x).rc.decoding := by
  unfold readPass
  simp only [modRc_rf, takeSlot_rf, h]
  exact ⟨_, _, rfl, rfl, by simp, by simp, by simp, by simp⟩

/-- A pass that locks and finds no sync mark (R317, R340): the sector has ended NO_SYNC. -/
theorem readPass_noSync (x : Nat) (a : ReadArm) (o : SectorObs) (s : State) (l : Nat)
    (h : lockBit (s.rf (Reg.MED_RC_TIMING x) 23 16) (lockTaus (acquire s x a o) o.unit) = some l)
    (h2 : acceptSync a.win a.thr (syncBits (acquire s x a o)) = none) :
    ∃ (t : State) (q : ReadPass), readPass x a o s = finishRead x q 3 0 0 t ∧ q.arm = a ∧
      q.sync = syncWord none (syncBits (acquire s x a o)) ∧ (med t x).rc.armed = none ∧
      (med t x).rc.locked = true ∧ (med t x).rc.synced = false ∧ (med t x).rc.decoding = (med s x).rc.decoding := by
  unfold readPass
  simp only [modRc_rf, takeSlot_rf, h, h2, Option.map_none]
  exact ⟨_, _, rfl, rfl, rfl, by simp, by simp, by simp, by simp⟩

/-- A pass with lock and sync (R317, R321, R340): the sector joins the decoder, and a slip is counted and raised. -/
theorem readPass_sync (x : Nat) (a : ReadArm) (o : SectorObs) (s : State) (l : Nat) (p : Int × Nat)
    (h : lockBit (s.rf (Reg.MED_RC_TIMING x) 23 16) (lockTaus (acquire s x a o) o.unit) = some l)
    (h2 : acceptSync a.win a.thr (syncBits (acquire s x a o)) = some p) :
    ∃ (t : State) (q : ReadPass), readPass x a o s =
        (if slipSeen (s.rf (Reg.MED_RC_TIMING2 x) 23 16) (176 + p.1).toNat (passTaus (acquire s x a o) o.unit)
          then rcEvent x 3 (t.bump (Reg.MED_RC_SLIPS x)) else t) ∧
      q.arm = a ∧ q.sync = syncWord (some p) (syncBits (acquire s x a o)) ∧ q.x1 = (acquire s x a o).x1 ∧
      q.x2 = (acquire s x a o).x2 ∧ (med t x).rc.armed = none ∧ (med t x).rc.locked = true ∧ (med t x).rc.synced = true ∧
      (med t x).rc.decoding = (med s x).rc.decoding ++ [q] ∧ (med t x).sr.sync = q.sync ∧ t.mem = s.mem := by
  unfold readPass
  simp only [modRc_rf, modSr_rf, takeSlot_rf, h, h2, Option.map_some]
  generalize hd : passData _ x a (acquire s x a o) _ _ _ = d
  have hq : d.1.arm = a ∧ d.1.sync = syncWord (some p) (syncBits (acquire s x a o)) ∧ d.1.x1 = (acquire s x a o).x1 ∧
      d.1.x2 = (acquire s x a o).x2 := by rw [← hd]; exact ⟨rfl, rfl, rfl, rfl⟩
  exact ⟨_, d.1, rfl, hq.1, hq.2.1, hq.2.2.1, hq.2.2.2, by simp, by simp, by simp, by simp, by simp [hq.2.1], by simp⟩

end Sys2Proof.Machine
end

