-- ==== Sys2Proof/Laws/Svc.lean ====
section
/-!
SUPPORT. Laws/Svc.lean: a capsule placed while no command is outstanding starts at once.
-/

namespace Sys2Proof.Machine

open Sys2Proof

/-- Queue pairs that leave do not stop the service image. -/
theorem svcLive_settleConns (s : State) : svcLive (settleConns s) = svcLive s := rfl

/-- One turn of the outstanding commands, where the service image runs. -/
theorem pumpN_live (n : Nat) (s : State) (h : svcLive (settleConns s) = true) :
    pumpN (n + 1) s = match tryCmds (settleConns s) [] (settleConns s).svc.cmds with
      | some t => pumpN n t
      | none => settleConns s := by
  rw [pumpN, if_pos (svcLive_settleConns s ▸ h)] <;> rfl

/-- It passes its checks, starts, and the other outstanding commands go on. -/
theorem capsule_starts {op : Nat} {q : Fin 16384} {cap : List Byte} {o : CmdObs} {s : State}
    (h : capsuleRuns op q cap o s = true) :
    capsule op q cap o s = pumpN 6 (startCmd (startingCmd op q cap o s) (checkedAt op q cap o s)) := by
  simp only [capsuleRuns, Bool.and_eq_true, List.isEmpty_iff, Option.isNone_iff_eq_none] at h
  obtain ⟨⟨⟨⟨⟨⟨h1, h2⟩, h3⟩, hl⟩, h4⟩, h5⟩, h6⟩ := h
  have hc : (placeCmd op q cap o (svcFresh s)).svc.cmds = [placedCmd op q cap o (svcFresh s)] := by
    simp [placeCmd, modSvc, h2]
  have hc' : (placedAt op q cap o s).svc.cmds = [placedCmd op q cap o (svcFresh s)] := hc
  have hd : (checkedAt op q cap o s).svc.cmds = [startingCmd op q cap o s] := by
    simp [checkedAt, settleConns, modCmd, modSvc, hc', startingCmd]
  have hp : (placedAt op q cap o s).svc.paused = false := by
    cases hp : (placedAt op q cap o s).svc.paused with
    | false => rfl
    | true =>
      have : (checkedAt op q cap o s).svc.paused = true := hp
      simp [mayStart, this] at h6
  rw [capsule, if_pos h1, pump, hc]
  change pumpN 8 _ = _
  rw [pumpN_live _ _ h3]
  change (match tryCmds (placedAt op q cap o s) [] (placedAt op q cap o s).svc.cmds with
    | some t => pumpN 7 t
    | none => placedAt op q cap o s) = _
  rw [hc']
  have e1 : tryCmds (placedAt op q cap o s) [] [placedCmd op q cap o (svcFresh s)] = some
      (modCmd (placedCmd op q cap o (svcFresh s)).seq (fun y => { y with checked := true }) (placedAt op q cap o s)) := by
    have a : (placedCmd op q cap o (svcFresh s)).checked = false := rfl
    have b : (placedCmd op q cap o (svcFresh s)).qp = q := rfl
    simp only [tryCmds, tryCmd, a, b, hp, (Bool.not_eq_true' _).mp hl, Bool.or_false, Bool.not_false, Bool.false_eq_true, if_false, if_true, h4]
  rw [e1]
  change pumpN 7 _ = _
  rw [pumpN_live _ _ h5]
  change (match tryCmds (checkedAt op q cap o s) [] (checkedAt op q cap o s).svc.cmds with
    | some t => pumpN 6 t
    | none => checkedAt op q cap o s) = _
  rw [hd]
  have e2 : tryCmds (checkedAt op q cap o s) [] [startingCmd op q cap o s] = some (startCmd (startingCmd op q cap o s) (checkedAt op q cap o s)) := by
    have a : (startingCmd op q cap o s).checked = true := rfl
    have b : (startingCmd op q cap o s).started = false := rfl
    simp only [tryCmds, tryCmd, a, b, Bool.not_true, Bool.false_eq_true, if_false, h6, if_true]
  rw [e2]

/-- The opcode of a placed capsule is its row's. -/
theorem capOp_starting (op : Nat) (h : op < 256) (q : Nat) (cap : List Byte) (o : CmdObs) (s : State) :
    capOp (startingCmd op q cap o s).cap = op := by
  have : (startingCmd op q cap o s).cap = capOf op cap := rfl
  rw [this]
  have e : ∃ l, capOf op cap = BitVec.ofNat 8 op :: l := by
    unfold capOf
    obtain ⟨n, hn⟩ : ∃ n, max 64 cap.length = n + 1 := ⟨max 64 cap.length - 1, by omega⟩
    rw [hn]
    simp [fit]
  obtain ⟨l, hl⟩ := e
  rw [hl]
  simp [capOp, byteAt, Nat.mod_eq_of_lt h]

/-- The same with the start of one opcode spelt out. -/
theorem starts_as {op : Nat} {q : Fin 16384} {cap : List Byte} {o : CmdObs} {s : State} (h256 : op < 256)
    (h : capsuleRuns op q cap o s = true) (f : Cmd → State → State)
    (hf : ∀ x t, capOp x.cap = op → startCmd x t = f x t) :
    capsule op q cap o s = pumpN 6 (f (startingCmd op q cap o s) (checkedAt op q cap o s)) := by
  rw [capsule_starts h, hf _ _ (capOp_starting op h256 q cap o s)]

end Sys2Proof.Machine
end

