-- ==== Sys2Proof/WellFormed.lean ====
section
/-!
DEFINITION. WellFormed.lean: the operands that a sender of commands may form. Where a command carries the bytes of a message or
the readings of a set of monitors, there are as many as the spec gives that message or that set. The meanings are total all the
same and hold for ill-formed operands too.
-/

namespace Sys2Proof

/-- Well-formed commands: capsules of 64 to 512 bytes (R61, R73), the sideband's payload lengths (R518), one reading per node, sensor,
meter or monitor (R421, R423, R428, R439), samples of a whole sector (R317), at most 12 payload bytes (R534), stored words at their addresses and reads of the memories that
hold none (R462). -/
def Instr.wf : Instr → Bool
  | .registerWrite _ _ _ _ => true
  | .retractPhaseEnd _ => true
  | .retractDone _ => true
  | .rampLatched _ => true
  | .forceParkAssert => true
  | .sprueAlignmentLoss => true
  | .sprueRetrainTimeout => true
  | .svcFenceTimeout => true
  | .portModeSet _ _ => true
  | .portEnable _ => true
  | .netHoldSet => true
  | .netHoldClear => true
  | .linkUp _ => true
  | .linkDown _ => true
  | .rxFrame _ o => 12 ≤ o.bytes.length && o.uncorr + o.corr < 2 ^ 32
  | .fecBurstRearm _ => true
  | .pfcXon _ _ => true
  | .contextFetchDone _ => true
  | .pfcPauseReceived _ _ _ => true
  | .pfcStorm _ => true
  | .cnpReceived _ => true
  | .rateIncrease _ => true
  | .rawConsWrite _ => true
  | .rawRingConfig _ _ => true
  | .mbxConsWrite _ _ => true
  | .rxSend _ _ bytes _ => bytes.length ≤ 4096
  | .rxRdmaWrite _ _ _ _ _ => true
  | .rxRdmaRead _ _ _ _ _ => true
  | .rxReadResponse _ _ => true
  | .rxAck _ _ => true
  | .rxNak _ _ => true
  | .ackTimeout _ => true
  | .rnrTimerExpiry _ => true
  | .qpErrFifoPop => true
  | .create _ => true
  | .modify _ => true
  | .query _ => true
  | .destroy _ => true
  | .pin _ => true
  | .unpin _ => true
  | .bindMailbox _ => true
  | .advertise _ => true
  | .withdraw _ => true
  | .send _ => true
  | .rdmaWrite _ => true
  | .rdmaRead _ => true
  | .transmit _ => true
  | .mctpControlMessage msg => 3 ≤ msg.bytes.length && msg.bytes.length ≤ 64
  | .identityGet _ => true
  | .sidebandAttest _ nonce => nonce.length = 32
  | .sidebandLcSet _ auth _ => auth.length = 5376
  | .keyslotSet _ _ digest => digest.length = 32
  | .authAction _ auth _ => auth.length = 5325
  | .recRead _ _ _ => true
  | .recFreeze _ _ => true
  | .recClear _ auth _ => auth.length = 5325
  | .recStatus _ => true
  | .connect _ cap _ => 64 ≤ cap.length && cap.length ≤ 512
  | .disconnect _ cap _ => 64 ≤ cap.length && cap.length ≤ 512
  | .identify _ cap _ => 64 ≤ cap.length && cap.length ≤ 512
  | .put _ cap _ => 64 ≤ cap.length && cap.length ≤ 512
  | .get _ cap _ => 64 ≤ cap.length && cap.length ≤ 512
  | .write _ cap _ => 64 ≤ cap.length && cap.length ≤ 512
  | .delete _ cap _ => 64 ≤ cap.length && cap.length ≤ 512
  | .head _ cap _ => 64 ≤ cap.length && cap.length ≤ 512
  | .list _ cap _ => 64 ≤ cap.length && cap.length ≤ 512
  | .flush _ cap _ => 64 ≤ cap.length && cap.length ≤ 512
  | .destage _ cap _ => 64 ≤ cap.length && cap.length ≤ 512
  | .order _ cap _ => 64 ≤ cap.length && cap.length ≤ 512
  | .getFeature _ cap _ => 64 ≤ cap.length && cap.length ≤ 512
  | .setFeature _ cap _ => 64 ≤ cap.length && cap.length ≤ 512
  | .powerState _ cap _ => 64 ≤ cap.length && cap.length ≤ 512
  | .powerStateEntered => true
  | .powerStateReversal => true
  | .fwStage _ cap _ => 64 ≤ cap.length && cap.length ≤ 512
  | .fwActivate _ cap _ => 64 ≤ cap.length && cap.length ≤ 512
  | .formatEpochAdvance _ cap _ => 64 ≤ cap.length && cap.length ≤ 512
  | .repairBuild _ cap _ => 64 ≤ cap.length && cap.length ≤ 512
  | .scrub _ cap _ => 64 ≤ cap.length && cap.length ≤ 512
  | .sanitize _ cap _ => 64 ≤ cap.length && cap.length ≤ 512
  | .attest _ cap _ => 64 ≤ cap.length && cap.length ≤ 512
  | .setTime _ cap _ => 64 ≤ cap.length && cap.length ≤ 512
  | .recorderRead _ cap _ => 64 ≤ cap.length && cap.length ≤ 512
  | .recorderClear _ cap _ => 64 ≤ cap.length && cap.length ≤ 512
  | .errorLogRead _ cap _ => 64 ≤ cap.length && cap.length ≤ 512
  | .queueRestart _ cap _ => 64 ≤ cap.length && cap.length ≤ 512
  | .abort _ cap _ => 64 ≤ cap.length && cap.length ≤ 512
  | .writeCommit _ _ => true
  | .writeAcknowledge _ _ _ => true
  | .activationSuspend => true
  | .activationTimeout => true
  | .destageStart => true
  | .stagedPageRelease _ => true
  | .sqEnable _ => true
  | .cqEnable _ => true
  | .sqDoorbell _ _ => true
  | .cqDoorbell _ _ => true
  | .entryFetchDone _ _ => true
  | .phaseRetry _ => true
  | .jobStart _ _ => true
  | .completionPost _ => true
  | .spillWrite _ => true
  | .ringErrFifoPop => true
  | .nop _ _ => true
  | .ldi _ _ => true
  | .ldh _ _ => true
  | .addi _ _ => true
  | .mov _ _ => true
  | .add _ _ => true
  | .sub _ _ => true
  | .and _ _ => true
  | .or _ _ => true
  | .xor _ _ => true
  | .shl _ _ => true
  | .shr _ _ => true
  | .cmp _ _ => true
  | .job _ _ => true
  | .xfer _ _ => true
  | .xferDone _ => true
  | .wait _ _ => true
  | .waitTimeout _ => true
  | .br _ _ => true
  | .call _ _ => true
  | .ret _ _ => true
  | .dbnz _ _ => true
  | .commit _ _ => true
  | .endUnit _ _ => true
  | .fail _ _ => true
  | .res _ _ => true
  | .evt _ _ => true
  | .halt _ _ => true
  | .unitAbandon _ _ => true
  | .unitRestart _ => true
  | .eftWatchdog _ => true
  | .breakpointHalt _ => true
  | .timeUs _ _ => true
  | .unitRestarts _ _ => true
  | .token _ _ => true
  | .loadStart _ => true
  | .csDataWrite _ _ => true
  | .loadFinish _ => true
  | .eftRun _ _ => true
  | .eftStep _ _ => true
  | .eftResume _ => true
  | .channelEnable _ _ => true
  | .rateSwitch _ => true
  | .rateSwitchDone _ _ => true
  | .readPage _ _ _ _ => true
  | .programPage _ _ _ => true
  | .eraseBlock _ _ _ => true
  | .stgSetFeature _ => true
  | .stgGetFeature _ => true
  | .resetLun _ => true
  | .readParam _ _ => true
  | .cmd _ _ => true
  | .addr _ _ => true
  | .apply _ _ => true
  | .status _ _ => true
  | .decode _ _ => true
  | .decodeDone _ _ => true
  | .syndrome _ _ => true
  | .yield _ _ => true
  | .confirm _ _ => true
  | .suspend _ _ => true
  | .resume _ _ => true
  | .reset _ _ => true
  | .featureData _ _ => true
  | .lunReady _ _ _ => true
  | .arrayTimeout _ _ => true
  | .suspendRequest _ _ _ => true
  | .suspendResumeCondition _ _ _ => true
  | .parkedJobResume _ => true
  | .blkCmd _ => true
  | .blkCmdApply => true
  | .adviseFifoPop => true
  | .compress _ _ => true
  | .decompress _ => true
  | .encode => true
  | .erasureDecode => true
  | .encrypt _ _ => true
  | .decrypt _ _ => true
  | .copy => true
  | .zoneEnable => true
  | .zoneScanDone => true
  | .zoneOpen _ => true
  | .zoneClose _ => true
  | .zoneFinish _ => true
  | .zoneReset _ => true
  | .zoneSync _ => true
  | .setRo _ => true
  | .zoneOffline _ => true
  | .remap _ => true
  | .zoneCmdUndefined _ _ => true
  | .zoneOffer _ => true
  | .writeRelease _ => true
  | .palTransaction _ _ _ _ _ _ => true
  | .preampFaultInput _ _ => true
  | .palCmd _ _ _ _ _ => true
  | .tdSweep _ _ => true
  | .whead _ _ => true
  | .wsect _ _ => true
  | .wparity _ _ => true
  | .wstat _ _ => true
  | .wend _ _ => true
  | .arm _ _ => true
  | .writeSectorPass _ _ _ => true
  | .sectorWriteEnd _ => true
  | .rhead _ _ => true
  | .rsect _ _ => true
  | .rarm _ _ => true
  | .rstat _ _ => true
  | .rerased _ _ => true
  | .rend _ _ => true
  | .readSectorPass _ o => o.x1.length = 37112 && o.x2.length = 37112
  | .sectorReadOutcome _ _ => true
  | .sectorGap _ => true
  | .adcMeasPeriod _ _ _ _ _ _ => true
  | .sync _ _ => true
  | .sslot _ _ => true
  | .spin _ _ => true
  | .oredet _ _ => true
  | .offlineDone _ _ => true
  | .ostat _ _ => true
  | .ocstart _ _ => true
  | .ocstat _ _ => true
  | .ocsolve _ _ => true
  | .ocsolveDone _ => true
  | .redetect _ _ => true
  | .mediaRead _ _ => true
  | .mediaWrite _ _ => true
  | .verify _ _ => true
  | .capture _ _ => true
  | .seek _ _ => true
  | .load _ _ => true
  | .unload _ _ => true
  | .wedgeStrobe _ _ => true
  | .svstat _ _ => true
  | .retarget _ _ => true
  | .roffset _ _ => true
  | .rampOff _ _ => true
  | .rampOn _ _ => true
  | .rampTimeout _ => true
  | .faultClr _ => true
  | .svCmdRetarget _ _ => true
  | .traceArm _ => true
  | .traceTrigNow _ => true
  | .traceStop _ => true
  | .servoLaneFrame _ _ => true
  | .laneTimeout _ => true
  | .speedCommand _ => true
  | .speedRefTick _ => true
  | .speedLoopTick _ _ _ _ => true
  | .detectEnd _ => true
  | .stopDetected => true
  | .startTimeout => true
  | .hallEdge _ => true
  | .relockTimeout => true
  | .alignEnd => true
  | .pwmPeriod _ => true
  | .vmOvervoltage => true
  | .inputDip _ => true
  | .powerLoss => true
  | .holdupDone => true
  | .vmBelowHoldMin => true
  | .inputGoodBoot => true
  | .modelStep duty => duty.length = 24
  | .sensorSample t => t.length = 20
  | .quenchCooled => true
  | .sensorRearm _ => true
  | .budgetWindow _ meters => meters.length = 15
  | .avfsTick slack => slack.length = 8
  | .coreDroop => true
  | .calRequest _ => true
  | .calRunStart _ _ => true
  | .calDeferTimeout _ => true
  | .calRunTimeout _ => true
  | .calRunEnd _ o => o.rates.length ≤ 8
  | .scrubStart _ => true
  | .scrubStop => true
  | .scrubEnd => true
  | .errorTableClear _ => true
  | .voteCheck o => o.stored.all (fun u => u.1.toNat % 8 = 0) && o.reads.all (fun u => 3 < u.mem.val || u.mem = 2)
  | .dramRefresh => true
  | .dramTempPoll _ _ _ _ _ => true
  | .dramTrainingDone _ => true
  | .wipeDone => true
  | .xipRead _ _ => true
  | .cfProgram _ _ _ _ _ _ => true
  | .cfErase _ _ _ _ _ => true
  | .cfInfo => true
  | .cfPulseEnd _ => true
  | .l2Invalidate _ => true
  | .mailboxSend => true
  | .mailboxReply => true
  | .cruMbxPop => true
  | .svcCmbxPop => true
  | .flashWrite _ _ _ _ _ => true
  | .flashErase _ _ _ _ => true
  | .settingsWrite _ _ _ _ _ => true
  | .stage _ _ _ _ _ _ _ _ => true
  | .activate _ _ _ => true
  | .ready _ => true
  | .bandCreate _ _ _ => true
  | .cruSanitize _ _ _ _ _ => true
  | .authCheck _ _ _ => true
  | .cruAttest _ _ _ => true
  | .windowSet _ _ _ _ _ _ => true
  | .funcReset _ _ => true
  | .cruLcSet _ _ _ => true
  | .debugLcMould => true
  | .fuseLifecycle _ => true
  | .fuseVaultWord _ => true
  | .fuseKekStep _ => true
  | .fuseSvnCru _ => true
  | .fuseSvnSvc _ => true
  | .fuseSvnProf _ => true
  | .fuseKeySlot _ => true
  | .fuseIdentitySeed _ => true
  | .fuseBurnDone => true
  | .bandCmdCreate _ => true
  | .bandLoad _ => true
  | .bandUnload _ => true
  | .bandRewrap _ => true
  | .hashStart _ => true
  | .hashDone => true
  | .rngDataRead => true
  | .entropyHealthFail => true
  | .wdogKick => true
  | .wdogStop => true
  | .bootWatchdogExpiry => true
  | .trialTimeout => true
  | .coreRestart _ => true
  | .bootStart _ _ _ _ _ => true
  | .eventRaise _ _ payload => match payload with | some b => b.length ≤ 12 | none => true
  | .handleTimeout _ => true
  | .errorSlotClear _ => true
  | .errorRaise _ _ => true
  | .tailDrop _ => true
  | .functionReset _ => true
  | .functionResetEnd _ _ _ => true
  | .softPost _ _ _ => true
  | .recorderDrain _ _ => true
  | .drainPop => true
  | .recorderFreeze _ => true
  | .freezeTimeout _ => true
  | .windowLoad _ _ => true
  | .recorderFaultSet _ => true
  | .timeLoad _ => true
  | .tokenRefill _ => true
  | .inputGood => true
  | .powerUpStart => true
  | .rampFailure => true
  | .vmGood => true
  | .railSequenceStep => true
  | .coldResetRelease _ => true
  | .railFault _ => true
  | .presenceRemoval => true
  | .resetPinAssert => true
  | .resetPinLong => true
  | .resetPinRelease => true
  | .pwrResetWarm => true
  | .pwrResetDevice => true
  | .pwrResetCold => true
  | .sifEdge _ _ _ => true
  | .sifWindow _ => true
  | .sifStuck _ => true
  | .sifRearm _ => true
  | .wakeAssert => true
  | .debugIrUpdate _ => true
  | .inputOvervoltage => true
  | .aonOscFail => true
  | .sprueLinkRetrained => true
  | .vaonRetentionLoss => true
  | .scrubWord _ => true
  | .cfVerifyDone => true
  | .brakeChopper _ => true
  | .rampRetry => true
  | .railFaultRestart => true
  | .aonWriteDone => true
  | .bandCmdDone => true

end Sys2Proof
end

