-- ==== Sys2Proof/Tests/Slice0.lean ====
section
/-!
SUPPORT. Tests/Slice0.lean: the ill-formed terms that WellFormed refuses, known answers of the computations, and for every
statement a state and operands that meet the hypotheses of its clauses.
-/

set_option Elab.async false

namespace Sys2Proof.Tests

open Sys2Proof Sys2Proof.Machine

/-! ## Small states and operands -/

/-- A machine with some registers written. -/
def withRegs (l : List (Nat × Word)) : State := l.foldl (fun s x => s.setReg x.1 x.2) State.reset

/-- A structure of 64 bytes, zero but for some fields: byte offset, bytes, value. -/
def entryOf (l : List (Nat × Nat × Nat)) : List Byte :=
  l.foldl (fun b x => patch b x.1 (leBytes x.2.1 x.2.2)) (List.replicate 64 0)

/-- An eft that runs the word `w` at PC 0 of a unit of the entry `b`, changed by `f`. -/
def eftState (e : Fin 12) (w : MWord) (b : List Byte) (f : EftUnit → EftUnit) : State :=
  State.reset.setEft e { State.reset.eft e with
    st := .running, valid := true, cs := if w = 0 then [] else [(1, w)],
    unit := some (f (EftUnit.start ⟨16383, 0, b, 1, 0⟩ 0 0 0 0)) }

def runEntry : List Byte := entryOf [(0, 1, 0x07), (1, 1, 1), (24, 5, 0x10002000), (32, 4, 4)]

/-- An eft in a given state, with nothing in it. -/
def eftIn (e : Fin 12) (f : Eft → Eft) : State := State.reset.setEft e (f (State.reset.eft e))

/-- A machine whose life-cycle fuse word, and the word in effect, is `v`: 0x1F for MOULD, 0x1F1F for TEMPERED. -/
def lcState (v : Word) : State := { State.reset with mu := { State.reset.mu with trip0 := ⟨v, v, v⟩ } }

/-- A command to which the outside world brings nothing. -/
def noObs : CmdObs := ⟨[], [], none, false, [], []⟩

/-- Registers that grant a set of windows the first 2 MiB of DRAM. -/
def grant (f : Nat) : List (Nat × Word) :=
  [(Reg.CRU_WIN f 0 0, 0x800000), (Reg.CRU_WIN f 0 1, 0x8001FF), (Reg.CRU_WIN f 0 3, 1)]

/-- A machine with 8 GiB of DRAM and some registers written. -/
def dramState (l : List (Nat × Word)) : State :=
  let s := withRegs l
  { s with mu := { s.mu with cap := 1 } }
/-! ## Ill-formed operands -/

theorem test_wf_frame : (Instr.rxFrame 0 ⟨[1, 2, 3], 0, false, none, 0, 0, 0⟩).wf = false := by decide
theorem test_wf_frame_fec : (Instr.rxFrame 0 ⟨List.replicate 12 0, 0, false, none, 2 ^ 32, 0, 0⟩).wf = false := by decide
theorem test_wf_send : (Instr.rxSend 0 ⟨0, 0⟩ (List.replicate 4097 0) true).wf = false := by decide +kernel
theorem test_wf_mctp : (Instr.mctpControlMessage ⟨0, none, 0, [0, 0]⟩).wf = false := by decide
theorem test_wf_nonce : (Instr.sidebandAttest 0 []).wf = false := by decide
theorem test_wf_stored : (Instr.voteCheck ⟨[], [(1, 1)], []⟩).wf = false := by decide
theorem test_wf_reads : (Instr.voteCheck ⟨[], [], [⟨0, 0, 1, 0, none⟩]⟩).wf = false := by decide
theorem test_wf_lc_set : (Instr.sidebandLcSet 0 [] none).wf = false := by decide
theorem test_wf_digest : (Instr.keyslotSet 0 1 []).wf = false := by decide
theorem test_wf_auth : (Instr.authAction 0 [] none).wf = false ∧ (Instr.recClear 0 [] none).wf = false := by decide
theorem test_wf_samples : (Instr.readSectorPass 0 ⟨[], [], 0⟩).wf = false := by decide
theorem test_wf_duty : (Instr.modelStep []).wf = false := by decide
theorem test_wf_sensors : (Instr.sensorSample []).wf = false := by decide
theorem test_wf_meters : (Instr.budgetWindow 0 []).wf = false := by decide
theorem test_wf_slack : (Instr.avfsTick []).wf = false := by decide
theorem test_wf_rates : (Instr.calRunEnd 4 ⟨List.replicate 9 0, []⟩).wf = false := by decide
theorem test_wf_capsules : ∀ f ∈ [
    Instr.connect, .disconnect, .identify, .put, .get, .write, .delete, .head,
    .list, .flush, .destage, .order, .getFeature, .setFeature, .powerState, .fwStage,
    .fwActivate, .formatEpochAdvance, .repairBuild, .scrub, .sanitize, .attest, .setTime, .recorderRead,
    .recorderClear, .errorLogRead, .queueRestart, .abort],
    (f 0 [] noObs).wf = false := by
  decide +kernel

theorem test_wf_capsule_bounds : ([63, 64, 512, 513].map fun n => (Instr.put 0 (List.replicate n 0) noObs).wf) =
    [false, true, true, false] := by decide +kernel

/-! ## Known answers -/

/-- FIPS 197, sections 4.2 and 5.1.1. -/
theorem test_aes_field : aesMul 0x57 0x83 = 0xC1 ∧ sbox 0x53 = 0xED ∧ sboxInv 0xED = 0x53 := by decide +kernel

/-- CRC-32C of the nine ASCII digits. -/
theorem test_crc32c : crc32c [0x31, 0x32, 0x33, 0x34, 0x35, 0x36, 0x37, 0x38, 0x39] = 0xE3069283 := by decide +kernel

/-- The worked lap of R148: PHASE 1 on the first lap of 16 entries and 0 on the second. -/
theorem test_phase : phaseOf 4 0 = true ∧ phaseOf 4 15 = true ∧ phaseOf 4 16 = false ∧ phaseOf 4 31 = false := by decide

/-! ## Witnesses: states and operands that meet the hypotheses of the statements -/

/-- A machine held in a warm reset, with a command of the logic die waiting. -/
def heldState : State :=
  { State.reset with pwr := { State.reset.pwr with inReset := some (.warm, 0) }, pending := [.wdogKick, .hashDone] }

/-- The machine after reset with the service image running. -/
def servingState : State :=
  { State.reset with cru := { State.reset.cru with boot := .released } }

theorem witness_StepRunsFrontCommand :
    (let s := State.reset
     s.pending = [] ∧ s.svc.cmds = [] ∧ s.svc.entering = none ∧ pinsCall s = false ∧ (s.timeUs + 1) % 100000 ≠ 0) ∧
    (∀ us ∈ [4, 5], let s : State := { servingState with pwr := { State.reset.pwr with holdup := true, doneBy := us }, timeUs := 4 }
      s.pending = [] ∧ s.svc.cmds = [] ∧ s.svc.entering = none ∧ pinsCall s = false ∧ (s.timeUs + 1) % 100000 ≠ 0 ∧
      s.live = true ∧ svcLive s = true ∧ s.pwr.holdup = true ∧ s.pwr.doneBy ≤ s.timeUs + 1) := by decide +kernel

theorem witness_HeldLogicDieIsUntouched :
    heldState.live = false ∧ (∀ c ∈ heldState.pending, onLogicDie c = true) ∧ heldState.pending ≠ [] := by decide

theorem witness_CanonicalMemory :
    Memory.wf [(3, 1), (9, 0xFF)] = true ∧ Memory.wf [(3, 0)] = false ∧ Memory.wf [(9, 1), (3, 1)] = false ∧
    Regs.wf (withRegs [(Reg.NET_RAW_SIZE, 9)]).regs = true ∧
    (State.reset.setBytes 0x10FFFFFE [7, 8]).bytes 0x10FFFFFE 2 = [7, 8] := by decide +kernel

/-- A machine whose service SRAM word at its last address holds an upset. -/
def upsetState (e : BitVec 80) : State :=
  { State.reset with mu := { State.reset.mu with errs := [(errKey 1 0x10FFFFF8, e)] } }

theorem witness_CodedRead :
    (let s := upsetState (BitVec.ofNat 80 (0xFF * 2 ^ (8 * 9)))
     s.live = true ∧ inSram 0x10FFFFF8 (2 ^ 3) = true ∧
       errsIn s 0x10FFFFF8 (2 ^ 3) = [(0x10FFFFF8, BitVec.ofNat 80 (0xFF * 2 ^ (8 * 9)))]) ∧
    (let s := upsetState 1
     s.live = true ∧ inSram 0x10FFFFFC (2 ^ 2) = true ∧ errsIn s 0x10FFFFFC (2 ^ 2) = [(0x10FFFFF8, 1)]) ∧
    (let s := upsetState 0x0101
     s.live = true ∧ inSram 0x10FFFFF8 (2 ^ 0) = true ∧ errsIn s 0x10FFFFF8 (2 ^ 0) = [(0x10FFFFF8, 0x0101)] ∧
       eccDecode 0x0101 = .uncorrectable) := by decide +kernel

theorem witness_EventFrame :
    (∃ t, exec (.eventRaise 0 0 none) State.reset = .next t) ∧ (∃ t, exec (.softPost 7 255 8) State.reset = .next t) ∧
    (∃ t, exec (.handleTimeout 6) State.reset = .next t) ∧ (∃ t, exec (.errorSlotClear 0) State.reset = .next t) ∧
    (∃ t, exec (.errorRaise 6 1) State.reset = .next t) ∧ (∃ t, exec (.tailDrop 6) State.reset = .next t) ∧
    (∃ t, exec (.tokenRefill 255) State.reset = .next t) :=
  ⟨⟨_, rfl⟩, ⟨_, rfl⟩, ⟨_, rfl⟩, ⟨_, rfl⟩, ⟨_, rfl⟩, ⟨_, rfl⟩, ⟨_, rfl⟩⟩

theorem witness_AlignedRegisterAccess :
    State.reset.live = true ∧ (0x20000000 : BitVec 40).toNat = 0x20000000 ∧ ((3 : Fin 4) ≠ 2) ∧
    (0x28FFFFFE : BitVec 40).toNat < 0x29000000 ∧ (0x28FFFFFE : BitVec 40).toNat % 4 ≠ 0 := by decide

theorem witness_VcmFullScaleWrite :
    State.reset.live = true ∧ State.reset.medA.sv.st = .off ∧ State.reset.medB.sv.st = .off ∧
    { State.reset with medA := { State.reset.medA with sv := { State.reset.medA.sv with st := .tracking } } }.live = true ∧
    { State.reset.medA.sv with st := .tracking }.st ≠ .off := by decide

/-- Completion ring 4095 with 16 entries, enabled, and an index P. -/
def cqState (p : Word) : State :=
  withRegs [(Reg.CQ_STATE 4095, 0x1000000), (Reg.CQ_BASE_LO 4095, 0x10000000), (Reg.CQ_PROD 4095, p)]

theorem witness_CompletionDoorbell :
    (let s := cqState 16
     s.live = true ∧ cqActive s 4095 = true ∧ ringCount (cqN s 4095) 16 (cqC s 4095) ≤ cqCount s 4095 ∧
       cqCount s 4095 < ringCount (cqN s 4095) 17 (cqC s 4095)) ∧
    State.reset.live = true ∧ cqActive State.reset 4095 = false := by decide +kernel

theorem witness_CompletionDoorbell_enable :
    let s := withRegs [(Reg.CQ_BASE_LO 4095, 0x10000000)]
    s.live = true ∧ cqActive s 4095 = false ∧ cqP s 4095 = 0 ∧ cqC s 4095 = 0 ∧
      ∃ t, exec (.cqEnable 4095) s = .next t ∧ cqActive t 4095 = true := by
  refine ⟨by decide +kernel, by decide +kernel, by decide +kernel, by decide +kernel, _, rfl, ?_⟩; decide +kernel

theorem witness_RegisterWindowAccess :
    State.reset.live = true ∧ inWindows (0x20000000 : BitVec 40).toNat = true ∧ inWindows (0x28FFFFFF : BitVec 40).toNat = true ∧
    (0x28FFFFFF : BitVec 40).toNat % 4 ≠ 0 ∧
    (inWindows 0x20FFFFFC && inWindows 0x27FFFFFC) = true ∧ 0x20FFFFFC % 4 = 0 ∧ 0x27FFFFFC % 4 = 0 ∧
    Reg.rowAt 0x20FFFFFC = none ∧ Reg.rowAt 0x27FFFFFC = none ∧
    (inWindows Reg.CRU_ID && inWindows 0x27100008 && inWindows Reg.NET_ID) = true ∧
    Reg.CRU_ID % 4 = 0 ∧ 0x27100008 % 4 = 0 ∧ Reg.NET_ID % 4 = 0 ∧
    (Reg.rowAt Reg.CRU_ID).map (fun r => answersTo r Reg.CRU_ID) = some .crucible ∧
    (Reg.rowAt 0x27100008).map (fun r => answersTo r 0x27100008) = some .romRoutine ∧
    (Reg.rowAt Reg.NET_ID).map (fun r => answersTo r Reg.NET_ID) = some .any := by decide +kernel

/-- A register of each access code. -/
theorem witness_RegisterAccessCodes :
    State.reset.live = true ∧ ∀ p ∈ [(0x25000010, Reg.Access.rw), (0x2500000C, .w1c), (0x25000000, .ro)],
      p.1 % 4 = 0 ∧ p.1 / 0x1000000 = 0x25 ∧ p.1 % 0x1000000 ≠ 4 ∧ p.1 % 0x1000000 ≠ 0x14 ∧
      (Reg.rowAt p.1).any (fun r => r.who = .any && r.act = 0 && r.access = p.2) = true := by decide +kernel

theorem witness_CoreMemoryAccess :
    State.reset.live = true ∧ State.reset.mu.errs = [] ∧
    (inSram 0x10FFFFF8 (2 ^ 3) || (State.reset.inDram 0x10FFFFF8 (2 ^ 3) && State.reset.grantedSvc 0x10FFFFF8 (2 ^ 3))) = true ∧
    (inSram 0x11000000 (2 ^ 0) || (State.reset.inDram 0x11000000 (2 ^ 0) && State.reset.grantedSvc 0x11000000 (2 ^ 0))) = false ∧
    inWindows 0x11000000 = false ∧ xipOffset 0x11000000 (2 ^ 0) = none ∧
    xipOffset 0xBFFFFF8 (2 ^ 3) = some 0x3FFFFF8 ∧ xipHidden State.reset (0x3FFFFF8 / 32) = false := by decide +kernel

theorem witness_CoreMemoryAccess_dram :
    let s := dramState [(Reg.CRU_SWIN 63 0, 0x800000), (Reg.CRU_SWIN 63 1, 0x8001FF), (Reg.CRU_SWIN 63 3, 1)]
    s.live = true ∧ s.mu.errs = [] ∧ (s.inDram 0x8001FFFF8 (2 ^ 3) && s.grantedSvc 0x8001FFFF8 (2 ^ 3)) = true := by
  decide +kernel

theorem witness_RingCommandFrame :
    (∃ t, exec (.sqEnable 16383) State.reset = .next t) ∧ (∃ t, exec (.cqEnable 0) State.reset = .next t) ∧
    (∃ t, exec (.sqDoorbell 0 1) State.reset = .next t) ∧ (∃ t, exec (.cqDoorbell 0 1) State.reset = .next t) ∧
    State.reset.rb (Reg.EVC_SRC 166) 9 = false :=
  ⟨⟨_, rfl⟩, ⟨_, rfl⟩, ⟨_, rfl⟩, ⟨_, rfl⟩, by decide +kernel⟩

theorem witness_CrucibleEngineFrame : ∃ t, exec (.fuseKeySlot 3) State.reset = .next t ∧ t.cru.burn = some (7, 3) := by
  refine ⟨_, rfl, ?_⟩; decide +kernel

/-- Submission ring 16383: STG class 0, 16 entries in service SRAM, completing into ring 4095. -/
def sqRegs : List (Nat × Word) :=
  [(Reg.SQ_BASE_LO 16383, 0x10001000), (Reg.SQ_CFG 16383, 0x0FFF0400), (Reg.CQ_STATE 4095, 0x1000000),
    (Reg.CQ_BASE_LO 4095, 0x10000000)]

theorem witness_RingRegisterCommands :
    (let s := withRegs sqRegs
     s.live = true ∧ sqState s 16383 = 0 ∧ sqMayEnable (s.setRb (Reg.SQ_CFG 16383) 31 true) 16383 = true) ∧
    (let s := withRegs [(Reg.CQ_BASE_LO 4095, 0x10000000)]
     s.live = true ∧ cqActive s 4095 = false ∧ cqMayEnable (s.setRb (Reg.CQ_CFG 4095) 31 true) 4095 = true) ∧
    (let s := withRegs ((Reg.SQ_STATE 16383, 0x1000000) :: sqRegs)
     s.live = true ∧ sqState s 16383 ≠ 0 ∧ ringCount (sqN s 16383) 16 (sqC s 16383) ≤ 2 ^ sqN s 16383 ∧
       ringCount (sqN s 16383) 16 (sqP s 16383) ≤ 2 ^ sqN s 16383 - ringCount (sqN s 16383) (sqP s 16383) (sqC s 16383)) ∧
    (let s := cqState 15
     s.live = true ∧ cqActive s 4095 = true ∧ ringCount (cqN s 4095) 15 (cqC s 4095) ≤ cqCount s 4095 ∧
       cqCount s 4095 + cqReserved s 4095 < 2 ^ cqN s 4095) ∧
    (let s : State := { State.reset with rings := { State.reset.rings with errFifo := [(16383, 13)] } }
     s.live = true ∧ s.rings.errFifo = [(16383, 13)]) := by decide +kernel

/-- Submission ring 16383 ACTIVE for class 5 of XFM, 16 entries, two entries below P. -/
def ringState : State :=
  withRegs [(Reg.SQ_STATE 16383, 0x1000000), (Reg.SQ_BASE_LO 16383, 0x10001000), (Reg.SQ_CFG 16383, 0x0FFF0550),
    (Reg.SQ_PROD 16383, 2), (Reg.RING_CTRL, 2), (Reg.BA_COST_XFM, 0), (Reg.CQ_STATE 4095, 0x1000000),
    (Reg.CQ_BASE_LO 4095, 0x10000000)]

/-- A COPY entry of one byte with the PHASE of the first lap, FIRST and LAST. -/
def copyEntry : List Byte :=
  entryOf [(0, 1, 0x57), (1, 1, 1), (16, 5, 0x10002000), (24, 4, 1), (32, 5, 0x10003000), (40, 4, 1)]

/-- That ring with an entry at its base. -/
def copyState (bs : List Byte) : State := ringState.setBytes 0x10001000 bs

def startState (bs : List Byte) : State :=
  { ringState with rings := { ringState.rings with fetched := [⟨16383, 0, bs⟩] } }

theorem witness_RingManagerCommands_fetch :
    let s := copyState copyEntry
    s.live = true ∧ sqState s 16383 = 1 ∧ s.rb (Reg.SQ_STATE 16383) 26 = false ∧ 0 < 2 ^ (sqN s 16383 + 1) ∧
      ringCount (sqN s 16383) 0 (sqF s 16383) <
        ringCount (sqN s 16383) (sqP s 16383) (sqF s 16383) + min 8 (s.rf Reg.RING_CTRL 3 0) ∧
      ringCount (sqN s 16383) 0 (sqF s 16383) < 2 ^ sqN s 16383 - ringCount (sqN s 16383) (sqF s 16383) (sqC s 16383) ∧
      tries s 16383 = 0 ∧ atUse s 16383 = true ∧ 0 = useIndex s 16383 ∧
      (busRead (sqFunc s 16383) (sqAddr s 16383 0) 64 s).1 = .ok copyEntry ∧ ePhase copyEntry = phaseOf (sqN s 16383) 0 := by
  decide +kernel

theorem witness_RingManagerCommands_retry :
    let s := setTries 16383 15 ringState
    s.live = true ∧ sqState s 16383 = 1 ∧ tries s 16383 ≠ 0 ∧ tries s 16383 < 16 ∧ atUse s 16383 = true ∧
      s.rb (Reg.SQ_STATE 16383) 26 = false ∧
      (busRead (sqFunc s 16383) (sqAddr s 16383 (useIndex s 16383)) 64 s).1 = .ok (List.replicate 64 0) ∧
      tries (busRead (sqFunc s 16383) (sqAddr s 16383 (useIndex s 16383)) 64 s).2 16383 = tries s 16383 ∧
      ePhase (List.replicate 64 0) ≠ phaseOf (sqN s 16383) (useIndex s 16383) := by decide +kernel

theorem witness_RingManagerCommands_post :
    let s : State := { ringState with rings := { ringState.rings with
      jobs := [⟨16383, 0, [copyEntry], 4095, .slot, true, some ⟨0, 1, 0, 0, 0⟩, false⟩] } }
    s.live = true ∧ sqState s 16383 = 1 ∧
      oldestJob s 16383 = some ⟨16383, 0, [copyEntry], 4095, .slot, true, some ⟨0, 1, 0, 0, 0⟩, false⟩ ∧
      ringSpilled s 16383 = false := by decide +kernel

theorem witness_RingManagerCommands_start :
    let s := startState copyEntry
    s.live = true ∧ sqState s 16383 = 1 ∧ readyJob s 16383 = some ([copyEntry], false) ∧
    malformedAt s 16383 [copyEntry] false = none ∧ engineReady s 16383 [copyEntry] = true ∧
    budgetReady s 16383 [copyEntry] = true ∧ chosen s 16383 false = true ∧ scheduled s 16383 = false := by decide +kernel

theorem witness_RingManagerCommands_malformed :
    let s := startState (patch copyEntry 1 [2])
    s.live = true ∧ sqState s 16383 = 1 ∧ readyJob s 16383 = some ([patch copyEntry 1 [2]], false) ∧
    malformedAt s 16383 [patch copyEntry 1 [2]] false = some (0, 2) ∧ oldestJob s 16383 = none ∧
    freePlace s (sqFunc s 16383) (sqCq s 16383) = some .slot ∧ ringSpilled s 16383 = false := by decide +kernel
/-- A word of opcode `op` and other bits `v`. -/
def word (op v : Nat) : MWord := BitVec.ofNat 24 (op * 2 ^ 19 + v)

/-- The word at the PC of a running eft, its reserved bits 0. -/
def atCheckIn (s : State) (e : Fin 12) (w : MWord) : Bool :=
  s.live && eftReady s e .running && !atBreak s e && wordAt s e = w && mwRsvOk w

def atCheck (e : Fin 12) (w : MWord) : Bool := atCheckIn (eftState e w runEntry id) e w

/-- An eft that runs the word `w`, its unit changed by `f`, so that `p` holds. -/
def unitCheck (e : Fin 12) (w : MWord) (f : EftUnit → EftUnit) (p : State → EftUnit → Bool) : Bool :=
  let s := eftState e w runEntry f
  atCheckIn s e w && (s.eft e).unit.any (p s)

theorem witness_EftRegisterWords :
    ((List.range 14).all fun op => atCheck 11 (word op 0) && mwOp (word op 0) = op) = true ∧
    atCheck 11 (word 0x0D 13) = true ∧ mwOp (word 0x0D 13) = 0x0D ∧ mwWord (word 0x0D 13) = 13 ∧ mwT (word 0x04 0) = 0 ∧
    mwD (word 0x0C 0) = 0 := by decide +kernel

theorem witness_EftControlWords :
    unitCheck 0 (word 0x12 (18 * 2 ^ 14)) id (fun _ _ => mwOp (word 0x12 (18 * 2 ^ 14)) = 0x12 && mwCond (word 0x12 (18 * 2 ^ 14)) < 19) = true ∧
    unitCheck 0 (word 0x13 8191) (fun u => { u with stack := List.replicate 7 1 })
      (fun _ u => mwOp (word 0x13 8191) = 0x13 && mwCond (word 0x13 8191) = 0 && u.stack.length < 8) = true ∧
    unitCheck 0 (word 0x14 0) (fun u => { u with stack := [8191] }) (fun _ u => mwOp (word 0x14 0) = 0x14 && u.stack = [8191]) = true ∧
    unitCheck 0 (word 0x15 0) id (fun _ _ => mwOp (word 0x15 0) = 0x15) = true ∧
    unitCheck 0 (word 0x16 0) id (fun _ u => mwOp (word 0x16 0) = 0x16 && !u.committed) = true ∧
    unitCheck 0 (word 0x17 0) (fun u => { u with committed := true }) (fun _ u => mwOp (word 0x17 0) = 0x17 && u.committed) = true ∧
    unitCheck 0 (word 0x18 (2 * 2 ^ 16)) id (fun _ _ => mwOp (word 0x18 (2 * 2 ^ 16)) = 0x18 && mwKind (word 0x18 (2 * 2 ^ 16)) < 3) = true ∧
    unitCheck 0 (word 0x19 0) id (fun _ _ => mwOp (word 0x19 0) = 0x19 && mwIdx (word 0x19 0) = 0) = true ∧
    unitCheck 0 (word 0x1A 255) id (fun _ _ => mwOp (word 0x1A 255) = 0x1A) = true := by decide +kernel

theorem witness_EftControlWords_waits :
    (let s := (eftState 0 (word 0x1B 0) runEntry id).setRb (Reg.EFT_CTRL 0) 1 true
     atCheckIn s 0 (word 0x1B 0) = true ∧ mwOp (word 0x1B 0) = 0x1B ∧ s.rb (Reg.EFT_CTRL 0) 1 = true) ∧
    unitCheck 0 (word 0x11 (2 ^ 13)) id (fun s _ => mwOp (word 0x11 (2 ^ 13)) = 0x11 && mwEv (word 0x11 (2 ^ 13)) < 3 &&
      evHolds (fetched s 0) 0 (mwEv (word 0x11 (2 ^ 13))) = some true) = true ∧
    unitCheck 0 (word 0x11 0) id (fun s _ => mwOp (word 0x11 0) = 0x11 && mwEv (word 0x11 0) < 3 &&
      evHolds (fetched s 0) 0 (mwEv (word 0x11 0)) = some false) = true ∧
    unitCheck 4 (word 0x11 (16 * 2 ^ 13)) id (fun s _ => mwOp (word 0x11 (16 * 2 ^ 13)) = 0x11 && 15 < mwEv (word 0x11 (16 * 2 ^ 13)) &&
      evHolds (fetched s 4) 4 (mwEv (word 0x11 (16 * 2 ^ 13))) = some false) = true ∧
    unitCheck 0 (word 0x10 0) (fun u => u.put 0 2) (fun s u => mwOp (word 0x10 0) = 0x10 && mwCh (word 0x10 0) = 0 &&
      (s.eft 0).xfer.isNone && (u.get (mwD (word 0x10 0))).toNat + (u.get (mwS (word 0x10 0))).toNat = entLen u.job.entry) = true := by
  decide +kernel

/-- An IN or an OUT of a port, of register S0. -/
def portWord (op port : Nat) : MWord := word op (port * 128)

def portCheckIn (s : State) (e : Fin 12) (op port : Nat) : Bool :=
  atCheckIn s e (portWord op port) && mwOp (portWord op port) = op && mwPort (portWord op port) = port

def portCheck (e : Fin 12) (op port : Nat) : Bool := portCheckIn (eftState e (portWord op port) runEntry id) e op port

theorem witness_EftPortReads :
    ([0x00, 0x01, 0x43, 0x53, 0x54, 0x56, 0x57, 0x60].all fun p => portCheck 3 0x0E p) = true ∧
    ([0x00, 0x01, 0x23, 0x24, 0x25].all fun p => portCheck 4 0x0E p) = true ∧
    ((eftState 3 (portWord 0x0E 1) runEntry id).eft 3).unit.isSome = true ∧
    (let s := eftState 3 (portWord 0x0E 0x5A) runEntry id
     let t : State := { s with medB := { s.medB with sr := { s.medB.sr with ostat := some 5 } } }
     portCheckIn t 3 0x0E 0x5A = true ∧ (med t 1).sr.ostat = some 5) ∧
    (let s := eftState 3 (portWord 0x0E 0x5C) runEntry id
     let t : State := { s with medB := { s.medB with sr := { s.medB.sr with rebuild := some ⟨0, 0, true, true, [], true, none, none⟩ } } }
     portCheckIn t 3 0x0E 0x5C = true ∧ (med t 1).sr.rebuild = some ⟨0, 0, true, true, [], true, none, none⟩) := by decide +kernel

theorem witness_EftMedPortWrites :
    ([0x10, 0x40, 0x41, 0x42, 0x44, 0x50, 0x51, 0x52, 0x55, 0x58, 0x59, 0x5B, 0x5D, 0x61, 0x62].all fun p =>
      portCheck 3 0x0F p) = true ∧
    ([0xC0, 0xD0, 0xD1].all fun p =>
      let s := eftState 3 (portWord 0x0F p) runEntry fun u => { u with committed := true }
      portCheckIn s 3 0x0F p && isCommitted s 3) = true ∧
    (let s := eftState 3 (portWord 0x0F 0x10) runEntry id
     (s.eft 3).owns = false ∧ tokenFree (fetched s 3) 1 = true ∧
     let t := modEft 3 (fun x => { x with owns := true }) s
     portCheckIn t 3 0x0F 0x10 = true ∧ (t.eft 3).owns = true) ∧
    fld (scr (eftState 3 (portWord 0x0F 0x59) runEntry id) 3 0) 3 0 ≠ 8 ∧
    (let s := eftState 3 (portWord 0x0F 0x5D) runEntry fun u => u.put 0 255
     portCheckIn s 3 0x0F 0x5D = true ∧ fld (scr s 3 0) 8 0 = 255) := by decide +kernel

theorem witness_EftStgPortWrites :
    ([0x20, 0x21, 0x22, 0x24].all fun p => portCheck 4 0x0F p &&
      ((unitDid (eftState 4 (portWord 0x0F p) runEntry id) 4 EftUnit.next).eft 4).unit.isSome) = true ∧
    (let s := eftState 4 (portWord 0x0F 0x30) runEntry fun u => u.put 0 1
     portCheckIn s 4 0x0F 0x30 = true ∧ (s.eft 4).unit.isSome = true ∧ scr s 4 0 ≠ 0) ∧
    ([0x90, 0x92, 0x93, 0x94].all fun p =>
      let s := eftState 4 (portWord 0x0F p) runEntry fun u => { u with committed := true }
      portCheckIn s 4 0x0F p && isCommitted s 4) = true ∧
    (let s := modLun 0 0 (fun l => { l with busy := true, op := .program })
       (eftState 4 (portWord 0x0F 0x91) runEntry fun u => { u with committed := true })
     let t := unitDid s 4 EftUnit.next
     portCheckIn s 4 0x0F 0x91 = true ∧ isCommitted s 4 = true ∧ jobDie t (eftEntry t 4) = 0 ∧ (lun t 0 0).busy = true ∧
       (lun t 0 0).op = .program) := by decide +kernel

theorem witness_EftLoadAndDebug :
    State.reset.live = true ∧ (State.reset.eft 11).st = .stopped ∧
    (let s := eftIn 11 fun x => { x with st := .loading, loadAddr := 8191 }
     s.live = true ∧ (s.eft 11).st = .loading ∧ (s.eft 11).loadAddr < 8192) ∧
    (let s := eftIn 11 fun x => { x with valid := true }
     s.live = true ∧ (s.eft 11).st = .stopped ∧ (s.eft 11).valid = true) ∧
    (let s := (((eftState 11 0 runEntry id).setRb (Reg.EFT_CTRL 11) 1 true).setReg (Reg.EFT_BREAK 11) 0x80000001).setRb
       (Reg.EFT_ATTN 11) 5 true
     s.live = true ∧ eftReady s 11 .running = true ∧ atBreak s 11 = true ∧ s.rb (Reg.EFT_ATTN 11) 5 = true) ∧
    (let s := (eftIn 11 fun x => { x with st := .debugHalt, unit := some (EftUnit.start ⟨0, 0, runEntry, 1, 0⟩ 0 0 0 0) }).setRb
       (Reg.EFT_CTRL 11) 1 true
     s.live = true ∧ s.rb (Reg.EFT_CTRL 11) 1 = true ∧ eftReady s 11 .debugHalt = true ∧ wordAt s 11 = 0 ∧
       (s.eft 11).st = .debugHalt) := by decide +kernel

/-- An eft that loads, with RUN written and EFT_LOAD_CRC the CRC of its store. -/
def finishState : State :=
  ((eftIn 0 fun x => { x with st := .loading }).setReg (Reg.EFT_CTRL 0) 1).setReg (Reg.EFT_LOAD_CRC 0)
    (csCrc { State.reset.eft 0 with st := .loading })

theorem witness_EftLoadAndDebug_finish :
    (finishState.eft 0).st = .loading ∧ csCrc (finishState.eft 0) = finishState.reg (Reg.EFT_LOAD_CRC 0) ∧
      finishState.rb (Reg.EFT_CTRL 0) 0 = true := by
  refine ⟨by decide +kernel, ?_, ?_⟩
  · rw [show finishState.eft 0 = { State.reset.eft 0 with st := .loading } by decide +kernel, finishState, State.reg_setReg]
  · rw [State.rb, finishState, State.reg_setReg_ne _ _ _ _ (by decide)]; decide +kernel

theorem witness_EftUnitEvents :
    (let s := modEft 3 (fun x => { x with xfer := some ⟨0x10002000, 4, 0, false⟩ }) (eftState 3 0 runEntry id)
     s.live = true ∧ (s.eft 3).xfer = some ⟨0x10002000, 4, 0, false⟩ ∧ (s.eft 3).st = .running ∧
       (busRead (eftFunc 3) 0x10002000 4 s).1 = .ok [0, 0, 0, 0] ∧ (s.eft 3).wait = .none) ∧
    (let s := modEft 3 (fun x => { x with wait := .event 0 1 }) (eftState 3 0 runEntry id)
     s.live = true ∧ (s.eft 3).wait = .event 0 1 ∧ (s.eft 3).st = .running) ∧
    atCheck 11 (word 0x1C 0) = true ∧ mwOp (word 0x1C 0) = 0x1C ∧
    (let p : Preempted := ⟨EftUnit.start ⟨0, 0, runEntry, 1, 0⟩ 0 0 0 0, 16383, 1⟩
     let s := eftIn 4 fun x => { x with st := .idle, preempted := [p] }
     s.live = true ∧ (s.eft 4).st = .idle ∧ (s.eft 4).unit = none ∧ (s.eft 4).preempted.find? (preemptorEnded s) = some p) ∧
    (let k : Decoding := ⟨3, 0, 16383, 0, entryOf [(1, 1, 2)]⟩
     let s := modChan 7 (fun x => { x with decoding := some k, sets := [⟨3, 16383, 0, 0, [], [], 0, 0, false⟩] }) State.reset
     s.live = true ∧ (chan s 7).decoding = some k ∧ k.mode = 0 ∧ eOp k.entry ≠ 1) ∧
    calActive State.reset 4 = false ∧
    (let s := withRegs [(Reg.CAL_STATUS, 0x10)]
     s.live = true ∧ calActive s 4 = true) := by
  decide +kernel

/-- A running unit of eft `e`, changed by `f`, that holds `p`. -/
def runCheck (e : Fin 12) (w : MWord) (f : EftUnit → EftUnit) (p : State → EftUnit → Bool) : Bool :=
  let s := eftState e w runEntry f
  s.live && (s.eft e).st = .running && (s.eft e).unit.any fun u => u.restarts < restartMax s e && p s u

/-- An STG eft whose unit job 16382 of the same die preempts. -/
def preemptState : State :=
  let b := entryOf [(0, 1, 7), (1, 1, 1), (11, 1, 1), (24, 5, 0x10002000), (32, 4, 4096)]
  let s := withRegs [(Reg.SQ_STATE 16382, 0x1000000), (Reg.SQ_CFG 16382, 0x0FFF3400), (Reg.SQ_BASE_LO 16382, 0x10001000),
    (Reg.SQ_PROD 16382, 1), (Reg.SQ_CFG 16383, 0x0FFF0400), (Reg.RING_CTRL, 2), (Reg.CQ_STATE 4095, 0x1000000),
    (Reg.CQ_BASE_LO 4095, 0x10000000), (Reg.EFT_CTRL 4, 0x89),
    (Reg.CH_MODE 0, 0xA1), (Reg.CH_GEOM 0, 0x01000808), (Reg.CH_MAP 0, 1)]
  let s := s.setEft 4 { s.eft 4 with st := .running, valid := true, unit := some (EftUnit.start ⟨16383, 0, b, 1, 0⟩ 0 0 0 0) }
  { s with rings := { s.rings with fetched := [⟨16382, 0, b⟩] } }

theorem witness_UnitAbandonCommand :
    runCheck 3 0 id (fun _ u => !u.committed) = true ∧
    runCheck 3 0 (fun u => { u with committed := true, job := { u.job with units := 2 } })
      (fun _ u => u.committed && u.job.unit + 1 < u.job.units) = true ∧
    runCheck 3 0 (fun u => { u with committed := true }) (fun _ u => u.committed && u.job.units ≤ u.job.unit + 1) = true ∧
    preemptState.live = true ∧ (preemptState.eft 4).st = .running ∧ preemptState.rb (Reg.EFT_CTRL 4) 3 = true ∧
    ((preemptState.eft 4).unit.any fun u => preemptsUnit preemptState 4 16382 u && u.restarts < restartMax preemptState 4) = true ∧
    ([0x1C, 0x0E, 0x0F].all fun op => runCheck 11 (word op 0) id (fun s u => !u.committed && mwOp (word op 0) = op &&
      atCheckIn s 11 (word op 0))) = true := by decide +kernel
/-- STG eft 11 runs a macro-operation of OP `op` on `len` bytes at 10000000h. -/
def stgState (op len : Nat) : State :=
  (eftState 11 0 (entryOf [(0, 1, 7), (1, 1, op), (8, 1, 7), (11, 1, 1), (24, 5, 0x10000000), (32, 4, len)]) id)

/-- Its unit. -/
def stgHas (op len : Nat) : Bool :=
  let s := stgState op len
  s.live && (stgUnit 7 op s).any fun u =>
    s.mu.errs.isEmpty && s.engineMay 4 (entBuf u.job.entry) 4 && s.engineMay 4 (entBuf u.job.entry) (entLen u.job.entry)

/-- A geometry that R203 and R204 allow. -/
def geomRegs : List (Nat × Word) := [(Reg.CH_GEOM 7, 0x01000808), (Reg.CH_MAP 7, 1)]

theorem witness_StagingChannelCommands :
    (let s := withRegs geomRegs
     s.live = true ∧ s.rb (Reg.CH_MODE 7) 0 = false ∧ geomOk s 7 = true) ∧
    (let s := withRegs [(Reg.CH_GEOM 7, 0)]
     s.live = true ∧ s.rb (Reg.CH_MODE 7) 0 = false ∧ geomOk s 7 = false) ∧
    (let s := withRegs [(Reg.CH_MODE 7, 0xA1)]
     s.live = true ∧ s.rf (Reg.CH_MODE 7) 7 4 < 11 ∧ s.rb (Reg.CH_MODE 7) 0 = true) ∧
    (let s := modChan 7 (fun x => { x with switchPending := true }) (withRegs [(Reg.CH_MODE 7, 0xA1)])
     s.live = true ∧ (chan s 7).switchPending = true ∧ chanIdle s 7 = true ∧ s.rf (Reg.CH_MODE 7) 7 4 = 10) ∧
    (stgHas 4 4 && stgHas 5 4 && stgHas 6 0 && stgHas 7 256) = true := by decide +kernel

/-- One read in which the only codeword decodes. -/
def goodRead : List (List CwObs) := [[⟨100000, true, 3, 0, 5, []⟩]]

theorem witness_StagingArrayCommands_macro :
    (let s := stgState 1 4096
     s.live = true ∧ (stgUnit 7 1 s).isSome = true ∧ (stgUnit 7 1 s).any (fun u =>
       !((List.range (entLen u.job.entry / 4096)).all fun t => looksErased s (cwObs (goodRead.headD []) t)) &&
       (ladRun s u.job.entry goodRead).failing.isEmpty) = true) ∧
    (stgHas 2 4096 && stgHas 3 0) = true ∧ (stgState 3 0).stg.pwrLoss = false := by decide +kernel

def parkedOf (k : YieldKind) (op : Nat) (woken : Bool) : Parked :=
  ⟨{ EftUnit.start ⟨0, 0, entryOf [(1, 1, op), (8, 1, 7)], 1, 0⟩ 0 0 0 0 with committed := true }, 0, k, woken, false⟩

/-- Channel 7 with a busy LUN 0, a parked program, and a READ_PAGE ready for that die in ring 16383. -/
def parkState (k : YieldKind) (op : Nat) (woken : Bool) : State :=
  let b := entryOf [(0, 1, 7), (1, 1, 1), (8, 1, 7), (11, 1, 1), (24, 5, 0x10002000), (32, 4, 4096)]
  let s := withRegs [(Reg.SQ_STATE 16383, 0x1000000), (Reg.SQ_CFG 16383, 0x0FFF0400), (Reg.SQ_PROD 16383, 1), (Reg.STG_CTRL, 1),
    (Reg.SQ_BASE_LO 16383, 0x10001000), (Reg.STG_SUSP_CFG, 1), (Reg.CQ_STATE 4095, 0x1000000),
    (Reg.CQ_BASE_LO 4095, 0x10000000), (Reg.CH_MODE 7, 0xA1), (Reg.CH_GEOM 7, 0x01000808), (Reg.CH_MAP 7, 1)]
  let s := { s with rings := { s.rings with fetched := [⟨16383, 0, b⟩] } }
  modLun 7 0 (fun l => { l with busy := true, susp := if k = .suspended then .yes else .no, op := .program })
    (s.setEft 11 { s.eft 11 with st := .idle, parked := [parkedOf k op woken] })

theorem witness_StagingArrayCommands_ready :
    let s := parkState .ready 2 false
    s.live = true ∧ (lun s 7 0).busy = true ∧ (lun s 7 0).susp ≠ .entering ∧
      ((wakeParked 7 0 (fun k => k.kind = .ready) false
        (modLun 7 0 (fun l => { l with busy := false }) (arrayEnd 7 0 false s))).eft 11).unit = none := by decide +kernel

theorem witness_StagingArrayCommands_suspend :
    (let s := parkState .ready 2 false
     s.live = true ∧ ((s.eft 11).parked.find? fun k => k.die = 0 && !k.woken && k.kind = .ready && k.unit.committed
       && (eOp k.unit.job.entry = 2 || eOp k.unit.job.entry = 3)) = some (parkedOf .ready 2 false) ∧
     eOp (parkedOf .ready 2 false).unit.job.entry = 2 ∧ s.rb Reg.STG_CTRL 0 = true ∧ s.stg.pwrLoss = false ∧
     readReady s 7 0 = true ∧ (lun s 7 0).suspends < s.rf Reg.STG_SUSP_CFG 3 0) ∧
    (let s := parkState .suspended 2 false
     s.live = true ∧ (lun s 7 0).susp = .yes ∧ s.stg.pwrLoss = false ∧ readRunning s 7 0 = false) ∧
    (let s := parkState .ready 2 true
     s.live = true ∧ (s.eft 11).unit = none ∧ (s.eft 11).parked = [parkedOf .ready 2 true] ∧
       (parkedOf .ready 2 true).woken = true ∧ (s.eft 11).st = .idle) := by decide +kernel

theorem witness_StagingArrayCommands_blk :
    State.reset.stg.blkCmd = none ∧
    (let s : State := { State.reset with stg := { State.reset.stg with blkCmd := some 0x003C0000 } }
     s.live = true ∧ s.stg.blkCmd = some 0x003C0000 ∧ (s.eft (4 + fld (0x003C0000 : Word) 20 18)).unit = none ∧
       fld (0x003C0000 : Word) 22 21 = 1) ∧
    (let s : State := { State.reset with stg := { State.reset.stg with advise := [5] } }
     s.live = true ∧ s.stg.advise = [5]) := by decide +kernel

/-- Lane `l` of class `c` runs a job of ring 16383. -/
def laneState (c l op : Nat) (fields : List (Nat × Nat × Nat)) (more : List (List Byte)) (mem : List Byte) : State :=
  let s := (State.reset.setReg (Reg.SQ_CFG 16383) (BitVec.ofNat 32 (0x500 + c * 16))).setBytes 0x10000000 mem
  { s with
    rings := { s.rings with
      jobs := [⟨16383, 0, entryOf ((0, 1, c * 16 + 7) :: (1, 1, op) :: fields) :: more, 0, .slot, true, none, false⟩] }
    xfm := { s.xfm with lanes := [⟨laneClass c, l, 16383, 0⟩], keys := [(63, List.replicate 64 1)] } }

def laneHas (c l op : Nat) (fields : List (Nat × Nat × Nat)) (more : List (List Byte)) (mem : List Byte)
    (p : State → Job → Bool) : Bool :=
  let s := laneState c l op fields more mem
  s.live && s.mu.errs.isEmpty && (laneJob s c l op).any fun x => p s x.2

/-- A continuation entry with one source and one destination of 64 bytes. -/
def segEntry : List Byte := entryOf [(8, 5, 0x10000000), (16, 4, 64), (24, 5, 0x10000100), (32, 4, 64), (36, 4, 1)]

theorem witness_TransformCommands :
    laneHas 0 7 1 [(16, 5, 0x10000000), (24, 4, 16), (32, 5, 0x10000100), (40, 4, 16), (44, 1, 1)] [] []
      (fun s j => (s.bump Reg.XFM_CMP_JOBS).engineMay 5 (xSrc j.entry) (xSrcLen j.entry)) = true ∧
    laneHas 1 7 1 [(16, 5, 0x10000000), (24, 4, 7), (32, 5, 0x10000100), (40, 4, 2)] [] [1, 2, 0, 0xFD, 0xFF, 8, 9]
      (fun s j => s.engineMay 5 (xSrc j.entry) (xSrcLen j.entry) &&
        inflate (s.bytes (xSrc j.entry) (xSrcLen j.entry)) 2 = ([8, 9], 0) && s.engineMay 5 (xDst j.entry) 2) = true ∧
    laneHas 2 0 1 [(8, 1, 1), (9, 1, 1), (12, 4, 64)] [segEntry] []
      (fun s j => (segSrcs j.entries).all fun a => s.engineMay 5 a (xFrag j.entry)) = true ∧
    laneHas 3 0 1 [(8, 1, 1), (9, 1, 1), (12, 4, 64), (16, 8, 2), (24, 8, 1)] [segEntry] []
      (fun s j => ((segSrcs j.entries).all fun a => s.engineMay 5 a (xFrag j.entry)) &&
        ecAgree (xK j.entry) (xFrag j.entry) ((bitsOf64 (xPresent j.entry)).zip
          ((segSrcs j.entries).map fun a => natsOf (s.bytes a (xFrag j.entry))))) = true ∧
    laneHas 4 3 1 [(8, 1, 63), (40, 4, 1)] [] [] (fun _ _ => true) = true ∧
    laneHas 4 3 2 [(8, 1, 63), (16, 5, 0x10000000), (24, 5, 0x11000000 - 4160), (40, 4, 1)] [] []
      (fun s j => (unitsDone s ⟨4, 3, 16383, 0⟩ = 0 : Bool) && (field j.entry 40 4 = 1 : Bool) &&
        (s.xfm.keys.lookup (xBand j.entry)).isSome && s.engineMay 5 (xSrc j.entry) 4160 &&
        (xDst4 j.entry = 0x11000000 - 4160 : Bool)) = true ∧
    laneHas 5 0 1 [(16, 5, 0x10000000), (24, 4, 16), (32, 5, 0x10000100), (40, 4, 16)] [] []
      (fun s j => (xSrcLen j.entry ≤ xCap j.entry : Bool) && s.engineMay 5 (xSrc j.entry) (xSrcLen j.entry) &&
        s.engineMay 5 (xDst j.entry) (xSrcLen j.entry)) = true := by decide +kernel

theorem xorL_length (a b : List Nat) : (xorL a b).length ≤ b.length := by simp [xorL]

theorem xtsBlocks_length (f : List Nat → List Nat) (k : Nat) (t bs : List Nat) (h : t.length ≤ 16) :
    (xtsBlocks f k t bs).length ≤ 16 * k := by
  induction k generalizing t bs with
  | zero => simp [xtsBlocks]
  | succ k ih =>
    have := xorL_length (f (xorL (bs.take 16) t)) t
    have := ih (xtsNext t) (bs.drop 16) (by simp [xtsNext])
    simp only [xtsBlocks, List.length_append]
    omega

/-- A unit of 4,160 bytes decrypts to no more, so a destination that far below the end of SRAM lies inside it. -/
theorem witness_TransformCommands_decrypt (s : State) (key : List Byte) (w : Nat) :
    s.engineMay 5 (0x11000000 - 4160) (xts false key w (s.bytes 0x10000000 4160)).length = true := by
  have h : (xts false key w (s.bytes 0x10000000 4160)).length ≤ 4160 := by
    simp only [xts, List.length_map]
    refine (xtsBlocks_length _ _ _ _ ?_).trans ?_
    · simp [aesEnc, xorL, shiftRows]
    · simp [bytes_length]
  have h2 : inSram (0x11000000 - 4160) (xts false key w (s.bytes 0x10000000 4160)).length = true :=
    Bool.and_eq_true_iff.2 ⟨decide_eq_true (by decide), decide_eq_true (by unfold sramBase; omega)⟩
  simp [State.engineMay, h2]
/-- Zone 0 at the base of DRAM, its defects 1 MiB above, and an entry of 16 tracks of 5,000 sectors. -/
def zoneRegs : List (Nat × Word) :=
  grant 8 ++ [(Reg.ZONE_COUNT, 1), (Reg.ZONE_TAB_BASE_HI, 8), (Reg.ZONE_DEF_BASE_LO, 0x100000), (Reg.ZONE_DEF_BASE_HI, 8),
    (Reg.ZONE_DEF_SIZE, 8)]

def zoneBytes (wp typ st hold : Nat) : List Byte :=
  leBytes 4 (wp + typ * 2 ^ 17 + st * 2 ^ 19 + hold * 2 ^ 22) ++ List.replicate 8 0 ++ leBytes 2 16 ++ leBytes 2 5000 ++
    List.replicate 8 0

def zoneState (wp typ st hold : Nat) : State := (dramState zoneRegs).setBytes dramBase (zoneBytes wp typ st hold)

/-- The hypotheses of the zone commands that do not depend on the command, and some that do. -/
def zoneCheck (wp typ st hold op : Nat) (p : State → ZEnt → Bool) : Bool :=
  let s := zoneState wp typ st hold
  let t := s.setReg Reg.ZONE_CMD (BitVec.ofNat 32 (op * 2 ^ 20))
  let e := zDecode (t.bytes (zoneAddr t 0) 24)
  s.live && s.mu.errs.isEmpty && 0 < zoneCount t && t.engineMay 8 (zoneAddr t 0) 24 && !zoneGone t 0 && !zoneBusy t 0 &&
    e.wp = wp && e.kind = typ && e.state = st && e.hold = (hold = 1) && p t e

theorem witness_ZoneStateCommands :
    zoneCheck 264 1 2 0 1 (fun t e => !(ctxs t e.act).all Option.isSome && e.wp % 264 = 0) = true ∧
    zoneCheck 263 1 1 0 2 (fun _ e => !(e.wp % 264 = 0) && e.ucount < 4) = true ∧
    zoneCheck 265 1 2 0 3 (fun _ _ => true) = true ∧ zoneCheck 67584 1 3 0 4 (fun _ _ => true) = true ∧
    zoneCheck 264 1 1 1 5 (fun _ e => e.hold) = true ∧ zoneCheck 0 1 3 0 6 (fun _ _ => true) = true ∧
    zoneCheck 0 1 3 0 7 (fun _ _ => true) = true ∧ zoneCheck 0 1 1 0 4 (fun _ _ => true) = true := by decide +kernel

/-- The conventional zone with a remap of position 0 to the spare 65536 as its next defect entry. -/
def remapState : State := (zoneState 0 2 1 0).setBytes 0x800100000 (leBytes 4 (2 * 2 ^ 24) ++ leBytes 3 65536 ++ [0])

theorem witness_ZoneKeeperCommands_remap :
    let t := remapState.setReg Reg.ZONE_CMD (BitVec.ofNat 32 (8 * 2 ^ 20))
    let e := zDecode (zoneBytes 0 2 1 0)
    let b := leBytes 4 (2 * 2 ^ 24) ++ leBytes 3 65536 ++ [0]
    remapState.live = true ∧ remapState.mu.errs = [] ∧ 0 < zoneCount t ∧ t.engineMay 8 (zoneAddr t 0) 24 = true ∧
    zDecode (t.bytes (zoneAddr t 0) 24) = e ∧ e.kind = 2 ∧ e.state = 1 ∧ e.defIdx + e.defCount < t.rf Reg.ZONE_DEF_SIZE 23 0 ∧
    t.engineMay 8 (defAddr t (e.defIdx + e.defCount)) 8 = true ∧ t.bytes (defAddr t (e.defIdx + e.defCount)) 8 = b ∧
    nfld (field b 0 4) 25 24 = 2 ∧ isSpare e ⟨[], []⟩ (field b 4 3) = true ∧ zoneGone t 0 = false ∧ zoneBusy t 0 = false := by
  decide +kernel

theorem witness_ZoneKeeperCommands_defects (bad : BusRes → State → State) (k : Defects → State → State) :
    let t := remapState.setReg Reg.ZONE_CMD (BitVec.ofNat 32 (8 * 2 ^ 20))
    withDefects (zDecode (zoneBytes 0 2 1 0)) bad k t = k ⟨[], []⟩ t := by
  dsimp only
  rw [withDefects, readOr_clean (by decide +kernel) (by decide +kernel)]
  rfl

theorem witness_ZoneKeeperCommands_spares (e : ZEnt) (h : e = zDecode (zoneBytes 0 2 1 0)) :
    (((List.range (e.tracks * e.spt)).filter fun p => isSpare e ⟨[], []⟩ p).all fun p =>
      ([] : List (Nat × Nat)).any fun r => r.2 = p) = false := by
  subst h
  rw [List.all_eq_false]
  exact ⟨65537, List.mem_filter.2 ⟨List.mem_range.2 (by decide +kernel), by decide +kernel⟩, by decide⟩

theorem witness_ZoneKeeperCommands :
    State.reset.live = true ∧ State.reset.rb Reg.ZONE_CTRL 0 = false ∧ State.reset.svc.zdue = false ∧
    (let s : State := { State.reset with zone := { State.reset.zone with scan := true } }
     s.live = true ∧ s.zone.scan = true) ∧
    (let s := zoneState 67584 1 3 0
     s.live = true ∧ reclaimable s 0 = true ∧ copiesHold s 0 [(0, 0)] = true) := by decide +kernel

/-- Head 0 of actuator A may take the offer, as far as its temperature and its headroom go. -/
def offerState : State :=
  let s := zoneState 0 1 0 0
  { s with regs := ((s.setReg (Reg.BA_HEADROOM 0) 0xFFFF).setReg Reg.ZONE_OFFER_HEADS 1).regs }

theorem witness_ZoneKeeperCommands_offer :
    (let s := State.reset.setReg Reg.ZONE_OFFER_HEADS 0
     let t := s.setReg Reg.ZONE_OFFER_REQ (0 &&& 0x1FFFF)
     s.live = true ∧ (offerPick 65536 (offerHeads t) t).1 = none) ∧
    (let t := offerState.setReg Reg.ZONE_OFFER_REQ (1 &&& 0x1FFFF)
     offerState.live = true ∧ (offerPick 1 (offerHeads t) t).1.isSome = true) := by decide +kernel

/-- A machine with MEDA changed. -/
def medState (f : Med → Med) : State := { State.reset with medA := f State.reset.medA }

def wrState (f : Wr → Wr) : State := medState fun m => { m with wr := f m.wr }

theorem witness_WriteBlockCommands :
    (let s := wrState fun w => { w with linkUp := true }
     s.live = true ∧ (med s 0).wr.linkUp = true ∧ palGood 5 (palFrame true 5 0xFFFF) = true ∧
       palGood 8 (palFrame true 8 0) = true ∧ palGood 0 0 = false ∧ (med s 0).wr.fltSubst = false ∧ (med s 0).wr.sent = []) ∧
    (let s := wrState fun w => { w with linkUp := true, sent := [(5, 9)] }
     s.live = true ∧ (med s 0).wr.linkUp = true ∧ (med s 0).wr.sent = [((5 : Fin 9).val, 9)] ∧ palGood 5 0 = false) ∧
    State.reset.live = true ∧ (med State.reset 0).wr.linkUp = false ∧
    (let s := wrState fun w => { w with fltSubst := true }
     s.live = true ∧ (med s 0).wr.fltSubst = true) ∧
    (let s := lcState 0x1F
     s.live = true ∧ noOwner s 0 = true ∧ s.lcState = 1 ∧ palGood (fld (0x05000000 : BitVec 32) 30 24) (palFrame true 5 0) = true) ∧
    (let s := eftIn 3 fun x => { x with owns := true }
     s.live = true ∧ noOwner s 1 = false ∧ tokenFree s 1 = false) ∧ tokenFree State.reset 1 = true ∧
    (let s : State := { State.reset with zone := { State.reset.zone with writes := [⟨0, 0, 0, 7, 0, 1, false⟩] } }
     s.live = true ∧ (s.zone.writes.any fun w => w.zone = 7 && !w.released) = true) := by decide +kernel

/-- MEDA on track 9 for a write, with parity slot 0 armed by eft 0 and its assist up. -/
def armedState (writing : Bool) : State :=
  (eftState 0 0 runEntry id) |> fun s => { s with
    medA := { s.medA with
      wr := { s.medA.wr with armed := some ⟨0, 0, some 0, 0, 9, 0, true⟩, linkUp := true, begun := true, gate := writing, inField := false },
      sv := { s.medA.sv with st := .tracking, base := ⟨9, true, true⟩, wus := false } } }

theorem witness_WriteBlockCommands_gate :
    let s := armedState false
    s.live = true ∧ (med s 0).wr.armed = some ⟨0, 0, some 0, 0, 9, 0, true⟩ ∧ (med s 0).wr.writing = false ∧
    idKind s 0 = wrKind s 0 ∧ ((med s 0).wr.begun = true ∨ preheated s 0 = true) ∧
    releasedFor s (med s 0).wr.armedBy = true ∧ (med s 0).wr.linkUp = true ∧ s.fenced 6 = false ∧
    onTrack s 0 9 true = true ∧ (sv s 0).wus = false := by decide +kernel

theorem witness_WriteBlockCommands_data : ∃ d, armedData (armedState false) 0 ⟨0, 0, some 0, 0, 9, 0, true⟩ = some d := ⟨_, rfl⟩

theorem witness_WriteBlockCommands_end :
    (armedState true).live = true ∧ (med (armedState true) 0).wr.armed = some ⟨0, 0, some 0, 0, 9, 0, true⟩ ∧
    (med (armedState true) 0).wr.writing = true := by decide +kernel
/-- Settings with no reader enabled, and a sector armed with them. -/
def band0 : ReadBand := ⟨0, 0, 0, 0⟩
def arm0 : ReadArm := ⟨1, ⟨0, 0, none, 0, 9, 0, true⟩, 0, 0, 0, band0, 7, 15, none, false⟩
def det0 : DetCfg := ⟨[], [], [], [], 0, 0, 0, 0, 0, 0, 1, 1⟩
def pass0 : ReadPass := ⟨arm0, 0, 0, [], 0, [], [], det0⟩

def readState : State :=
  medState fun m => { m with
    rc := { m.rc with armed := some arm0, decoding := [pass0] },
    sv := { m.sv with st := .tracking, base := ⟨9, false, false⟩ } }

theorem witness_ReadChannelCommands :
    (let s := readState
     s.live = true ∧ (med s 0).rc.armed = some arm0 ∧ onTrack s 0 arm0.sect.track false = true ∧
     (med s 0).rc.decoding.length < 3 ∧ (med s 0).rc.decoding = [pass0] ∧ (med s 0).wr.writing = false ∧ s.fenced 2 = false) ∧
    State.reset.live = true ∧ (med State.reset 0).rc.armed = none ∧
    (armedState true).live = true ∧ (med (armedState true) 0).wr.writing = true ∧
    (let s := State.reset.setFence 2 true
     s.live = true ∧ s.fenced 2 = true) := by decide +kernel

/-- MEDA with offline work on sample slot 0, and a solver for offset `k`. -/
def recoverState (job : Option (Nat × Nat)) (k : Nat) : State :=
  medState fun m => { m with sr := { m.sr with
    slot0 := { m.sr.slot0 with valid := true, pba := 7 }
    offline := [⟨0, 0, 0, false, 0, job, none, none⟩]
    rebuild := some ⟨0, 0, true, true, [(2, [9])], false, some k, none⟩ } }

/-- The job of a REDETECT without a range list, storing to 10002000h. -/
def redetectJob : Job := ⟨5, 3, [entryOf [(1, 1, 1), (24, 5, 0x10002000)]], 0, .slot, true, none, false⟩

theorem witness_ReadChannelCommands_recover :
    (let s := recoverState none 2
     s.live = true ∧ (med s 0).sr.offline = [⟨0, 0, 0, false, 0, none, none, none⟩] ∧
     (med s 0).sr.rebuild = some ⟨0, 0, true, true, [(2, [9])], false, some 2, none⟩) ∧
    (let s := recoverState (some (5, 3)) 2
     let s : State := { s with rings := { s.rings with jobs := [redetectJob] } }
     s.live = true ∧ (med s 0).sr.offline = [⟨0, 0, 0, false, 0, some (5, 3), none, none⟩] ∧
     findJob s 5 3 = some redetectJob ∧ field redetectJob.entry 16 5 = 0) ∧
    rebuildSlot [(2, [9])] 2 = some [9] ∧ rebuildSlot [(2, [9])] 3 = none := by decide +kernel

/-- The entry of a MEDx job of OP `op` on slot 0 of zone 0, one sector at 10002000h. -/
def medEntry (op : Nat) : List Byte := entryOf [(0, 1, 7), (1, 1, op), (16, 4, 1), (24, 5, 0x10002000), (32, 4, 4160)]

/-- MEDA on track 0, read for a unit of OP `op` in eft 0; the head-band entry in effect is valid, and the medium holds a
sector at slot 0 of zone 0, which is conventional. -/
def unitState (op : Nat) (write : Bool) : State :=
  let s := (dramState (zoneRegs ++ [(Reg.MED_RHB 0 0 0 0, 0x011003E8), (Reg.MED_TGT 0 0 0, 1)])).setBytes dramBase (zoneBytes 0 2 1 0)
  let s := s.setEft 0 { s.eft 0 with
    st := .running, valid := true, unit := some (EftUnit.start ⟨16383, 0, medEntry op, 1, 0⟩ 0 0 0 0) }
  { s with medA := { s.medA with
      wr := { s.medA.wr with linkUp := true, run := true }
      rc := { s.medA.rc with run := true }
      sv := { s.medA.sv with st := .tracking, base := ⟨0, write, false⟩, latest := ⟨0, write, false⟩ }
      disk := [(0, [7])] } }

/-- That state once the routine has taken the datapath. -/
def tokenState (op : Nat) (write : Bool) : State := modEft 0 (fun x => { x with owns := true }) (unitState op write)

theorem witness_ReadChannelCommands_unit : ∀ op ∈ [1, 3, 4],
    (unitState op false).live = true ∧ (medUnit 0 op (unitState op false)).isSome = true ∧
    servoDown (tokenState op false) 0 = false ∧ (med (tokenState op false) 0).rc.head = medHead (medEntry op) ∧
    (med (tokenState op false) 0).rc.run = true ∧
    l4Pending (tokenState op false) 0 (medZone (medEntry op))
      (readSlot (EftUnit.start ⟨16383, 0, medEntry op, 1, 0⟩ 0 0 0 0) (zDecode (zoneBytes 0 2 1 0))) = false := by decide +kernel

theorem witness_ReadChannelCommands_group :
    (∀ op ∈ [1, 3], l4Pending (modSr 0 (fun r => { r with rebuild := some ⟨0, 0, true, true, [], false, none, some (16383, 0)⟩ })
      (tokenState op false)) 0 (medZone (medEntry op))
      (readSlot (EftUnit.start ⟨16383, 0, medEntry op, 1, 0⟩ 0 0 0 0) (zDecode (zoneBytes 0 2 1 0))) = true) ∧
    (∀ op ∈ [1, 3, 4], let s := modSv 0 (fun v => { v with st := .off }) (unitState op false)
      s.live = true ∧ (medUnit 0 op s).isSome = true ∧ servoDown s 0 = true) := by decide +kernel

theorem witness_ReadChannelCommands_deliver :
    let s := modRc 0 (fun r => { r with out := [7] }) (unitState 1 false)
    s.live = true ∧ s.mu.errs = [] ∧ ((s.eft 0).unit.any fun u => unitFits u.job.entry u.job.unit &&
      s.engineMay (eftFunc 0) (entBuf u.job.entry + u.job.unit * 4160) (med s 0).rc.out.length) = true := by decide +kernel

theorem witness_ReadChannelCommands_unit_zone (op : Nat) (h : op ∈ [1, 3, 4]) (bad : BusRes → State → State)
    (k : ZEnt → State → State) :
    withZone (medZone (medEntry op)) bad k (tokenState op false) = k (zDecode (zoneBytes 0 2 1 0)) (tokenState op false) := by
  fin_cases h <;>
  · rw [withZone, readOr_clean (by decide +kernel) (by decide +kernel)]
    rfl

theorem witness_token (op : Nat) (write : Bool) : routineToken 0 (unitState op write) = some (tokenState op write) := by
  rw [routineToken, if_pos]
  · rfl
  · cases write <;> rfl
/-- The position of slot 0. -/
def unitSect : Sect := ⟨0, 0, none, 0, 0, 0, false⟩

theorem witness_unit_sect (op slot : Nat) (write : Bool) (h : op ∈ [1, 2, 3, 4]) (hs : slot = 0) (bad : BusRes → State → State)
    (k : Sect → State → State) :
    withSect (medZone (medEntry op)) slot bad k (tokenState op write) = k unitSect (tokenState op write) := by
  subst hs
  have hz : zDecode ((tokenState op write).bytes (zoneAddr (tokenState op write) 0) 24) = zDecode (zoneBytes 0 2 1 0) := by
    fin_cases h <;> cases write <;> decide +kernel
  have hm : medZone (medEntry op) = 0 := by fin_cases h <;> decide +kernel
  have h0 : (zDecode (zoneBytes 0 2 1 0)).defIdx + (zDecode (zoneBytes 0 2 1 0)).defCount = 0 := by decide +kernel
  rw [hm, withSect, withZone, readOr_clean, hz, withDefects, readOr_clean]
  · rw [h0, Nat.zero_min, Nat.zero_sub, decodeDefects]
    congr 1
  all_goals fin_cases h <;> cases write <;> decide +kernel

theorem witness_ReadChannelCommands_write :
    let s := unitState 2 true
    let r := tokenState 2 true
    let u := EftUnit.start ⟨16383, 0, medEntry 2, 1, 0⟩ 0 0 0 0
    s.live = true ∧ medUnit 0 2 s = some u ∧ releasedFor s 0 = true ∧ servoDown r 0 = false ∧
    ((med r 0).wr.head = medHead u.job.entry % 16 && (med r 0).wr.run) = true ∧ unitSect.shingled = false ∧
    medPba u.job.entry % 2 ^ 17 + u.job.unit = 0 ∧ onTrack (wsectLoad 0 unitSect r) 0 unitSect.track true = true ∧
    unitFits u.job.entry u.res0 = true ∧ (wsectLoad 0 unitSect r).mu.errs = [] ∧
    (wsectLoad 0 unitSect r).engineMay (eftFunc 0) (entBuf u.job.entry + u.res0 * 4160) 4160 = true := by decide +kernel

def writeObs : WriteUnitObs := ⟨.settled 0, true, true, 0⟩
/-- The write unit once its sector is armed. -/
def unitArmed : State := modWr 0 (fun w => { w with fifo := (wsectLoad 0 unitSect (tokenState 2 true)).bytes 0x10002000 4160 })
  (wsectLoad 0 unitSect (tokenState 2 true))

theorem witness_ReadChannelCommands_written :
    let z := writeArm 0 writeObs unitArmed
    (z.eft 0).unit.isSome = true ∧ (med z 0).wr.armed.isNone = true ∧ (med z 0).wr.wstat = 0 := by decide +kernel
/-- The unit of a MEDx job of OP `op`. -/
def medJob (op : Nat) : EftUnit := EftUnit.start ⟨16383, 0, medEntry op, 1, 0⟩ 0 0 0 0

/-- Both servo engines in a state, the spindle at speed, and a unit of OP `op` in eft `e`. -/
def servoState (op : Nat) (st : SvSt) (tandem : Bool) : State :=
  let e := if tandem then 2 else 0
  let s := (dramState (zoneRegs ++ if tandem then [(Reg.MED_SV_TANDEM 1, 0x80000000)] else [])).setBytes dramBase (zoneBytes 0 2 1 0)
  let s := s.setEft e { s.eft e with st := .running, valid := true, unit := some (medJob op) }
  { s with
    medA := { s.medA with sv := { s.medA.sv with st := st } }
    medB := { s.medB with sv := { s.medB.sv with st := st } }
    mot := { s.mot with spinOk := true } }

/-- That state once the routine has taken the datapath. -/
def servoToken (op : Nat) (st : SvSt) (tandem : Bool) : State :=
  modEft (if tandem then 2 else 0) (fun x => { x with owns := true }) (servoState op st tandem)

/-- The units of the servo commands and the states of the engines they meet. -/
def servoCases : List (Nat × SvSt × Bool) :=
  [(5, .tracking, false), (5, .tracking, true), (6, .off, false), (6, .tracking, false)]

theorem witness_ServoCommands_sector (c : Nat × SvSt × Bool) (h : c ∈ servoCases) (bad : BusRes → State → State)
    (k : Sect → State → State) :
    withSect (medZone (medJob c.1).job.entry) (medPba (medJob c.1).job.entry % 2 ^ 17) bad k (servoToken c.1 c.2.1 c.2.2) =
      k unitSect (servoToken c.1 c.2.1 c.2.2) := by
  have hz : zDecode ((servoToken c.1 c.2.1 c.2.2).bytes (zoneAddr (servoToken c.1 c.2.1 c.2.2) 0) 24) =
      zDecode (zoneBytes 0 2 1 0) := by fin_cases h <;> decide +kernel
  have hm : medZone (medJob c.1).job.entry = 0 := by fin_cases h <;> decide +kernel
  have hp : medPba (medJob c.1).job.entry % 2 ^ 17 = 0 := by fin_cases h <;> decide +kernel
  have h0 : (zDecode (zoneBytes 0 2 1 0)).defIdx + (zDecode (zoneBytes 0 2 1 0)).defCount = 0 := by decide +kernel
  rw [hm, hp, withSect, withZone, readOr_clean, hz, withDefects, readOr_clean]
  · rw [h0, Nat.zero_min, Nat.zero_sub, decodeDefects]
    congr 1
  all_goals fin_cases h <;> decide +kernel

theorem witness_ServoCommands_units :
    (∀ c ∈ (7, .tracking, false) :: (7, .off, false) :: (5, .off, false) :: servoCases,
      let e := if c.2.2 then 2 else 0
      let s := servoState c.1 c.2.1 c.2.2
      s.live = true ∧ medUnit e c.1 s = some (medJob c.1) ∧ ((s.eft e).owns || tokenFree s (e / 2)) = true ∧
      (sv (servoToken c.1 c.2.1 c.2.2) (e / 2)).st = c.2.1 ∧ spinOk (servoToken c.1 c.2.1 c.2.2) = true ∧
      forcePark (servoToken c.1 c.2.1 c.2.2) = false) ∧
    servoDown (servoToken 5 .off false) 0 = true ∧ servoDown (servoToken 5 .tracking false) 0 = false ∧
    following (servoToken 5 .tracking false) 0 = false ∧ servoDown (servoToken 5 .tracking true) 1 = false ∧
    following (servoToken 5 .tracking true) 1 = true := by decide +kernel

theorem witness_ServoCommands_token (c : Nat × SvSt × Bool)
    (h : c ∈ (7, .tracking, false) :: (7, .off, false) :: (5, .off, false) :: servoCases) :
    routineToken (if c.2.2 then 2 else 0) (servoState c.1 c.2.1 c.2.2) = some (servoToken c.1 c.2.1 c.2.2) := by
  rw [routineToken, if_pos (witness_ServoCommands_units.1 c h).2.2.1]; rfl

/-- A servo engine in a given state. -/
def svIn (f : Sv → Sv) : State := medState fun m => { m with sv := f m.sv }

theorem witness_ServoCommands :
    (∀ st ∈ [SvSt.loading, .unloading, .tracking], let s := svIn fun v => { v with st := st }
      s.live = true ∧ (sv s 0).st = st) ∧
    (∀ d : Bool, let s := modAct 0 (fun a => { a with retDone := d }) (svIn fun v => { v with st := .fault })
      s.live = true ∧ (sv s 0).st = .fault ∧ (actu s 0).retDone = d) ∧
    (∀ st ∈ [SvSt.tracking, .off], let s := svIn fun v => { v with st := st }
      s.live = true ∧ (s.eft 0).owns = false ∧ (s.eft 1).owns = false ∧
      following (s.setReg (Reg.MED_SV_CMD 0) (0 &&& 0x60FFFFFF)) 0 = false ∧ refusesTarget (sv s 0) = (st = .off : Bool)) ∧
    (let s := withRegs [(Reg.MED_SV_TANDEM 1, 0x80000000)]
     s.live = true ∧ (s.eft 2).owns = false ∧ (s.eft 3).owns = false ∧
     following (s.setReg (Reg.MED_SV_CMD 1) (0 &&& 0x60FFFFFF)) 1 = true) ∧
    (let s := eftIn 0 fun x => { x with owns := true }
     s.live = true ∧ (s.eft (2 * 0)).owns = true) ∧
    (∀ st ∈ [TraceSt.armed, .idle], let s := svIn fun v => { v with trace := st }
      s.live = true ∧ (sv s 0).trace = st) := by decide +kernel
theorem witness_ActuatorDriveCommands :
    (actu (modAct 1 (fun a => { a with retract := .drive }) State.reset) 1).retract = .drive ∧
    (actu (modAct 1 (fun a => { a with retract := .latch }) State.reset) 1).retract = .latch ∧
    State.reset.pwr.sif4.out = true ∧ (actu State.reset 0).retract = .none ∧ engineUp State.reset 0 = false ∧
    (let s := svIn fun v => { v with st := .tracking }
     (actu s 0).retract = .none ∧ engineUp s 0 = true ∧ s.fenced 6 = false) ∧ (State.reset.setFence 6 true).fenced 6 = true ∧
    (sv (svIn fun v => { v with st := .unloading }) 0).st = .unloading ∧ (sv State.reset 0).st ≠ .unloading ∧
    (let s := modAct 0 (fun a => { a with armed := true }) State.reset
     (actu s 0).armed = true ∧ (actu s 0).retract = .none) ∧
    State.reset.mot.st ≠ .holdup ∧ State.reset.mot.chopFault = false ∧
    { State.reset.mot with chopOn := true }.chopOn = true ∧ { State.reset.mot with st := .holdup }.st = .holdup := by
  decide +kernel

def motState (f : Mot → Mot) : State := { State.reset with mot := f State.reset.mot }

theorem witness_SpindleCommands :
    (∀ v ∈ [0, 600, 5399, 5400, 7200], let s := motState fun m => { m with st := .stopped }
      s.live = true ∧ (fld (BitVec.ofNat 32 v) 12 0 = 0 ∨ 600 ≤ fld (BitVec.ofNat 32 v) 12 0) ∧
      fld (BitVec.ofNat 32 v) 12 0 ≤ 7200 ∧ s.mot.st ≠ .fault ∧ engineUp s 0 = false ∧ engineUp s 1 = false) ∧
    (let s := motState fun m => { m with st := .relock, starting := true }
     spinDriven s.mot = true ∧ s.mot.aligning = false ∧ s.mot.starting = true ∧ s.mot.st = .relock) ∧
    (let s := motState fun m => { m with st := .sine }
     8640 ≤ (8640 : BitVec 32).toInt ∧ s.mot.st = .sine ∧
       motKe s * (8640 : BitVec 32).toInt.natAbs ≤ (0x7FFFFFFF : BitVec 32).toNat * 32) ∧
    (let s := motState fun m => { m with st := .detect }
     let o : DetectObs := ⟨1600, 0, [5]⟩
     let far : DetectObs := ⟨1601, 0, []⟩
     s.mot.st = .detect ∧ spdTarget s = 0 ∧ o.codes.length ≤ 1 ∧ o.amp.toNat < motKe s * 30 ∧ o.bemf.toInt.natAbs ≤ 1600 ∧
       1600 < far.bemf.toInt.natAbs) ∧
    (motState fun m => { m with st := .coast }).mot.st = .coast ∧ (motState fun m => { m with st := .openLoop }).mot.st = .openLoop ∧
    (let s := motState fun m => { m with st := .coast }
     s.mot.hallSubst = false ∧ (hallStep 1 s).mot.hallSubst = false ∧ (hallStep 1 s).mot.st = .coast) ∧
    (let s := motState fun m => { m with st := .hall6 }
     let o : PwmObs := ⟨1, 0, 1, 0x8001, 0, false, false⟩
     let i := phaseCurrents o false
     s.mot.st = .hall6 ∧ o.high ≠ o.low ∧ o.trip = false ∧ o.code ≠ 0 ∧ o.code ≠ 7 ∧ i.1 ≤ 32767 ∧ -32768 ≤ i.1 ∧ i.2 ≤ 32767 ∧
       -32768 ≤ i.2) := by decide +kernel

/-- Sensor 3 quenched the device at a peak of 2,000. -/
def quenchedState (f : State → State) : State :=
  f { State.reset with bud := { State.reset.bud with quenched := some (3, 2000) } }

/-- No reading of any sensor. -/
def noReading : List (Option (BitVec 16)) := []

theorem witness_ThermalCommands_sensors :
    ((List.range 20).foldl (takeReading noReading) (quenchedState id)).bud.quenched ≠ none ∧
    (let r := (List.range 20).foldl (takeReading noReading) State.reset
     let f := fastMode ((List.range 20).foldl crossCheck r)
     r.bud.quenched = none ∧ ∀ k < 20, f.bud.hot.getD k false = false) := by decide +kernel

theorem witness_ThermalCommands_quench :
    let l : List (Option (BitVec 16)) := [some 0x7000]
    let s := { State.reset with bud := { State.reset.bud with hot := [true] } }
    let r := (List.range 20).foldl (takeReading l) s
    let f := fastMode ((List.range 20).foldl crossCheck r)
    r.bud.quenched = none ∧ f.bud.hot.getD 0 false = true ∧ ((List.range 20).map (quenchHot f)).getD 0 false = true := by
  decide +kernel

theorem witness_ThermalCommands_cooled :
    (let s := quenchedState id
     s.bud.quenched = some (3, 2000) ∧ ∀ j < 20, usable s j = true → sensorT s j < 1840) ∧
    (let s := quenchedState fun s => s.setReg (Reg.TH_SENSOR 3) 1840
     s.bud.quenched = some (3, 2000) ∧ usable s 3 = true ∧ 1840 ≤ sensorT s 3) ∧
    State.reset.live = true ∧ State.reset.pwr.aonBusy = false ∧ (State.reset.setReg Reg.AV_CTRL 0).live = true ∧
    (State.reset.setReg Reg.AV_CTRL 0).rb Reg.AV_CTRL 0 = false := by decide +kernel

/-- The AVFS loop between slacks of 10 and 20, with VCODE `v`, the frequency `f`, `hi` reads above and `lim` at the limit. -/
def avState (v f hi lim : Nat) : State :=
  let s := withRegs [(Reg.AV_CTRL, 0x140A01), (Reg.AV_STATUS, BitVec.ofNat 32 (v + f * 2 ^ 16))]
  { s with bud := { s.bud with avHi := hi, avLim := lim } }

/-- The hypotheses of an AVFS read of slack `n` at every monitor, and of its case `p`. -/
def avCheck (n : BitVec 8) (s : State) (p : State → Bool) : Bool :=
  let low := ((List.range 8).map fun m => (((List.replicate 8 n).getD m 0).toNat, m)).foldl (fun a b => if b.1 < a.1 then b else a)
    (256, 0)
  s.live && s.rb Reg.AV_CTRL 0 && low = (n.toNat, 0) && p (s.setReg Reg.AV_SLACK (BitVec.ofNat 32 (low.1 % 256 + low.2 * 2 ^ 8)))

theorem witness_ThermalCommands_avfs :
    avCheck 9 (avState 79 800 0 8) (fun t => 9 < t.rf Reg.AV_CTRL 15 8 && t.rf Reg.AV_STATUS 6 0 < 80 && t.bud.avLim < 9) = true ∧
    avCheck 9 (avState 80 800 0 8) (fun t => 9 < t.rf Reg.AV_CTRL 15 8 && 80 ≤ t.rf Reg.AV_STATUS 6 0 && t.bud.avLim < 9) = true ∧
    avCheck 10 (avState 80 800 0 8) (fun t => t.rf Reg.AV_CTRL 15 8 ≤ 10 && 10 ≤ t.rf Reg.AV_CTRL 23 16) = true ∧
    avCheck 21 (avState 80 800 98 8) (fun t => t.rf Reg.AV_CTRL 15 8 ≤ 21 && t.rf Reg.AV_CTRL 23 16 < 21 && t.bud.avHi ≠ 99) = true ∧
    avCheck 21 (avState 80 2000 99 8) (fun t =>
      t.rf Reg.AV_CTRL 15 8 ≤ 21 && t.rf Reg.AV_CTRL 23 16 < 21 && t.bud.avHi = 99 && freqReq t ≤ t.rf Reg.AV_STATUS 27 16) = true ∧
    avCheck 21 (avState 80 800 99 8) (fun t =>
      t.rf Reg.AV_CTRL 15 8 ≤ 21 && t.rf Reg.AV_CTRL 23 16 < 21 && t.bud.avHi = 99 && t.rf Reg.AV_STATUS 27 16 < freqReq t) = true ∧
    avCheck 9 (avState 80 800 0 9) (fun t => 9 < t.rf Reg.AV_CTRL 15 8 && 80 ≤ t.rf Reg.AV_STATUS 6 0 && t.bud.avLim = 9) = true := by
  decide +kernel

def calRegs (l : List (Nat × Word)) : State := withRegs ((Reg.CAL_CTRL, 1) :: l)

theorem witness_CalibrationCommands :
    (let s := calRegs [(Reg.CAL_SUB_CFG 7, 0x80)]
     s.live = true ∧ s.rb Reg.CAL_CTRL 0 = true ∧ s.rb (Reg.CAL_SUB_CFG 7) 7 = true) ∧
    (∀ k ∈ [4, 7], let s := calRegs [(Reg.CAL_STATUS, BitVec.ofNat 32 (256 * 2 ^ k))]
      s.live = true ∧ calPending s k = true ∧ calActive s k = false ∧ s.fenced (calOwner k) = false ∧ calBoundary s k = true) ∧
    (∀ k ∈ [2, 4], let s := calRegs [(Reg.CAL_STATUS, BitVec.ofNat 32 (256 * 2 ^ k)), (Reg.CAL_SUB_CFG k, 0x10000)]
      s.live = true ∧ calPending s k = true ∧ calActive s k = false ∧ s.rf (Reg.CAL_SUB_CFG k) 31 16 ≠ 0 ∧ k ∉ s.cal.forced) ∧
    (∀ k ∈ [0, 1], let s := calRegs [(Reg.CAL_STATUS, BitVec.ofNat 32 (2 ^ k))]
      s.live = true ∧ calActive s k = true) ∧
    (∀ k ∈ [5, 7], let s := calRegs [(Reg.CAL_STATUS, BitVec.ofNat 32 (2 ^ k))]
      s.live = true ∧ calActive s k = true ∧ s.fenced (calOwner k) = false) := by decide +kernel

/-- A calibration run of MEDA's read channel in a read run, measuring slice 0 of reader 1. -/
def adcState : State :=
  { calRegs [(Reg.CAL_STATUS, 1)] with medA := { State.reset.medA with rc := { State.reset.medA.rc with run := true } } }

theorem witness_CalibrationCommands_measure :
    adcState.live = true ∧ calActive adcState 0 = true ∧ (med adcState 0).rc.run = true ∧ adcState.fenced 2 = false ∧
    (spareSlices (adcMeasured 0 0 0 0 0 0 adcState) 0 0).findIdx? (fun j => j = 0) = none := by decide +kernel

/-- The scrubber at a word, over memory up to a limit. -/
def scrubState (busy : Bool) (next : Nat) (limit : Word) : State :=
  { withRegs [(Reg.MEM_SCRUB_BASE_LO, 0x10000000), (Reg.MEM_SCRUB_LIMIT_LO, limit)] with
    mu := { State.reset.mu with scrub := ⟨busy, next, false⟩ } }

theorem witness_MemoryUnitCommands :
    (let s := scrubState false 0 0x10FFFFF8
     let u := s.setReg Reg.MEM_SCRUB_CTRL (1 &&& 0xFF02)
     s.live = true ∧ s.mu.scrub.busy = false ∧ scrubBase u ≤ scrubLimit u ∧
       inSram (scrubBase u) (scrubLimit u + 8 - scrubBase u) = true) ∧
    (let s := scrubState true 0x10FFFFF8 0x10FFFFF8
     s.live = true ∧ s.mu.scrub.busy = true ∧ s.mu.scrub.next ≤ scrubLimit s ∧
       eccDecode (Sparse.get (fun _ => (0 : BitVec 80)) (strike (errKey (memIndex s.mu.scrub.next) s.mu.scrub.next) 0 s).mu.errs
         (errKey (memIndex s.mu.scrub.next) s.mu.scrub.next)) = .clean) ∧
    (let s := scrubState true 0x11000000 0x10FFFFF8
     s.live = true ∧ s.mu.scrub.busy = true ∧ scrubLimit s < s.mu.scrub.next) ∧
    (let s : State := { State.reset with mu := { State.reset.mu with dramReady := true, selfRefresh := false } }
     s.live = true ∧ s.mu.dramReady = true ∧ s.mu.selfRefresh = false) ∧
    (let s : State := { State.reset with mu := { State.reset.mu with training := true } }
     s.live = true ∧ s.mu.training = true) ∧
    (let s : State := { State.reset with mu := { State.reset.mu with wipeBusy := true } }
     s.live = true ∧ s.mu.wipeBusy = true ∧ s.mu.retained = false) := by decide +kernel

/-- A code-flash operation under way. -/
def cfState (p : CfOp) : State := { State.reset with cf := { State.reset.cf with op := some p } }

theorem witness_CodeFlashCommands :
    (let s := State.reset
     s.live = true ∧ s.cf.op = none ∧ (0xFC + 4 - 1) / 256 = 0xFC / 256 ∧ s.cruAddr 0x10FFFF00 4 = some 0x10FFFF00 ∧
     cfRefused (s.setRb Reg.CF_STATUS 2 false) ⟨1, 0x3FFFFFC, 4, s.bytes 0x10FFFF00 4, false, 0, 0⟩ = none ∧
     (0x3FFFFFC % 4 = 0 ∧ 0x3FFFFFC + 4 ≤ cfSize ∧ 0x3FFFFFC / 256 = (0x3FFFFFC + 4 - 1) / 256) ∧
     (0x3FFF000 % 4096 = 0 ∧ 0x3FFF000 + 4096 ≤ cfSize) ∧
     cfRefused (s.setRb Reg.CF_STATUS 2 false) ⟨2, 0x3FFF000, 4096, [], false, 0, 0⟩ = none ∧
     xipHidden s 2097151 = false ∧ bit (0x80000000 : BitVec 32) 31 = true) ∧
    (let p : CfOp := ⟨2, 0x3FFF000, 4096, 1, false, false⟩
     (cfState p).live = true ∧ (cfState p).cf.op = some p ∧ p.verifying = false) ∧
    (let p : CfOp := ⟨2, 0x3FFF000, 4096, 1, false, true⟩
     (cfState p).live = true ∧ (cfState p).cf.op = some p ∧ p.verifying = true ∧ cfOverdone (cfState p) p = none ∧
     cfFailing (cfState p) p = []) := by decide +kernel

def cruState (f : Cru → Cru) : State := { State.reset with cru := f State.reset.cru }

theorem witness_FuseCommands :
    State.reset.live = true ∧ State.reset.cru.burn = none ∧ (3 : BitVec 8).toNat ≤ 3 ∧ 3 < (4 : BitVec 8).toNat ∧
    (let s := cruState fun c => { c with burn := some (2, 0) }
     s.live = true ∧ s.cru.burn = some (2, 0)) := by decide +kernel

theorem witness_BandKeyCommands :
    State.reset.live = true ∧ State.reset.cru.band = none ∧
    (∀ op ∈ [1, 2, 3, 4], let s := cruState fun c => { c with band := some (op, 63) }
      s.live = true ∧ s.cru.band = some (op, 63) ∧ kekKilled s = false ∧ entropyFailed s = false) ∧
    (let s := cruState fun c => { c with band := some (1, 63) }
     let s : State := { s with mu := { s.mu with trip1 := ⟨0x200, 0x200, 0⟩ } }
     s.live = true ∧ kekKilled s = true ∧ s.cru.band = some (1, 63)) := by decide +kernel

theorem witness_HashAndEntropyCommands :
    State.reset.live = true ∧ State.reset.cru.hashing = false ∧ entropyFailed State.reset = false ∧
    (let s := withRegs [(Reg.CRU_HASH_CTRL, 0x4000), (Reg.CRU_HASH_SRC_LO, 0x10000000), (Reg.CRU_HASH_LEN, 2)]
     let s := modCru (fun c => { c with hashing := true }) s
     s.live = true ∧ s.cru.hashing = true ∧ s.rf Reg.CRU_HASH_CTRL 15 8 = 64 ∧
       hashSource s (s.reg Reg.CRU_HASH_SRC_LO).toNat (s.reg Reg.CRU_HASH_LEN).toNat = some [0, 0]) ∧
    (let s := State.reset.setRb Reg.CRU_RNG_STATUS 1 true
     s.live = true ∧ entropyFailed s = true) := by decide +kernel

theorem witness_WatchdogAndCoreCommands :
    (let s := cruState fun c => { c with wdog := true }
     s.live = true ∧ s.cru.wdog = true) ∧
    State.reset.live = true ∧ State.reset.cru.wdog = false ∧ State.reset.cru.cores.length = 6 ∧
    (let s := cruState fun c => { c with svcSlot := some 0, trial := true, boot := .released }
     s.live = true ∧ s.cru.svcSlot = some 0 ∧ s.cru.trial = true ∧ svcRuns s = true) := by decide +kernel

theorem witness_BootDebugAndLinkCommands :
    (let s := cruState fun c => { c with boot := .blank }
     s.cru.boot = .blank ∧ entropyFailed s = false ∧ entropyFailed (s.setRb Reg.CRU_RNG_STATUS 1 true) = true ∧
       (s.setRb Reg.CRU_RNG_STATUS 1 true).cru.boot = .blank) ∧
    State.reset.cru.boot ≠ .blank ∧
    tapMay State.reset .idcode = true ∧ tapMay (lcState 0x1F) (.core 6) = false ∧ tapMay (lcState 0x1F) (.core 5) = true ∧
    (let s : State := { State.reset with pwr := { State.reset.pwr with sprueUp := false, sprueFailed := false } }
     s.pwr.sprueUp = false ∧ s.pwr.sprueFailed = false) ∧
    { State.reset.pwr with sprueUp := true }.sprueUp = true ∧ { State.reset.pwr with sprueFailed := true }.sprueFailed = true := by
  decide +kernel

/-- Crucible's firmware serves and the service image runs, in MOULD. -/
def servedState (f : Cru → Cru) : State := { lcState 0x1F with cru := f { State.reset.cru with boot := .released } }

theorem witness_MailboxFifoCommands :
    (∀ n ∈ [0, 1, 15, 16], let s := cruState fun c => { c with rx := List.replicate n [], tx := List.replicate n [] }
      s.live = true ∧ s.cru.rx.length = n ∧ s.cru.tx.length = n) := by decide +kernel

/-- The inactive slot of a kind holds a staged image. -/
def stagedState (kind : Nat) : State :=
  let s := servedState id
  { s with cf := { s.cf with arr := [(markAt kind (inactiveSlot s kind) 0, 0)] } }

theorem witness_ImageRequests :
    (let s := servedState id
     s.live = true ∧ cruFree s = true ∧ s.cru.boot = .released ∧ inSpare 0x3FFFFFC 4 = true ∧ cruMay s 0x10FFFFFC 4 = true ∧
     0x3FFFFFC % 256 + 4 ≤ 256 ∧ inSpare 0 4 = false ∧ inSpare 0x3FFF000 4096 = true ∧ cruMay s 0x10FFF010 4080 = true ∧
     s.cru.activation = none) ∧
    (∀ kind ∈ [1, 2], let s := stagedState kind
      s.live = true ∧ cruFree s = true ∧ s.cru.boot = .released ∧ s.cru.activation = none ∧ stagedImage s kind = true) := by
  decide +kernel

theorem witness_SecurityRequests :
    (let s := servedState id
     s.live = true ∧ cruFree s = true ∧ s.cru.boot = .released ∧ s.lcState = 1 ∧ entropyFailed s = false ∧
     s.cru.fuses.kek ≠ 4095 ∧ cruMay s 0x10000000 5376 = true ∧ cruMay s 0x10000000 32 = true ∧
     cruMay s (0x11000000 - 5773) 5773 = true ∧ lcWaits s = false) ∧
    (let s : State := { servedState id with mu := { (servedState id).mu with cap := 1 } }
     s.live = true ∧ cruFree s = true ∧ s.cru.boot = .released ∧ dramBase % 4096 = 0 ∧ (apertureBase s - 4096) % 4096 = 0 ∧
     dramBase ≤ apertureBase s - 4096 ∧ apertureBase s ≤ dramBase + s.dramBytes) := by decide +kernel

/-- The error machine of function `f` in state `st`, with a timeout, and source 255 with a token limit. -/
def errStateOf (f : Nat) (st : Word) : State := withRegs [(Reg.EVC_ERR_STATE f, st), (Reg.EVC_CTRL, 0x10000), (Reg.EVC_SRC 255, 0x1000000)]

theorem witness_EventCommands :
    isEftSource 62 = false ∧ (sourceBit 62 0).isSome = true ∧
    (let s := errStateOf 6 1
     s.live = true ∧ errState s 6 = 1 ∧ s.rf Reg.EVC_CTRL 31 16 ≠ 0 ∧ errState s 6 < 2 ∧ errState s 6 ≠ 3 ∧
     s.rf (Reg.EVC_SRC 255) 31 24 ≠ 0) ∧
    (let s := errStateOf 6 3
     s.live = true ∧ errState s 6 = 3) ∧
    (∀ f ∈ [2, 3], let s := modAct (f - 2) (fun a => { a with retDone := true }) (errStateOf f 3)
      s.live = true ∧ errState s f = 3 ∧ (actu s (f - 2)).retDone = true) := by decide +kernel

theorem witness_RecorderCommands :
    State.reset.live = true ∧ State.reset.cf.op = none ∧ State.reset.pwr.aonBusy = false ∧ State.reset.ramOnly = false := by
  decide +kernel

def pwrState (f : Pwr → Pwr) : State := { State.reset with pwr := f State.reset.pwr }

/-- A supply state with its inputs good. -/
def upState (u : PowerUp) : State := pwrState fun p => { p with powerUp := u }

theorem witness_SupplyCommands :
    (upState .up).pwr.powerUp = .up ∧
    (let s := upState .off
     s.pwr.powerUp = .off ∧ s.mot.dip = false ∧ s.mot.bootDue = false ∧ s.pwr.holdup = false) ∧
    (let s := { pwrState fun p => { p with vin5Good := false } with mot := { State.reset.mot with dip := true } }
     s.mot.dip = true ∧ inputsGood s = false) ∧
    (let s := motState fun m => { m with bootDue := true }
     s.mot.bootDue = true ∧ inputsGood s = true ∧ s.pwr.resetPinLow = false ∧ s.bud.quenched = none) ∧
    (let s := (upState .holding).setRb Reg.PWR_CTRL 1 false
     s.pwr.powerUp = .holding ∧ inputsGood s = true ∧ s.rb Reg.PWR_CTRL 1 = false) ∧
    (let s := { upState .holding with pwr := { (upState .holding).pwr with sif3 := { State.reset.pwr.sif3 with out := false } } }
     s.pwr.powerUp = .holding ∧ inputsGood s = true ∧ s.pwr.sif3.out = false) ∧
    (∀ n ∈ [1, 2], let s := pwrState fun p => { p with powerUp := .ramping, tries := n }
      s.pwr.powerUp = .ramping ∧ s.pwr.tries = n) ∧
    (upState .retryWait).pwr.powerUp = .retryWait ∧
    (let s := pwrState fun p => { p with powerUp := .rails 6, pg := 63 }
     s.pwr.powerUp = .rails 6 ∧ nbit s.pwr.pg 6 = false) ∧
    (let s := pwrState fun p => { p with powerUp := .resetHold, pg := 0xFF }
     s.pwr.powerUp = .resetHold ∧ s.pwr.pg = 0xFF ∧ s.pwr.resetPinLow = false ∧ s.bud.quenched = none) ∧
    (upState (.railFault 3)).pwr.powerUp = .railFault 3 := by decide +kernel

theorem witness_ResetAndInputCommands :
    State.reset.live = true ∧ State.reset.pwr.holdup = false ∧ (pwrState fun p => { p with holdup := true }).pwr.holdup = true ∧
    (let s := pwrState fun p => { p with resetPinLow := true }
     s.pwr.resetPinLow = true ∧ s.pwr.holdup = false ∧ s.pwr.powerUp = .up ∧ s.bud.quenched = none) ∧
    (pwrState fun p => { p with sif3 := { p.sif3 with out := false } }).pwr.sif3.out = false ∧ State.reset.pwr.sif5.out = false ∧
    (let s := pwrState fun p => { p with sif3 := { p.sif3 with cfgB := 0x10000, out := false } }
     fld (sif s 3).cfgB 31 16 ≠ 0 ∧ (sif s 3).out = sifActive 3 ∧ sifFaulty s 3 = false) ∧
    (let s := pwrState fun p => { p with powerUp := .off, inReset := some (.cold, 2) }
     s.pwr.powerUp = .off ∧ s.pwr.inReset ≠ none) := by decide +kernel

/-- NET with queue pair 16383 on port 1, whose link is up. -/
def netState (f : Net → Net) (x : Qp) : State :=
  let s := withRegs [(Reg.NET_CTRL, 0x30), (Reg.NET_QPC_BASE_LO, 0x10000000 - 16383 * 256 + 0x400000)]
  { s with net := f { s.net with qps := [(16383, x)], port1 := { s.net.port1 with up := true } } }

/-- A queue pair as CREATE and MODIFY leave it. -/
def qpIn (st : QpSt) : Qp := { Qp.none with made := true, st := st, port := 1, timeout := 20, maxRd := 16, triesLeft := 1 }

theorem witness_NetPortCommands :
    (let s := netState (fun n => { n with port0 := { n.port0 with training := true } }) (qpIn .rts)
     let t := netFresh s
     s.live = true ∧ netLive s = true ∧ (port t 0).training = true ∧ portOn t 0 = true ∧ nbit t.pwr.pg 6 = true ∧
     (port s 1).up = true ∧ (port t 1).up = true ∧ qpUp (qp t 16383) = true ∧ (qp t 16383).lastDec = none) ∧
    (let s := State.reset.setFence 1 true
     s.live = true ∧ netLive s = true ∧ s.fenced 1 = true) ∧
    (let s := (netState (fun n => { n with port1 := { n.port1 with xoff := true, paused := 0x80 } }) (qpIn .rts)).setReg
       (Reg.NET_P_BUF_THR 1) 0x1000000
     let t := netFresh s
     let u := modPort 1 (fun x => { x with occ := 262144 }) t
     s.live = true ∧ netLive s = true ∧ (port u 1).xoff = true ∧ 262144 ≤ u.rf (Reg.NET_P_BUF_THR 1) 31 16 * 1024 ∧
     (port t 1).paused ≠ 0 ∧ nbit (port t 1).paused (u.rf (Reg.NET_P_PFC 1) 10 8) = false) ∧
    (let s := netState (fun n => { n with fetching := [16383] }) (qpIn .rts)
     let t := netFresh s
     s.live = true ∧ netLive s = true ∧ t.mu.errs = [] ∧ 16383 ∈ t.net.fetching ∧ (makeRoom t).isSome = true ∧
       t.engineMay 0 (qpcAddr t 16383) 256 = true) ∧
    (let s := (netState id { qpIn .rts with incFrom := some 0 }).setReg Reg.NET_CC_RATE 0
     let t := netFresh s
     s.live = true ∧ netLive s = true ∧ (qp t 16383).incFrom = some 0 ∧ (qp t 16383).made = true ∧
       0 + t.rf Reg.NET_CC_RATE 23 16 ≤ t.timeUs) := by decide +kernel

/-- What the statements about NET's messages take for granted. -/
def netReady (s : State) : Bool := s.live && netLive s && (netFresh s).mu.errs.isEmpty

theorem witness_NetMessageCommands_rings :
    (let s := State.reset.setReg Reg.NET_CTRL 0
     netReady s = true ∧ (0 : BitVec 32).toNat % 2 ^ 13 < 2 ^ (rawN s + 1) ∧
     ringCount (rawN s) (rawProd s) ((0 : BitVec 32).toNat % 2 ^ 13) ≤ 2 ^ rawN s ∧ anyPortOn s = false ∧
     fld (0 : BitVec 32) 19 16 = s.rf (Reg.NET_MBX_CONS 255) 19 16 ∧ fld (0 : BitVec 32) 12 0 < 2 ^ (mbxN s 255 + 1) ∧
     ringCount (mbxN s 255) (mbxProd (s.setRf (Reg.NET_MBX_CONS 255) 12 0 0) 255) 0 ≤ 2 ^ mbxN s 255) ∧
    (let s := netState (fun n => { n with errFifo := [(16383, 4)] }) Qp.none
     netReady s = true ∧ s.net.errFifo = [(16383, 4)]) := by decide +kernel

/-- A buffer advertised to queue pair 16383, whose expected packet is number 5. -/
def advState : State :=
  netState (fun n => { n with adv := [(0, ⟨16383, 0x10000000, 16, 7⟩)] }) { qpIn .rts with rqPsn := 5, rnrRetry := 6, rnrLeft := 1 }

/-- A READ of four bytes that queue pair 16383 awaits, started from ring 5. -/
def awaitState : State :=
  let s := netState (fun n => { n with wrs := [⟨5, 0, 16383, 0, true⟩] }) (qpIn .rts)
  { s with rings := { s.rings with jobs := [⟨5, 0, [entryOf [(0, 1, 0x17), (1, 1, 3), (8, 2, 16383), (24, 4, 4)]], 0, .slot, true, none, false⟩] } }

theorem witness_NetMessageCommands :
    (let t := netFresh advState
     netReady advState = true ∧ qpUp (qp t 16383) = true ∧ (port t (qp t 16383).port).up = true ∧ (qp t 16383).rqPsn = 5 ∧
     opDefined 2 (capOp (entryOf [(0, 1, 0x11)])) = true ∧ (8388607 : BitVec 24).toNat < 2 ^ 23 ∧
     advHolds t 16383 0x10000000 16 7 = true ∧ advHolds t 16383 0x10000001 16 7 = false ∧
     t.engineMay 0 0x10000000 16 = true ∧ (qp t 16383).rnrRetry ≠ 7 ∧ (qp t 16383).rnrLeft ≠ 0) ∧
    (let t := netFresh awaitState
     netReady awaitState = true ∧ qpUp (qp t 16383) = true ∧ (port t (qp t 16383).port).up = true ∧
     oldestRead t 16383 = some ⟨5, 0, 16383, 0, true⟩ ∧ ((findJob t 5 0).any fun j => field j.entry 24 4 = 4) = true ∧
     (qp t 16383).readDone = 0 ∧ (qp t 16383).made = true ∧ (qp t 16383).st = .rts ∧ (qp t 16383).timeout ≠ 0 ∧
     (qp t 16383).rnrWait = false ∧ (t.net.wrs.any fun w => w.qp = 16383) = true ∧ (qp t 16383).triesLeft ≠ 0) ∧
    (let s := netState id { qpIn .rts with rnrWait := true }
     netReady s = true ∧ (qp (netFresh s) 16383).made = true ∧ (qp (netFresh s) 16383).rnrWait = true) := by decide +kernel

/-- Ring 5 of class `c` with a started job of OP `op`, before queue pair 16383 in state `x`. -/
def jobState (c op : Nat) (l : List (Nat × Nat × Nat)) (x : Qp) : State :=
  let s := (netState (fun n => { n with cache := [16383] }) x).setReg (Reg.SQ_CFG 5) (BitVec.ofNat 32 (c * 16))
  { s with rings := { s.rings with
      jobs := [⟨5, 0, [entryOf ((0, 1, c * 16 + 7) :: (1, 1, op) :: (8, 2, 16383) :: l)], 0, .slot, false, none, false⟩] } }

/-- The job is the next of ring 5, and it and its queue pair have a property. -/
def jobNext (c op : Nat) (l : List (Nat × Nat × Nat)) (x : Qp) (p : State → Job → Qp → Bool) : Bool :=
  let s := jobState c op l x
  let t := netFresh s
  netReady s && (nextWr t 5 c op).any fun j => field j.entry 8 2 % 16384 = 16383 && p t j (qp t 16383)

theorem witness_NetJobCommands :
    jobNext 0 1 [] Qp.none (fun _ _ x => !x.made) = true ∧
    ((List.range 9).all fun k => jobNext 0 (k + 1) [(10, 1, 2)] (qpIn .init) fun t j x =>
      x.made && x.st = .init && qpMoves x.st (field j.entry 10 1 % 8) && !(16383 ∈ t.net.pinned) && t.net.pinned.length < 64 &&
        16383 ∈ t.net.cache && (Sparse.get (fun _ => Adv.none) t.net.adv (field j.entry 8 2 % 4096)).qp = 0) = true ∧
    jobNext 0 2 [(10, 1, 7)] (qpIn .init) (fun _ j x => !qpMoves x.st (field j.entry 10 1 % 8)) = true ∧
    ((List.range 3).all fun k => jobNext 1 (k + 1) [(16, 5, 0x10FFFFF0), (24, 4, 16)] (qpIn .rts) fun t j x =>
      !x.rnrWait && t.engineMay 0 (field j.entry 16 5) (field j.entry 24 4) &&
        (t.net.wrs.filter fun w => w.qp = 16383 && w.read).length < x.maxRd) = true ∧
    jobNext 2 1 [(16, 5, 0x10000000), (24, 2, 60)] (qpIn .rts) (fun t j _ =>
      mayTransmit t ((byteAt j.entry 8).toNat % 2) 0 && t.engineMay 0 (field j.entry 16 5) (field j.entry 24 2)) = true := by
  decide +kernel

/-- A capsule of major 3 with a tag, other fields, and a key. -/
def capsuleOf (l : List (Nat × Nat × Nat)) (key : List Byte) : List Byte :=
  entryOf ((2, 2, 0xFFFF) :: (4, 1, 3) :: (6, 2, key.length) :: l) ++ key

/-- The service image runs, and queue pair 16383 is in RTS with a connection of major `major`. -/
def svcState (major : Nat) : State :=
  let s := servedState id
  { s with net := { s.net with qps := [(16383, qpIn .rts)] },
           svc := { s.svc with conns := if major = 0 then [] else [⟨16383, major, 0, 0, none, [], 0, false⟩] } }

def key8 : List Byte := [1, 2, 3, 4, 5, 6, 7, 8]

theorem witness_ObjectCommandsStart :
    (svcState 3).live = true ∧
    ([0x10, 0x11, 0x12, 0x13, 0x14].all fun op => capsuleRuns op 16383 (capsuleOf [] key8) noObs (svcState 3)) = true ∧
    capsuleRuns 0x15 16383 (capsuleOf [(48, 4, 4096)] []) noObs (svcState 3) = true ∧
    ([0x20, 0x21, 0x22].all fun op => capsuleRuns op 16383 (capsuleOf [] []) noObs (svcState 3)) = true ∧
    capsuleRuns 0x50 16383 (capsuleOf [(24, 8, 32), (40, 8, 32), (48, 4, 0x01000101), (52, 4, 1)] key8) noObs (svcState 3) = true := by
  decide +kernel

theorem witness_AdminCommandsStart :
    (svcState 0).live = true ∧ capsuleRuns 0x01 16383 (capsuleOf [] []) noObs (svcState 0) = true ∧
    ([0x02, 0x41, 0x42, 0x64, 0x65, 0x70, 0x71, 0x72].all fun op =>
      capsuleRuns op 16383 (capsuleOf [(1, 1, 1)] []) noObs (svcState 3)) = true ∧
    capsuleRuns 0x03 16383 (capsuleOf [(24, 8, 4096)] []) noObs (svcState 3) = true ∧
    ([0x30, 0x31].all fun op =>
      capsuleRuns op 16383 (capsuleOf ((48, 4, 1) :: if op = 0x31 then [(52, 4, 2000)] else []) []) noObs (svcState 3)) = true ∧
    capsuleRuns 0x32 16383 (capsuleOf [(48, 4, 3)] []) noObs (svcState 3) = true ∧
    capsuleRuns 0x40 16383 (capsuleOf [(24, 8, 4096), (40, 8, 4096)] []) noObs (svcState 3) = true ∧
    capsuleRuns 0x60 16383 (capsuleOf [] []) noObs (svcState 3) = true ∧
    capsuleRuns 0x61 16383 (capsuleOf [(48, 4, 1)] []) noObs (svcState 3) = true ∧
    capsuleRuns 0x62 16383 (capsuleOf [(24, 8, 8192)] (List.replicate 32 7)) noObs (svcState 3) = true ∧
    capsuleRuns 0x63 16383 (capsuleOf [(32, 8, 1577836800000)] []) noObs (svcState 3) = true := by decide +kernel

/-- An outstanding DELETE of an object that exists. -/
def deleteCmd : Cmd :=
  ⟨0, 16383, capOf 0x13 (capsuleOf [] key8), noObs, true, false, true, false, false, none, [], 0, [], (0, 0, 0, 0), none,
    false, false, 0⟩

/-- The service image with a command and, where wanted, the object that it names. -/
def changeState (x : Cmd) (held : Bool) : State :=
  { svcState 3 with svc := { (svcState 3).svc with cmds := [x], objs := if held then [⟨key8, [1], 1, 0, 1, none, []⟩] else [] } }

theorem witness_ServiceEvents_changes :
    (∀ held : Bool, let s := changeState deleteCmd held
      s.live = true ∧ svcLive s = true ∧ cmdAt (svcFresh s) 16383 0xFFFF = some deleteCmd ∧ changes (capOp deleteCmd.cap) = true ∧
      deleteCmd.started = true ∧ deleteCmd.committed = none ∧ deleteCmd.suspended = false ∧
      mediaThere (svcFresh s) deleteCmd = true ∧ changeFault (svcFresh s) deleteCmd = if held then none else some (0x201, 0)) ∧
    (let x := { deleteCmd with committed := some (1, 2) }
     let s := changeState x false
     s.live = true ∧ svcLive s = true ∧ cmdAt (svcFresh s) 16383 0xFFFF = some x ∧ x.committed = some (1, 2) ∧
       x.suspended = false) := by decide +kernel

/-- The spindle turns at the speed of PS1 with both actuators loaded, and that state is being entered. -/
def enteringState : State :=
  let s := (svcState 3).setReg Reg.MOT_SPD_CMD 5400
  { s with svc := { s.svc with entering := some ⟨1, none, [], true⟩ }, mot := { s.mot with spinOk := true }
           medA := { s.medA with sv := { s.medA.sv with st := .tracking } }
           medB := { s.medB with sv := { s.medB.sv with st := .tracking } } }

/-- PS3 is being entered for command 0 when a SCRUB waits. -/
def reversalState : State :=
  { svcState 3 with svc := { (svcState 3).svc with
      entering := some ⟨3, some 0, [], true⟩
      cmds := [{ deleteCmd with cap := capOf 0x60 (capsuleOf [] []) }] } }

/-- A live activation has paused the start of commands, with an image staged. -/
def pausedState : State := { stagedState 2 with svc := { (stagedState 2).svc with paused := true } }

/-- A page without live blocks, and a destage under way. -/
def destageState : State :=
  { svcState 3 with svc := { (svcState 3).svc with staged := [⟨7, 1, 10, false, []⟩], destaging := true } }

theorem witness_ServiceEvents :
    (let s := enteringState
     s.live = true ∧ svcLive s = true ∧ (svcFresh s).svc.entering = some ⟨1, none, [], true⟩ ∧ stateHolds (svcFresh s) 1 = true ∧
       reverses ⟨1, none, [], true⟩ (svcFresh s) = false) ∧
    (let s := reversalState
     s.live = true ∧ svcLive s = true ∧ (svcFresh s).svc.entering = some ⟨3, some 0, [], true⟩ ∧
       reverses ⟨3, some 0, [], true⟩ (svcFresh s) = true) ∧
    (let s := pausedState
     s.live = true ∧ svcLive s = true ∧ (svcFresh s).svc.paused = true ∧ (svcFresh s).cru.activation = none ∧
       cruFree (svcFresh s) = true ∧ stagedImage (svcFresh s) 2 = true) ∧
    (let s := servedState fun c => { c with activation := some (0, 1) }
     s.live = true ∧ s.cru.activation ≠ none) ∧
    (let s := destageState
     s.live = true ∧ svcLive s = true ∧ nextPage (svcFresh s) = some ⟨7, 1, 10, false, []⟩ ∧ mayDestage (svcFresh s) = true ∧ mediaUp (svcFresh s) = true ∧
       pageOnDisk (svcFresh s) ⟨7, 1, 10, false, []⟩ [] = true) := by decide +kernel

/-- A record waits in the recorder's buffer. -/
def recState : State :=
  { servedState id with evc := { State.reset.evc with buf := [⟨5, true, 9, 0x3200, 8, 1, 0, List.replicate 12 0⟩] } }

theorem witness_SidebandCommands :
    (let s := servedState id
     s.live = true ∧ cruFree s = true ∧ (BitVec.ofNat 32 (vendorNumber s)).toNat = vendorNumber s ∧ s.lcState = 1 ∧
     sbAddress s = some 0x1D ∧ sbAddress s ≠ some 0x1E ∧ lcWaits s = false ∧ bit s.vaultWord 2 = false) ∧
    (let s : State := { servedState id with pwr := { State.reset.pwr with sbMode := 2 } }
     s.live = true ∧ cruFree s = true ∧ (BitVec.ofNat 32 (vendorNumber s)).toNat = vendorNumber s ∧ 1 ≤ s.lcState ∧
     s.pwr.sbMode = 2 ∧ (0x1D : BitVec 7) ≠ 0x30) ∧
    (let s : State := { lcState 0x1F1F with cru := { State.reset.cru with boot := .released } }
     s.live = true ∧ cruFree s = true ∧ (BitVec.ofNat 32 (vendorNumber s)).toNat = vendorNumber s ∧ s.lcState = 2) ∧
    (let s := recState
     s.live = true ∧ cruFree s = true ∧ (BitVec.ofNat 32 (vendorNumber s)).toNat = vendorNumber s ∧ s.lcState = 1 ∧
     ((recordsFrom s 9 8).getLast?).isSome = true ∧ (recordsFrom s 9 1).length = 1) := by decide +kernel

theorem witness_BudgetGrantsFit :
    (windowGrants State.reset 1000).getD (2 - 2) 0 ≠ 0 ∧ baWeight (State.reset.setReg (Reg.BA_FUNC 5) 0) 5 = 0 ∧
    baMax (State.reset.setReg (Reg.BA_BAL 3) 0x7FFFFFFF) 3 ≤ balance (State.reset.setReg (Reg.BA_BAL 3) 0x7FFFFFFF) 3 := by
  decide +kernel

end Sys2Proof.Tests
end

section
/-!
PROOFS. The statements of spec/00_scope.md: how an access to a register window is answered, what a write by the access code
alone does, and the machine at reset.
-/

namespace Sys2Proof.Machine

open Sys2Proof

/-! ## Accesses to a register window -/

/-- Of the initiators the debug port alone stands for another; all others reach the register windows alike (R10, R25). -/
theorem exec_registerWrite_window {s : State} (ini : Initiator) {a : BitVec 40} (z : Fin 4) (v : Option (BitVec 64))
    (hl : s.live = true) (hi : ini ≠ .debugPort) (ha : inWindows a.toNat = true) :
    exec (.registerWrite ini a z v) s =
      .next (windowAccess ini a.toNat (2 ^ z.val) (v.map fun x => x.toNat % 2 ^ (8 * 2 ^ z.val)) s) := by
  have h32 : a.toNat < 2 ^ 32 := by
    simp only [inWindows, Bool.and_eq_true, decide_eq_true_eq] at ha
    omega
  simp only [exec, execRegisterWrite, State.whenLive_live _ _ hl]
  cases ini with
  | core k => simp only [standsFor, coreAccess, ha, if_true]
  | crucible => simp only [standsFor, crucibleAccess, ha, h32, if_true]
  | romRoutine => simp only [standsFor, crucibleAccess, ha, h32, if_true]
  | debugPort => exact absurd rfl hi
  | engine f => simp only [standsFor, engineAccess, ha, if_true, Fin.ofNat_val_eq_self]

section WindowAccess

variable (ini : Initiator) {a : Nat} (s : State)

/-- R10: whatever is no aligned 32-bit access is answered with a bus error and has no effect. -/
theorem windowAccess_of_not_aligned {n : Nat} (v : Option Nat) (h : n ≠ 4 ∨ a % 4 ≠ 0) :
    windowAccess ini a n v s = respond 0 true s := by
  simp [windowAccess, h]

/-- R11, R15: an offset that is no register reads 0 and takes no write; in the window of Crucible, others are refused. -/
theorem windowAccess_of_rowAt_none (v : Option Nat) (ha : a % 4 = 0) (hr : Reg.rowAt a = none) :
    windowAccess ini a 4 v s =
      if a / 0x1000000 = 0x27 && !isCrucible ini then refuseAccess s else respond 0 false s := by
  simp [windowAccess, ha, hr]

variable {ini} {r : Reg.Row} (ha : a % 4 = 0) (hr : Reg.rowAt a = some r)
include ha hr

/-- R15: a register of Crucible refuses every other initiator. -/
theorem windowAccess_of_crucible (v : Option Nat) (hw : answersTo r a = .crucible) (hi : isCrucible ini = false) :
    windowAccess ini a 4 v s = refuseAccess s := by
  simp [windowAccess, ha, hr, hw, hi]

/-- R482, R489: a register of the ROM routine refuses everyone else, the Crucible core outside it among them. -/
theorem windowAccess_of_romRoutine (v : Option Nat) (hw : answersTo r a = .romRoutine) (hi : ini ≠ .romRoutine) :
    windowAccess ini a 4 v s = refuseGate s := by
  cases hc : isCrucible ini <;> simp [windowAccess, ha, hr, hw, hi, hc]

/-- A register that answers to any initiator takes a write by its row. -/
theorem windowAccess_write_of_any (v : Nat) (hw : answersTo r a = .any) :
    windowAccess ini a 4 (some v) s = regWrite r a (w32 v) (respond 0 false s) := by
  simp [windowAccess, ha, hr, hw]

/-- A register that answers to any initiator is read by its row. -/
theorem windowAccess_read_of_any (hw : answersTo r a = .any) :
    windowAccess ini a 4 none s = respond (regRead r a s).1.toNat false (regRead r a s).2 := by
  simp [windowAccess, ha, hr, hw]

end WindowAccess

/-- Of the four access sizes only size 2 is 32 bits. -/
theorem access_size_ne (z : Fin 4) : z ≠ 2 → 2 ^ z.val ≠ 4 := by
  revert z
  decide

/-! ## A write by the access code alone -/

@[simp] theorem reg_respond (data : Nat) (bad : Bool) (s : State) (b : Nat) : (respond data bad s).reg b = s.reg b := rfl

@[simp] theorem bit_and (v w : Word) (i : Nat) : bit (v &&& w) i = (bit v i && bit w i) := BitVec.getLsbD_and

@[simp] theorem bit_or (v w : Word) (i : Nat) : bit (v ||| w) i = (bit v i || bit w i) := BitVec.getLsbD_or

theorem bit_not (v : Word) {i : Nat} (hi : i < 32) : bit (~~~v) i = !bit v i := by simp [bit, hi]

/-- The word that a 32-bit access carries holds the low bits of the operand. -/
theorem bit_w32_mod (v : BitVec 64) {i : Nat} (hi : i < 32) : bit (w32 (v.toNat % 2 ^ 32)) i = v.getLsbD i := by
  rw [bit, w32, BitVec.getLsbD_ofNat, Nat.testBit_mod_two_pow]
  simp [hi, BitVec.getLsbD]

/-- Where no bit has a command of its own, every defined bit follows the access code. -/
theorem mask_of_act_zero {r : Reg.Row} (hact : r.act = 0) : r.mask &&& ~~~r.act = r.mask := by
  rw [hact]
  exact BitVec.and_allOnes

section PlainWrite

variable {r : Reg.Row} (a : Nat) (v : Word) (s : State)

/-- R13, RW: the defined bits take the value, the others keep theirs. -/
theorem bit_plainWrite_rw (hr : r.access = .rw) (hact : r.act = 0) {i : Nat} (hi : i < 32) :
    bit ((plainWrite r a v s).reg a) i = if bit r.mask i then bit v i else bit (s.reg a) i := by
  cases hm : bit r.mask i <;> simp [plainWrite, hr, mask_of_act_zero hact, bit_not _ hi, hm]

/-- R13, W1C: the defined bits written 1 are cleared. -/
theorem bit_plainWrite_w1c (hr : r.access = .w1c) (hact : r.act = 0) {i : Nat} (hi : i < 32) :
    bit ((plainWrite r a v s).reg a) i = (bit (s.reg a) i && !(bit r.mask i && bit v i)) := by
  simp [plainWrite, hr, mask_of_act_zero hact, bit_not _ hi, Bool.and_comm]

/-- R13, RO: a write has no effect. -/
theorem plainWrite_ro (hr : r.access = .ro) : plainWrite r a v s = s := by simp [plainWrite, hr]

/-- Whatever its access code, the write of a row leaves the state or sets the register of its address. -/
theorem plainWrite_cases (r : Reg.Row) : plainWrite r a v s = s ∨ ∃ u, plainWrite r a v s = s.setReg a u := by
  unfold plainWrite
  cases r.access with
  | rw => exact .inr ⟨_, rfl⟩
  | w1c => exact .inr ⟨_, rfl⟩
  | w1s => exact .inr ⟨_, rfl⟩
  | wo =>
    dsimp only
    split
    · exact .inr ⟨_, rfl⟩
    · exact .inl rfl
  | ro => exact .inl rfl
  | rc => exact .inl rfl

theorem reg_plainWrite_ne (r : Reg.Row) {b : Nat} (hb : b ≠ a) : (plainWrite r a v s).reg b = s.reg b := by
  obtain h | ⟨u, h⟩ := plainWrite_cases a v s r
  · rw [h]
  · rw [h, State.reg_setReg_ne _ _ _ _ hb]

/-- A write by the access code touches nothing but the register file. -/
theorem plainWrite_eq_regs (r : Reg.Row) : plainWrite r a v s = { s with regs := (plainWrite r a v s).regs } := by
  obtain h | ⟨u, h⟩ := plainWrite_cases a v s r <;> rw [h]
  rfl

end PlainWrite

/-- In the window of XFM only XFM_CTRL and XFM_FB_THR have an effect beyond their access code (R244). -/
theorem regWrite_xfm (r : Reg.Row) {a : Nat} (v : Word) (s : State) (hx : a / 0x1000000 = 0x25)
    (h4 : a % 0x1000000 ≠ 4) (h14 : a % 0x1000000 ≠ 0x14) : regWrite r a v s = plainWrite r a v s := by
  simp [regWrite, xfmWrite, hx, h4, h14]

/-! ## The machine at reset -/

/-- A memory that nothing has written reads 0 (log entry 1). -/
theorem bytes_of_mem_nil {s : State} (h : s.mem = []) (a n : Nat) : s.bytes a n = List.replicate n 0 := by
  simp only [State.bytes, h]
  induction n generalizing a with
  | zero => rfl
  | succ n ih =>
    rw [Sparse.getList, ih]
    rfl

/-! ## The statements -/

/-- Settles O13: in the window of XFM the write is the row's plain write, read off bit by bit. -/
theorem registerAccessCodes : Obligations.RegisterAccessCodes := by
  intro s k a v r hl ha hx h4 h14 hr hwho hact
  have hwin : inWindows a.toNat = true := by
    simp only [inWindows, Bool.and_eq_true, decide_eq_true_eq]
    omega
  have hany : answersTo r a.toNat = .any := by
    have : ¬ 0x28700400 ≤ a.toNat := by omega
    simp [answersTo, this, hwho]
  refine ⟨plainWrite r a.toNat (w32 (v.toNat % 2 ^ 32)) (respond 0 false s), ?_, ?_, ?_, ?_, ?_, ?_⟩
  · rw [exec_registerWrite_window (.core k) _ _ hl nofun hwin]
    exact congrArg _ ((windowAccess_write_of_any s ha hr _ hany).trans (regWrite_xfm r _ _ hx h4 h14))
  · intro hrw i hi
    rw [bit_plainWrite_rw _ _ _ hrw hact hi, bit_w32_mod v hi, reg_respond]
  · intro hw1c i hi
    rw [bit_plainWrite_w1c _ _ _ hw1c hact hi, bit_w32_mod v hi, reg_respond]
  · intro hro
    rw [plainWrite_ro _ _ _ hro, reg_respond]
  · intro b hb
    rw [reg_plainWrite_ne _ _ _ _ hb, reg_respond]
  · exact plainWrite_eq_regs _ _ _ _

/-- Settles O4: the register file and memory of the reset state list nothing, so each read is its default. -/
theorem resetValues : Obligations.ResetValues := by
  have hregs : ∀ a, State.reset.reg a = Reg.resetOf a := fun _ => rfl
  refine ⟨hregs, ?_, bytes_of_mem_nil rfl, ?_, rfl, rfl, rfl, rfl⟩
  · simp only [hregs]
    decide +kernel
  · decide

/-- Settles O9: the map's rows by evaluation, and the four kinds of initiator by the one rule of a window access. -/
theorem alignedRegisterAccess : Obligations.AlignedRegisterAccess := by
  refine ⟨by decide +kernel, ?_⟩
  intro s k f a z v hl hlo hhi hna
  have hwin : inWindows a.toNat = true := by simp [inWindows, hlo, hhi]
  have hn : 2 ^ z.val ≠ 4 ∨ a.toNat % 4 ≠ 0 := hna.imp_left (access_size_ne z)
  have refused (ini : Initiator) (hi : ini ≠ .debugPort) :
      exec (.registerWrite ini a z v) s = .next { s with resp := ⟨0, true⟩ } := by
    rw [exec_registerWrite_window ini z v hl hi hwin, windowAccess_of_not_aligned ini s _ hn]
    rfl
  exact ⟨refused _ nofun, refused _ nofun, refused _ nofun, refused _ nofun⟩

/-- Settles O12: one rule of a window access for each of the clauses. -/
theorem registerWindowAccess : Obligations.RegisterWindowAccess := by
  intro s hl k a hwin
  have word (ini : Initiator) (hi : ini ≠ .debugPort) (v : Option (BitVec 64)) :
      exec (.registerWrite ini a 2 v) s = .next (windowAccess ini a.toNat 4 (v.map fun x => x.toNat % 2 ^ 32) s) :=
    exec_registerWrite_window ini 2 v hl hi hwin
  refine ⟨?_, ?_, ?_, ?_⟩
  · intro z v hna
    have hn : 2 ^ z.val ≠ 4 ∨ a.toNat % 4 ≠ 0 := hna.imp_left (access_size_ne z)
    rw [exec_registerWrite_window (.core k) z v hl nofun hwin, windowAccess_of_not_aligned _ _ _ hn]
  · intro v ha hr
    rw [word (.core k) nofun, windowAccess_of_rowAt_none _ _ _ ha hr]
    simp [isCrucible]
  · intro v r ha hr
    refine ⟨fun hw => ?_, fun hw => ⟨?_, ?_⟩⟩
    · rw [word (.core k) nofun, windowAccess_of_crucible s ha hr _ hw rfl]
    · rw [word (.core k) nofun, windowAccess_of_romRoutine (ini := .core k) s ha hr _ hw nofun]
    · rw [word .crucible nofun, windowAccess_of_romRoutine (ini := .crucible) s ha hr _ hw nofun]
  · intro v r ha hr hw
    exact ⟨(word (.core k) nofun _).trans (congrArg _ (windowAccess_write_of_any s ha hr _ hw)),
      (word (.core k) nofun _).trans (congrArg _ (windowAccess_read_of_any s ha hr hw))⟩

end Sys2Proof.Machine
end

section
/-!
PROOFS. The statements of spec/01_architecture.md: the canonical form of the memories, the frame of the events, a core's
accesses to memory, and the commands of the boot, the mailbox, the requests, the resets and inputs, and NET's ports.
-/

namespace Sys2Proof.Sparse

/-! ## The canonical form, and stored bytes read back -/

/-- A key lies on a list of rising keys with at most one value. -/
theorem lookup_eq_some_iff_mem {α : Type} {m : Sparse α} (hm : m.Pairwise fun a b => a.1 < b.1) (k : Nat) (v : α) :
    m.lookup k = some v ↔ (k, v) ∈ m := by
  induction m with
  | nil => simp
  | cons e t ih =>
    obtain ⟨a, w⟩ := e
    obtain ⟨ha, ht⟩ := List.pairwise_cons.1 hm
    by_cases hk : k = a
    · subst hk
      have : (k, v) ∉ t := fun h => absurd (ha _ h) (lt_irrefl _)
      simp [this, eq_comm]
    · have : (k == a) = false := by simpa using hk
      simp [List.lookup_cons, this, ih ht, hk]

variable {α : Type} [DecidableEq α] (d : Nat → α)

/-- The entries of a canonical map are the keys that read other than their default. -/
theorem mem_iff_get {m : Sparse α} (h : wf d m = true) (k : Nat) (v : α) :
    (k, v) ∈ m ↔ get d m k = v ∧ v ≠ d k := by
  obtain ⟨hs, hd⟩ := (wf_iff d m).1 h
  rw [← lookup_eq_some_iff_mem hs, get]
  cases hl : m.lookup k with
  | none => exact ⟨nofun, fun ⟨h, h'⟩ => absurd h.symm h'⟩
  | some w =>
    have : w ≠ d k := hd _ ((lookup_eq_some_iff_mem hs k w).1 hl)
    constructor
    · rintro ⟨⟩
      exact ⟨rfl, this⟩
    · rintro ⟨rfl, _⟩
      rfl

/-- Canonical maps that read alike are the same list. -/
theorem eq_of_get_eq {m k : Sparse α} (hm : wf d m = true) (hk : wf d k = true) (h : ∀ a, get d m a = get d k a) :
    m = k := by
  have sorted {l : Sparse α} (hl : wf d l = true) : l.Pairwise fun a b => a.1 < b.1 := ((wf_iff d l).1 hl).1
  have nodup {l : Sparse α} (hl : wf d l = true) : l.Nodup :=
    (sorted hl).imp fun hlt heq => absurd (heq ▸ hlt) (lt_irrefl _)
  have hp : m.Perm k := (List.perm_ext_iff_of_nodup (nodup hm) (nodup hk)).2 fun ⟨a, v⟩ => by
    rw [mem_iff_get d hm, mem_iff_get d hk, h]
  exact hp.eq_of_pairwise (fun a b _ _ hab hba => absurd hba (lt_asymm hab)) (sorted hm) (sorted hk)

/-- A list stored at consecutive keys reads back. -/
theorem getList_setList (m : Sparse α) (a : Nat) (vs : List α) : getList d (setList d m a vs) a vs.length = vs := by
  induction vs generalizing m a with
  | nil => rfl
  | cons v vs ih =>
    rw [setList, List.length_cons, getList, ih, get_setList_of_lt _ _ _ _ _ (.inl (Nat.lt_succ_self a)), get_set_self]

end Sys2Proof.Sparse

namespace Sys2Proof.Machine

open Sys2Proof

/-! ## Stores -/

/-- A store of bytes reads back. -/
theorem bytes_setBytes (s : State) (a : Nat) (bs : List Byte) : (s.setBytes a bs).bytes a bs.length = bs :=
  Sparse.getList_setList memDefault s.mem a bs

/-- A store leaves every byte outside it as it was. -/
theorem bytes_setBytes_of_lt (s : State) (a : Nat) (bs : List Byte) {x : Nat} (h : x < a ∨ a + bs.length ≤ x) :
    (s.setBytes a bs).bytes x 1 = s.bytes x 1 := congrArg (fun b => [b]) (State.byte_setBytes_of_lt s a x bs h)

/-- Settles O6: canonical maps list exactly the keys that read other than their default, in rising order. -/
theorem canonicalMemory : Obligations.CanonicalMemory := by
  refine ⟨fun _ _ => Sparse.eq_of_get_eq memDefault, ?_, State.setReg_wf, State.resetRegs_wf, rfl, rfl, rfl⟩
  intro s a bs h
  exact ⟨State.setBytes_wf s a bs h, bytes_setBytes s a bs, fun x => bytes_setBytes_of_lt s a bs⟩

/-! ## Events and tail drop -/

/-- What relates a state to itself and to what a command makes of it relates it to the next state, held or not. -/
theorem whenLive_rel {R : State → State → Prop} {s t : State} {f : State → State} (hr : R s s) (hf : R s (f s))
    (h : s.whenLive f = .next t) : R s t := by
  obtain rfl := Host.Outcome.next.inj h
  split
  · exact hf
  · exact hr

/-- MEM_WINDOW is the source of no eft (R198). -/
theorem eftSource_ne_memWindow (e : Nat) : eftSource e ≠ 36 := by
  unfold eftSource
  split
  · omega
  · split <;> omega

/-- A rise of a bit of EFT_ATTN keeps the data. -/
theorem KeepsData.eftAttn (e b : Nat) (s : State) : KeepsData s (eftAttn e b s) :=
  .ite (.refl s) (.raiseWith _ _ _ s (eftSource_ne_memWindow e))

/-- Settles O8: each command is one of the operations that keep the data, some with the park of both engines behind it. -/
theorem eventFrame : Obligations.EventFrame := by
  intro n b p k cond g f h s t
  simp only [exec, execEventRaise, execSoftPost, execHandleTimeout, execErrorSlotClear, execErrorRaise, execTailDrop,
    execTokenRefill]
  have keeps := @whenLive_rel KeepsData s t
  have keepsOrParks := @whenLive_rel KeepsOrParks s t
  have same : KeepsOrParks s s := (KeepsData.refl s).orParks
  refine ⟨fun hn => keepsOrParks same ?_, keeps (.refl s) ?_, keepsOrParks same ?_, keeps (.refl s) ?_,
    keepsOrParks same ?_, keepsOrParks same ?_, keeps (.refl s) ?_⟩
  · split
    · split
      · exact (KeepsData.eftAttn _ b s).orParks
      · exact same
    · split
      · exact (KeepsData.raiseWith n.val 0 p s hn).parks
      · exact same
  · exact (KeepsData.setStatus _ _ s).trans (.raiseAs ..)
  · split
    · exact (KeepsData.tailDrop _ _ s).parks
    · exact same
  · exact .ite ((KeepsData.setReg s _ _).trans (.setRf _ _ _ _ _)) (.refl s)
  · split
    next => exact same
    next hf => exact (KeepsData.functionError _ _ s (by omega)).parks
  · exact (KeepsData.tailDrop _ _ s).parks
  · exact .ite (.refl s) (.of_fields s _ _ _ _ _ _ _ _ _ _)

/-! ## A core's accesses to memory -/

@[simp] theorem leBytes_length (n v : Nat) : (leBytes n v).length = n := by
  induction n generalizing v with
  | zero => rfl
  | succ n ih => rw [leBytes, List.length_cons, ih]

/-- A read where no stored word is in error delivers the stored bytes. -/
theorem eccRead_clean {s : State} (h : s.mu.errs = []) (src a n : Nat) : eccRead src a n s = (.ok (s.bytes a n), s) := by
  simp [eccRead, errsIn_clean h]

/-- A store where no stored word is in error stores its bytes and does nothing else. -/
theorem eccWrite_clean {s : State} (h : s.mu.errs = []) (src a : Nat) (bs : List Byte) :
    eccWrite src a bs s = (.ok [], s.setBytes a bs) := by
  have hmu (p : Nat → Bool) : { s.mu with errs := Sparse.clear s.mu.errs p } = s.mu := by
    rw [show Sparse.clear s.mu.errs p = s.mu.errs by simp [Sparse.clear, h]]
  simp only [eccWrite, errsIn_clean h, List.filter_nil, List.foldl_nil, List.isEmpty_nil, if_true, State.setBytes_mu, hmu]
  rfl

theorem codedAccess_load_clean {s : State} (h : s.mu.errs = []) (src a n : Nat) :
    codedAccess src a n none s = respond (leNat (s.bytes a n)) false s := by
  simp [codedAccess, eccRead_clean h]

theorem codedAccess_store_clean {s : State} (h : s.mu.errs = []) (src a n v : Nat) :
    codedAccess src a n (some v) s = respond 0 false (s.setBytes a (leBytes n v)) := by
  simp [codedAccess, eccWrite_clean h]

theorem exec_registerWrite_core {s : State} (hl : s.live = true) (k : Fin 6) (a : BitVec 40) (z : Fin 4)
    (v : Option (BitVec 64)) :
    exec (.registerWrite (.core k) a z v) s =
      .next (coreAccess (.core k) a.toNat (2 ^ z.val) (v.map fun x => x.toNat % 2 ^ (8 * 2 ^ z.val)) s) := by
  simp only [exec, execRegisterWrite, State.whenLive_live _ _ hl, standsFor]

section CoreAccess

variable (ini : Initiator) {s : State} {a n : Nat}

/-- Outside the register windows and the XIP window an access is one of memory, and reaches the same memory as a mailbox
argument may name: service SRAM, and DRAM that a window of the image grants (R25, R27, R519). -/
theorem coreAccess_memory (v : Option Nat) (hw : inWindows a = false) (hx : xipOffset a n = none) :
    coreAccess ini a n v s = if cruMay s a n then codedAccess 1 a n v s else respond 0 true s := by
  simp only [coreAccess, hw, hx, Bool.false_eq_true, if_false]
  rfl

theorem bounds_of_cruMay (h : cruMay s a n = true) :
    (0x10000000 ≤ a ∧ a + n ≤ 0x11000000) ∨ 0x800000000 ≤ a := by
  simp only [cruMay, inSram, State.inDram, Bool.or_eq_true, Bool.and_eq_true, decide_eq_true_eq] at h
  exact h.imp id fun h => h.1.1

/-- Memory lies apart from the register windows and from the XIP window (R25). -/
theorem not_inWindows_of_cruMay (h : cruMay s a n = true) : inWindows a = false := by
  have := bounds_of_cruMay h
  simp only [inWindows, Bool.and_eq_false_iff, decide_eq_false_iff_not]
  omega

theorem xipOffset_of_cruMay (h : cruMay s a n = true) : xipOffset a n = none := by
  have := bounds_of_cruMay h
  refine if_neg ?_
  simp only [Bool.and_eq_true, decide_eq_true_eq]
  omega

theorem coreAccess_of_cruMay (v : Option Nat) (h : cruMay s a n = true) :
    coreAccess ini a n v s = codedAccess 1 a n v s := by
  rw [coreAccess_memory ini v (not_inWindows_of_cruMay h) (xipOffset_of_cruMay h), if_pos h]

theorem not_inWindows_of_xipOffset {o : Nat} (h : xipOffset a n = some o) : inWindows a = false := by
  obtain ⟨hx, _⟩ := Option.ite_none_right_eq_some.1 h
  simp only [Bool.and_eq_true, decide_eq_true_eq] at hx
  simp only [inWindows, Bool.and_eq_false_iff, decide_eq_false_iff_not]
  omega

theorem coreAccess_xip_load {o : Nat} (h : xipOffset a n = some o) (hh : xipHidden s (o / 32) = false) :
    coreAccess ini a n none s = respond (leNat (s.flash o n)) false s := by
  simp [coreAccess, not_inWindows_of_xipOffset h, h, hh]

theorem coreAccess_xip_store {o : Nat} (v : Nat) (h : xipOffset a n = some o) :
    coreAccess ini a n (some v) s = respond 0 true s := by
  simp [coreAccess, not_inWindows_of_xipOffset h, h]

end CoreAccess

/-- Settles O14: where no stored word is in error the code passes an access on, and memory lies apart from both windows. -/
theorem coreMemoryAccess : Obligations.CoreMemoryAccess := by
  intro s k a z hl he n reaches
  have access (v : Option (BitVec 64)) :
      exec (.registerWrite (.core k) a z v) s =
        .next (coreAccess (.core k) a.toNat n (v.map fun x => x.toNat % 2 ^ (8 * n)) s) :=
    exec_registerWrite_core hl k a z v
  refine ⟨fun hr => ?_, fun v hr => ?_, fun v hr hw hx => ?_, fun o hx hh => ?_, fun o v hx => ?_⟩
  · rw [access, coreAccess_of_cruMay _ _ hr]
    exact congrArg _ (codedAccess_load_clean he _ _ _)
  · refine ⟨respond 0 false (s.setBytes a.toNat (leBytes n (v.toNat % 2 ^ (8 * n)))), ?_, ?_, ?_, rfl⟩
    · rw [access, coreAccess_of_cruMay _ _ hr]
      exact congrArg _ (codedAccess_store_clean he _ _ _ _)
    · have := bytes_setBytes s a.toNat (leBytes n (v.toNat % 2 ^ (8 * n)))
      rwa [leBytes_length] at this
    · intro x hx
      exact bytes_setBytes_of_lt s a.toNat _ (by rwa [leBytes_length])
  · rw [access, coreAccess_memory _ _ hw hx]
    exact congrArg _ (if_neg (Bool.not_eq_true _ ▸ hr))
  · rw [access]
    exact congrArg _ (coreAccess_xip_load _ hx hh)
  · rw [access]
    exact congrArg _ (coreAccess_xip_store _ _ hx)

/-! ## Boot, debug port and sprue link -/

/-- The debug port's request for MOULD is taken in BLANK alone (R497). -/
theorem exec_debugLcMould_of_not_blank {s : State} (h : s.cru.boot ≠ .blank) : exec .debugLcMould s = .next s := by
  change execDebugLcMould s = _
  unfold execDebugLcMould
  split
  · exact absurd ‹_› h
  · rfl

theorem exec_debugLcMould_of_blank {s : State} (h : s.cru.boot = .blank) :
    exec .debugLcMould s = .next (if entropyFailed s then s
      else beginReset .cold 3 (burnLc 0xFF (burnVault 1
        (modFuses (fun u => { u with seed := orBytes u.seed (drbg 32 s).1 }) (drbg 32 s).2)))) := by
  simp only [exec, execDebugLcMould, h]

theorem exec_debugIrUpdate (r : TapIr) (s : State) :
    exec (.debugIrUpdate r) s = .next { s with pwr := { s.pwr with tap := if tapMay s r then r else .bypass } } := rfl

theorem exec_sprueRetrainTimeout (s : State) :
    exec .sprueRetrainTimeout s = .next (if !s.pwr.sprueUp && !s.pwr.sprueFailed then
      parkDropped (hwError 6 1 [] { s with pwr := { s.pwr with sprueFailed := true } }) else s) := rfl

theorem exec_sprueLinkRetrained (s : State) :
    exec .sprueLinkRetrained s =
      .next (if s.pwr.sprueFailed then s else { s with pwr := { s.pwr with sprueUp := true } }) := rfl

/-- Settles O44: what each command does is a choice that the conditions of its clause decide. -/
theorem bootDebugAndLinkCommands : Obligations.BootDebugAndLinkCommands := by
  intro s
  refine ⟨fun _ _ _ _ _ => rfl, ?_, ?_, fun hb => exec_debugLcMould_of_not_blank hb, ?_, ?_, rfl, ?_, ?_, ?_, ?_⟩
  · rintro _ hb he rfl
    rw [exec_debugLcMould_of_blank hb, he, if_neg Bool.false_ne_true]
  · intro hb he
    rw [exec_debugLcMould_of_blank hb, he, if_pos rfl]
  · intro r hr
    rw [exec_debugIrUpdate, hr, if_pos rfl]
  · intro r hr
    rw [exec_debugIrUpdate, hr, if_neg Bool.false_ne_true]
  · intro hu hf
    rw [exec_sprueRetrainTimeout, if_pos (by simp [hu, hf])]
  · intro h
    rw [exec_sprueRetrainTimeout, if_neg]
    obtain h | h := h <;> simp [h]
  · intro hf
    rw [exec_sprueLinkRetrained, hf, if_neg Bool.false_ne_true]
  · intro hf
    rw [exec_sprueLinkRetrained, hf, if_pos rfl]

/-! ## The mailbox's FIFOs -/

theorem modCru_eq_self {s : State} {f : Cru → Cru} (h : f s.cru = s.cru) : modCru f s = s := by rw [modCru, h]

section Mailbox

variable {s : State} (hl : s.live = true)
include hl

/-- The request FIFO holds sixteen; MBX_REQ is raised for the first of them (R519, R521). -/
theorem exec_mailboxSend : exec .mailboxSend s = .next
    (if 16 ≤ s.cru.rx.length then s
    else if s.cru.rx.isEmpty then
      cruEvent 1 { s with cru := { s.cru with rx := s.cru.rx ++ [regBytes Reg.SVC_CMBX_TX s] } }
    else { s with cru := { s.cru with rx := s.cru.rx ++ [regBytes Reg.SVC_CMBX_TX s] } }) := by
  simp only [exec, execMailboxSend, State.whenLive_live _ _ hl, modCru]

/-- The reply FIFO holds sixteen. -/
theorem exec_mailboxReply : exec .mailboxReply s = .next
    (if 16 ≤ s.cru.tx.length then s
    else { s with cru := { s.cru with tx := s.cru.tx ++ [regBytes Reg.CRU_MBX_TX s] } }) := by
  simp only [exec, execMailboxReply, State.whenLive_live _ _ hl, modCru]

theorem exec_cruMbxPop : exec .cruMbxPop s = .next (modCru (fun c => { c with rx := c.rx.drop 1 }) s) :=
  State.whenLive_live s _ hl

theorem exec_svcCmbxPop : exec .svcCmbxPop s = .next (modCru (fun c => { c with tx := c.tx.drop 1 }) s) :=
  State.whenLive_live s _ hl

end Mailbox

/-- Settles O45: a FIFO is full, empty or neither, and a pop of an empty one drops nothing. -/
theorem mailboxFifoCommands : Obligations.MailboxFifoCommands := by
  intro s hl
  rw [exec_mailboxSend hl, exec_mailboxReply hl, exec_cruMbxPop hl, exec_svcCmbxPop hl]
  refine ⟨fun h => ?_, fun h hn => ?_, fun h => ?_, fun h => ?_, fun h => ?_, fun _ _ h => ?_, fun h => ?_,
    fun _ _ h => ?_, fun h => ?_⟩
  · simp [h]
  · simp [h, Nat.not_le.2 hn]
  · rw [if_pos h]
  · rw [if_neg (Nat.not_le.2 h)]
  · rw [if_pos h]
  · simp [modCru, h]
  · exact congrArg _ (modCru_eq_self (by rw [h, List.drop_nil, ← h]))
  · simp [modCru, h]
  · exact congrArg _ (modCru_eq_self (by rw [h, List.drop_nil, ← h]))

/-! ## Requests on keys, windows and the life cycle -/

/-- While the firmware runs with the service image released, a request is served and answered. -/
theorem serve_released {s : State} (hf : cruFree s = true) (hb : s.cru.boot = .released) (op : Nat) (seq : BitVec 8)
    (k : State → Rq) : serve op seq k s = cruReply op seq (k s).st (k s).extra (k s).s := by
  simp [serve, hf, hb]

/-- An authorisation in memory that a mailbox argument may name is read (R519). -/
theorem withAuth_of_may {s : State} {a : Nat} (h : cruMay s a 5376 = true) (k : List Byte → State → Rq) :
    withAuth a k s = k (s.bytes a 5376) s := if_pos h

/-- Flash work that ends a request is answered OK, or FLASH with the ROM status (R519, R520). -/
theorem cruReply_rq (op : Nat) (seq : BitVec 8) (x : Fl) :
    cruReply op seq x.rq.st x.rq.extra x.rq.s =
      if x.st = 0 then cruReply op seq 0 [] x.s else cruReply op seq 8 [BitVec.ofNat 8 x.st] x.s := by
  unfold Fl.rq
  split <;> rfl

/-- A band's key is created in MOULD and TEMPERED, while entropy and key-encryption keys last (R501). -/
theorem reqBandCreate_of_may {s : State} {band : Nat} (fl : Option Nat) (hband : band < 64)
    (hlc : s.lcState = 1 ∨ s.lcState = 2) (he : entropyFailed s = false) (hk : s.cru.fuses.kek ≠ 4095) :
    reqBandCreate band fl s = (createBand band fl s).rq := by
  rw [reqBandCreate, if_neg (Nat.not_le.2 hband), if_neg (by simp; omega), if_neg (by simp [he, hk])]

/-- A window set is programmed whose ends are whole pages of DRAM below the aperture (R493). -/
theorem reqWindow_of_valid {s : State} {set index base limit : Nat} (en : Bool)
    (hset : (set ≤ 8 ∧ set ≠ 7 ∧ index < 16) ∨ (set = 15 ∧ index < 64)) (hb : base % 4096 = 0)
    (hl : limit % 4096 = 0) (hle : base ≤ limit) (hd : dramBase ≤ base)
    (hcap : limit + 4096 ≤ dramBase + s.dramBytes) (hap : limit + 4096 ≤ apertureBase s) :
    reqWindow set index base limit en s = .no 0 (setWindow set index base limit en s) := by
  rw [reqWindow, if_neg, if_neg]
  · have : set ≠ 7 := by omega
    simp [this, hb, hl, hle, hd, hcap, hap]
  · obtain ⟨h8, -, hi⟩ | ⟨rfl, hi⟩ := hset
    · have : set ≠ 15 := by omega
      simp [h8, this, hi]
    · simp [hi]

/-- Settles O47: each request is served, its own conditions hold, and its end is composed into the reply. -/
theorem securityRequests : Obligations.SecurityRequests := by
  intro s hl hf hb seq
  refine ⟨?_, ?_, ?_, ?_, ?_, ?_, ?_, ?_⟩
  · intro band fl hband hlc he hk
    simp only [exec, execBandCreate, State.whenLive_live _ _ hl, serve_released hf hb,
      reqBandCreate_of_may fl hband hlc he hk, cruReply_rq]
  · intro action band a fl hm
    simp only [exec, execCruSanitize, State.whenLive_live _ _ hl, serve_released hf hb, withAuth_of_may hm]
    split
    next h => simp only [h]
    next => rfl
  · intro a hm h1 h3
    simp only [exec, execAuthCheck, State.whenLive_live _ _ hl, serve_released hf hb, withAuth_of_may hm, if_true,
      reqAuthClear]
    exact ⟨fun ha => by simp [ha, h1, h3, Rq.no], fun ha => by simp [ha, Rq.no]⟩
  · intro nonce dst hn hd
    simp only [exec, execCruAttest, State.whenLive_live _ _ hl, serve_released hf hb, hn, hd, Bool.and_self, if_true, Rq.no]
  · intro set index base limit en hset hb4 hl4 hle hdram hcap hap
    simp only [exec, execWindowSet, State.whenLive_live _ _ hl, serve_released hf hb,
      reqWindow_of_valid en hset hb4 hl4 hle hdram hcap hap, Rq.no]
  · intro f h
    simp only [exec, execFuncReset, State.whenLive_live _ _ hl, serve_released hf hb, reqFuncReset,
      if_neg (Nat.not_lt.2 h), Rq.no]
  · intro f h
    simp only [exec, execFuncReset, State.whenLive_live _ _ hl, serve_released hf hb, reqFuncReset, if_pos h, Rq.no]
  · intro a fl hw hm
    simp only [exec, execCruLcSet, State.whenLive_live _ _ hl, withAuth_of_may hm, hf, hb, hw, Bool.not_false,
      Bool.and_self, if_true]

/-! ## Resets and filtered inputs -/

/-- RESET_N low begins a warm reset, but not during hold-up (R557, R561). -/
theorem exec_resetPinAssert (s : State) : exec .resetPinAssert s = .next
    (if s.pwr.holdup then { s with pwr := { s.pwr with resetPinLow := true } }
    else beginReset .warm 6 { s with pwr := { s.pwr with resetPinLow := true } }) := rfl

theorem exec_resetPinLong (s : State) : exec .resetPinLong s = .next
    (if s.pwr.resetPinLow && !s.pwr.holdup then beginReset .cold 5 s else s) := rfl

theorem exec_presenceRemoval (s : State) :
    exec .presenceRemoval s = .next (if s.pwr.sif3.out then s else sifLevel 3 true s) := rfl

theorem exec_wakeAssert (s : State) : exec .wakeAssert s = .next (if s.pwr.sif5.out then s else sifLevel 5 true s) := rfl

/-- PWR_RESET begins its reset outside hold-up (R557, R561). -/
theorem pwrReset_of_not_holdup {s : State} (h : s.pwr.holdup = false) (k : ResetKind) :
    pwrReset k s = beginReset k 7 s := by
  rw [pwrReset, h, if_neg Bool.false_ne_true]

/-- An input that is no Hall input is stuck where it holds its active level too long (R567). -/
theorem exec_sifStuck {s : State} {n : Fin 8} (hn : 3 ≤ n.val) :
    exec (.sifStuck n) s = .next
      (if fld (sif s n).cfgB 31 16 ≠ 0 && (sif s n).out = sifActive n && !sifFaulty s n then sifFail n (8 + n.val) s
      else s) := by
  simp only [exec, execSifStuck, if_neg (Nat.not_lt.2 hn)]

/-- Settles O51: what each command does is a choice that the conditions of its clause decide. -/
theorem resetAndInputCommands : Obligations.ResetAndInputCommands := by
  intro s
  refine ⟨?_, ?_, ?_, ?_, ?_, ?_, fun _ _ => rfl, fun _ _ => rfl, fun _ => rfl, ?_, rfl, ?_, ?_, rfl, rfl⟩
  · intro h
    rw [exec_resetPinAssert, h, if_neg Bool.false_ne_true]
  · intro h
    rw [exec_resetPinAssert, h, if_pos rfl]
  · intro hp h
    rw [exec_resetPinLong, if_pos (by simp [hp, h])]
  · intro hu hq
    simp [exec, execResetPinRelease, isUp, modPwr, hu, hq]
  · intro hl h
    simp only [exec, execPwrResetWarm, execPwrResetDevice, execPwrResetCold, State.whenLive_live _ _ hl,
      pwrReset_of_not_holdup h, and_self]
  · intro h
    rw [exec_presenceRemoval, h, if_neg Bool.false_ne_true]
  · intro n hn hs ho hf
    rw [exec_sifStuck hn, if_pos (by simp [hs, ho, hf])]
  · intro h
    rw [exec_wakeAssert, h, if_neg Bool.false_ne_true]
  · intro hu hr
    simp [exec, execVaonRetentionLoss, modPwr, hu, Option.isSome_iff_ne_none.2 hr]

/-! ## Ports of NET -/

/-- NET that is not fenced takes a command with nothing sent yet (R532). -/
theorem whenNet_live {s : State} (hn : netLive s = true) (k : State → State) : whenNet k s = k (netFresh s) := if_pos hn

/-- Settles O52: NET is not fenced, so each command runs on the state with nothing sent yet. -/
theorem netPortCommands : Obligations.NetPortCommands := by
  rintro s _ hl hn rfl
  simp only [exec, execSvcFenceTimeout, execPortModeSet, execPortEnable, execNetHoldSet, execNetHoldClear, execLinkUp,
    execLinkDown, execRxFrame, execFecBurstRearm, execPfcXon, execContextFetchDone, execPfcPauseReceived, execPfcStorm,
    execCnpReceived, execRateIncrease, State.whenLive_live _ _ hl, whenNet_live hn]
  -- The writes of NET_CTRL and NET_Px_CFG and the burst's re-arm have no condition and are done.
  refine ⟨fun h => ?_, fun _ => trivial, fun _ _ => trivial, fun _ => trivial, trivial, trivial, ?_, ?_, ?_,
    fun _ => trivial, ?_, ?_, ?_, ?_, ?_, ?_⟩
  · rw [h, if_pos rfl]
  · intro p ht ho hg
    rw [if_pos (by simp [ht, ho, hg])]
  · intro p h
    rw [h, if_pos rfl]
  · intro p o h
    rw [h, if_pos rfl]
  · rintro p occ _ rfl hx ho
    simp [hx, ho]
  · intro q he hq hr hm
    rw [if_pos (by simp [hq, hr]), readOr_clean he hm]
    rfl
  · rintro p on off _ rfl hp
    rw [hp, Bool.false_and, if_neg Bool.false_ne_true]
  · intro p h
    rw [if_pos h]
  · intro q hu hd
    simp [hu, hd]
  · intro q from_ hf hm ht
    simp only [hf, hm]
    simp [ht]

end Sys2Proof.Machine
end

section
/-!
PROOFS. The statements of spec/02_network_port.md: NET's rings and messages, its queue pairs and work requests, and the
messages of the sideband.
-/

namespace Sys2Proof.Machine

/-! ## Messages for a queue pair -/

/-- A packet for a queue pair that answers, on a port with link, is taken; a CE mark is answered first (R44). -/
theorem whenPkt_up {s : State} {q : Nat} (hn : netLive s = true) (hu : qpUp (qp (netFresh s) q) = true)
    (hp : (port (netFresh s) (qp (netFresh s) q).port).up = true) (ce : Bool) (k : State → State) :
    whenPkt q ce k s = k (if ce then cnpSend q (netFresh s) else netFresh s) := by
  rw [whenPkt, whenQp, whenNet_live hn, hu, hp, Bool.and_self, if_pos rfl]

/-- The request with the PSN that the responder expects is taken (R57). -/
theorem inOrder_expected {s : State} {q first : Nat} (h : first = (qp s q).rqPsn) (again k : State → State) :
    inOrder q first again k s = k s := by
  rw [inOrder, h, Nat.add_sub_cancel_left, Nat.mod_self, if_pos rfl]

/-- A request that lies ahead of the PSN expected is answered with a NAK of PSN sequence error (R57). -/
theorem inOrder_ahead {s : State} {q first : Nat} (hlt : (qp s q).rqPsn < first) (hle : first < 2 ^ 23)
    (again k : State → State) : inOrder q first again k s = netSend (.nakSeq q) s := by
  have hd : (first + 2 ^ 24 - (qp s q).rqPsn) % 2 ^ 24 = first - (qp s q).rqPsn := by omega
  simp only [inOrder, hd]
  rw [if_neg (by omega), if_pos (by omega)]

/-- The capsule of an opcode that a major defines waits for the row that places it (R60, R84). -/
theorem sendPlaced_of_opDefined {bs : List Byte} (h : opDefined 2 (capOp bs) = true) (q : Nat) (was now : State) :
    sendPlaced q bs was now = now := by
  simp [sendPlaced, h]

/-- Settles O53: each command runs on the state with nothing sent yet, and the conditions of its clause choose its branch. -/
theorem netMessageCommands : Obligations.NetMessageCommands := by
  rintro s _ hl hn rfl he
  simp only [exec, execRawConsWrite, execRawRingConfig, execMbxConsWrite, execRxSend, execRxRdmaWrite, execRxRdmaRead,
    execRxReadResponse, execRxAck, execRxNak, execAckTimeout, execRnrTimerExpiry, execQpErrFifoPop,
    State.whenLive_live _ _ hl, whenNet_live hn]
  refine ⟨?_, ?_, ?_, ?_, ?_, ?_, ?_, ?_, ?_, ?_, ?_, ?_, ?_, ?_, ?_⟩
  · intro v hc hk
    rw [if_pos (by simpa using ⟨hc, hk⟩)]
  · intro v h
    rw [h, if_neg Bool.false_ne_true]
    rfl
  · rintro m v _ hv rfl hc hk
    simp [hv, hc, hk]
  · intro q first psn bs hu hp hf ho
    rw [whenPkt_up hn hu hp, if_neg Bool.false_ne_true, inOrder_expected hf, sendPlaced_of_opDefined ho]
  · intro q first psn bs hu hp hf hlt
    rw [whenPkt_up hn hu hp, if_neg Bool.false_ne_true, inOrder_ahead hlt hf]
  · intro q a key bs first psn hu hp hf ha hm
    rw [whenPkt_up hn hu hp, if_neg Bool.false_ne_true, inOrder_expected hf, if_pos ha, writeOr_clean he hm]
  · intro q a key bs first psn hu hp hf ha
    rw [whenPkt_up hn hu hp, if_neg Bool.false_ne_true, inOrder_expected hf, ha, if_neg Bool.false_ne_true]
  · intro q a key len psn hu hp hf ha hm
    rw [whenPkt_up hn hu hp, if_neg Bool.false_ne_true, inOrder_expected hf, if_pos ha, readOr_clean he hm]
  · intro q bs w j hu hp hw hj hd hb
    rw [whenPkt_up hn hu hp, if_neg Bool.false_ne_true]
    simp only [hw, hj, hd, Nat.sub_zero, ← hb, List.take_length, Nat.zero_add, le_refl, if_true]
  · intro q psn hu hp
    constructor
    · rw [whenPkt_up hn hu hp, if_neg Bool.false_ne_true]
    · rw [whenPkt_up hn hu hp, if_pos rfl]
  · intro q hu hp h7 h0
    rw [whenPkt_up hn hu hp]
    simp [h7, h0]
  · intro q hu hp
    rw [whenPkt_up hn hu hp]
    simp
  · intro q hm hs ht hr hw hl
    rw [if_pos (by simpa [hm, hs, hr, ht] using hw), if_neg hl]
  · intro q hm hr
    rw [hm, hr, Bool.and_self, if_pos rfl]
  · intro q r l h
    simp only [h]
    rfl

/-! ## QP control and work requests -/

/-- The next QP-control entry of a ring runs (R158). -/
theorem qpCtl_next {s : State} {r op : Nat} {j : Job} (hn : netLive s = true) (h : nextWr (netFresh s) r 0 op = some j)
    (k : Job → List Byte → Nat → State → State) :
    qpCtl r op k s = k j j.entry (field j.entry 8 2 % 16384) (netFresh s) := by
  rw [qpCtl, whenNet_live hn, h]

/-- The next work request of a ring runs whose queue pair does not wait for the RNR timer (R54, R57). -/
theorem runWr_next {s : State} {r op : Nat} {j : Job} (hn : netLive s = true) (h : nextWr (netFresh s) r 1 op = some j)
    (hr : (qp (netFresh s) (field j.entry 8 2 % 16384)).rnrWait = false) (k : Job → List Byte → State → State) :
    runWr r op k s = k j j.entry (netFresh s) := by
  simp only [runWr, whenNet_live hn, h, hr, Bool.false_eq_true, if_false]

theorem withCtx_cached {s : State} {q : Nat} (h : q ∈ s.net.cache) (bad : BusRes → State → State) (k : State → State) :
    withCtx q bad k s = k (cacheTouch q s) := if_pos h

/-- A work request whose local buffer NET may read sends the bytes stored there (R57). -/
theorem runLocal_clean {s : State} {j : Job} (he : s.mu.errs = [])
    (hm : s.engineMay 0 (field j.entry 16 5) (field j.entry 24 4) = true) (out : Nat → List Byte → NetOut) :
    runLocal j out s =
      startWr false j (fun q s' => netSend (out q (s.bytes (field j.entry 16 5) (field j.entry 24 4))) s') s := by
  rw [runLocal, readOr_clean he hm]

/-- Settles O54: the job is the next of its ring, so it runs, and the conditions of its clause choose its branch. -/
theorem netJobCommands : Obligations.NetJobCommands := by
  rintro r s _ j _ hl hn rfl he rfl
  simp only [exec, execCreate, execModify, execQuery, execDestroy, execPin, execUnpin, execBindMailbox, execAdvertise,
    execWithdraw, execSend, execRdmaWrite, execRdmaRead, execTransmit, State.whenLive_live _ _ hl, whenNet_live hn]
  refine ⟨?_, ?_, ?_, ?_, ?_, ?_, ?_, ?_, ?_, ?_, ?_, ?_, ?_, ?_, ?_⟩
  · intro h hm
    rw [qpCtl_next hn h, hm, if_neg Bool.false_ne_true]
  · intro h hm
    rw [qpCtl_next hn h, if_pos hm]
  · intro h hm hv
    rw [qpCtl_next hn h, hm, hv, Bool.and_self, if_pos rfl]
  · intro h hv
    rw [qpCtl_next hn h, hv, Bool.and_false, if_neg Bool.false_ne_true]
  · intro h hm
    rw [qpCtl_next hn h, if_pos hm]
  · intro h hm
    rw [qpCtl_next hn h, if_pos hm]
  · intro h hm hp hlen hc
    rw [qpCtl_next hn h, hm, if_neg (by simp), if_neg hp, if_neg (by simp [hc, hlen]), withCtx_cached hc]
  · intro h
    rw [qpCtl_next hn h, modNet]
  · intro h hm hi
    rw [qpCtl_next hn h, if_pos (by simp [hm, hi])]
  · intro h ha
    rw [qpCtl_next hn h, if_neg (by simp [ha])]
    rfl
  · intro h
    rw [qpCtl_next hn h]
    rfl
  · intro h hr hm
    rw [runWr_next hn h hr, runLocal_clean he hm]
  · intro h hr hm
    rw [runWr_next hn h hr, runLocal_clean he hm]
  · intro h hr hlen
    rw [runWr_next hn h hr, if_neg (by simp [hlen])]
  · intro h ht hm
    simp only [h, ht, if_true]
    rw [readOr_clean he hm]

/-! ## Messages of the sideband -/

/-- Crucible serves a message of its own vendor number in a lifecycle state that allows the command, and answers it
(R518). -/
theorem sbServe_allowed {v : BitVec 32} {s : State} {lo hi : Nat} (hf : cruFree s = true) (hv : v.toNat = vendorNumber s)
    (hlo : lo ≤ s.lcState) (hhi : s.lcState ≤ hi) (cmd : Nat) (k : State → Nat × List Byte × State) :
    sbServe v cmd lo hi k s = sbReply v cmd (k s).1 (k s).2.1 (k s).2.2 := by
  rw [sbServe, if_pos hf, sideband, if_neg (not_not.2 hv), if_neg (by simp [hlo, hhi])]

/-- Crucible, while free, has left the stages before its firmware runs. -/
theorem boot_of_cruFree {s : State} (hf : cruFree s = true) : s.cru.boot ≠ .due ∧ s.cru.boot ≠ .held := by
  constructor <;> rintro h <;> simp [cruFree, h] at hf

/-- A message of a type that is not vendor-defined: `u` is the state after the assignment of an address, and a control
message to the device's address is answered (R70, R71). -/
theorem exec_mctpControlMessage {s : State} (hl : s.live = true) (hf : cruFree s = true) (m : MctpObs) {u : State}
    (hu : (if s.pwr.sbMode = 2 && m.assign.isSome then modCru (fun c => { c with i3cAddr := m.assign }) s else s) = u) :
    exec (.mctpControlMessage m) s = .next (if sbAddress u = some m.dest && m.type = 0 then
      sbSend ([0, byteAt m.bytes 1 &&& 0x1F, byteAt m.bytes 2] ++ (u.drawBytes 8).1) (u.drawBytes 8).2 else u) := by
  -- The two stages that have no firmware to answer are excluded, and `simp` takes the last branch of the match.
  obtain ⟨hdue, hheld⟩ := boot_of_cruFree hf
  simp only [exec, execMctpControlMessage, State.whenLive_live _ _ hl, hu]

/-- On I3C the address of the device is the one assigned (R70). -/
theorem sbAddress_assigned {s : State} (h : s.pwr.sbMode = 2) (a : BitVec 7) :
    sbAddress (modCru (fun c => { c with i3cAddr := some a }) s) = some a := if_pos h

/-- Settles O58: the message is served, its own conditions hold, and its end is composed into the answer. -/
theorem sidebandCommands : Obligations.SidebandCommands := by
  intro v s hl hf hv h1
  refine ⟨?_, ?_, ?_, ?_, ?_, ?_, ?_, ?_, ?_, ?_, ?_, ?_⟩
  · intro dest msg hd
    rw [exec_mctpControlMessage hl hf _ (if_neg (by simp)), if_pos (by simp [hd])]
  · intro dest type msg h
    rw [exec_mctpControlMessage hl hf _ (if_neg (by simp)), if_neg (by simpa [imp_iff_not_or] using h)]
  · intro dest a type msg hm hne
    rw [exec_mctpControlMessage hl hf _ (if_pos (by simp [hm])), sbAddress_assigned hm, if_neg (by simp [hne.symm])]
  · intro h4
    simp only [exec, execIdentityGet, State.whenLive_live _ _ hl, sbServe_allowed hf hv h1 h4]
  · intro nonce h4
    simp only [exec, execSidebandAttest, State.whenLive_live _ _ hl, sbServe_allowed hf hv h1 h4]
  · intro auth fl h3 hw
    simp only [exec, execSidebandLcSet, State.whenLive_live _ _ hl]
    rw [if_neg (by simp [hf, hw, hv]), if_neg (by simp [h3, Nat.pos_iff_ne_zero.1 h1])]
  · intro digest hlc hd hs
    simp only [exec, execKeyslotSet, State.whenLive_live _ _ hl, sbServe_allowed hf hv h1 hlc.le]
    simp [hd, hs]
  · intro auth fl h2 h3
    simp only [exec, execAuthAction, State.whenLive_live _ _ hl, sbServe_allowed hf hv h2 h3, Rq.sb]
  · intro seq n r h4 hn hn8 hr
    simp only [exec, execRecRead, State.whenLive_live _ _ hl, sbServe_allowed hf hv h1 h4]
    rw [if_neg (by simp; omega), hr]
  · intro on h4 ho
    simp only [exec, execRecFreeze, State.whenLive_live _ _ hl, sbServe_allowed hf hv h1 h4, if_neg (Nat.not_lt.2 ho)]
  · intro auth fl h3
    simp only [exec, execRecClear, State.whenLive_live _ _ hl, sbServe_allowed hf hv h1 h3]
  · intro h4
    simp only [exec, execRecStatus, State.whenLive_live _ _ hl, sbServe_allowed hf hv h1 h4]

end Sys2Proof.Machine
end

section
/-!
PROOFS. The statements of spec/03_stepata_capsules.md: a capsule that may start does its opcode's work.
-/

namespace Sys2Proof.Machine

open Sys2Proof

/-- The command `c` of an opcode is the placing of its capsule, and a capsule that may start does `f`, the opcode's work in
`startCmd` (R83, R117). The three facts about the opcode itself are read off the model. -/
theorem exec_capsule_starts {c : Instr} {op : Nat} {q : Fin 16384} {cap : List Byte} {o : CmdObs} {s : State}
    (hl : s.live = true) (f : Cmd → State → State) (h : capsuleRuns op q cap o s = true)
    (hc : exec c s = s.whenLive (capsule op q cap o) := by rfl) (hop : op < 256 := by decide)
    (hf : ∀ x t, capOp x.cap = op → startCmd x t = f x t := by intro x t hx; simp only [startCmd, hx]) :
    exec c s = .next (pumpN 6 (f (startingCmd op q cap o s) (checkedAt op q cap o s))) := by
  rw [hc, State.whenLive_live _ _ hl, starts_as hop h f hf]

/-- Settles O55: each capsule starts, with its opcode's work. -/
theorem objectCommandsStart : Obligations.ObjectCommandsStart := by
  intro q cap o s hl
  exact ⟨
    exec_capsule_starts hl startChange, -- PUT
    exec_capsule_starts hl runGet, -- GET
    exec_capsule_starts hl startChange, -- WRITE
    exec_capsule_starts hl startChange, -- DELETE
    exec_capsule_starts hl fun x t => svcAnswer x (headAns t x) t, -- HEAD
    exec_capsule_starts hl runList, -- LIST
    exec_capsule_starts hl runBarrier, -- FLUSH
    exec_capsule_starts hl runBarrier, -- DESTAGE
    exec_capsule_starts hl fun x t => svcAnswer x {} t, -- ORDER
    exec_capsule_starts hl startChange⟩ -- REPAIR_BUILD

/-- Settles O56: each capsule starts, with its opcode's work. -/
theorem adminCommandsStart : Obligations.AdminCommandsStart := by
  intro q cap o s hl
  exact ⟨
    exec_capsule_starts hl runConnect, -- CONNECT
    exec_capsule_starts hl runDisconnect, -- DISCONNECT
    exec_capsule_starts hl fun x t => svcAnswer x { r0 := 4096, host := fit 4096 (identify t) } t, -- IDENTIFY
    exec_capsule_starts hl fun x t => -- GET_FEATURE
      svcAnswer x { r0 := feature t (cdw x.cap 0 % 65536), r1 := savedFeature t (cdw x.cap 0 % 65536) } t,
    exec_capsule_starts hl runSetFeature, -- SET_FEATURE
    exec_capsule_starts hl runPowerState, -- POWER_STATE
    exec_capsule_starts hl fun x t => runStage x (pull x t), -- FW_STAGE
    exec_capsule_starts hl runActivate, -- FW_ACTIVATE
    exec_capsule_starts hl runEpoch, -- FORMAT_EPOCH_ADVANCE
    exec_capsule_starts hl fun x t => modCmd x.seq (fun y => { y with started := true }) t, -- SCRUB
    exec_capsule_starts hl fun x t => runSanitize x (pull x t), -- SANITIZE
    exec_capsule_starts hl runAttest, -- ATTEST
    exec_capsule_starts hl runSetTime, -- SET_TIME
    exec_capsule_starts hl runRecorderRead, -- RECORDER_READ
    exec_capsule_starts hl fun x t => runRecorderClear x (pull x t), -- RECORDER_CLEAR
    exec_capsule_starts hl runLogRead, -- ERROR_LOG_READ
    exec_capsule_starts hl runRestart, -- QUEUE_RESTART
    exec_capsule_starts hl runAbort⟩ -- ABORT

end Sys2Proof.Machine
end

section
/-!
PROOFS. The statements of spec/04_stepata_ordering_errors.md: the events of the service image's own work.
-/

namespace Sys2Proof.Machine

open Sys2Proof

/-- While the service image runs and NET sends for it, an event of its own work is done with nothing posted yet (R34,
R62). -/
theorem whenSvc_live {s : State} (hs : svcLive s = true) (k : State → State) : whenSvc k s = k (svcFresh s) := if_pos hs

/-- Settles O57: the service image runs, so each event is done on the state with nothing posted yet, and the conditions of
its clause choose its branch. -/
theorem serviceEvents : Obligations.ServiceEvents := by
  intro s hl
  simp only [exec, execPowerStateEntered, execPowerStateReversal, execWriteCommit, execWriteAcknowledge,
    execActivationSuspend, execActivationTimeout, execDestageStart, execStagedPageRelease, State.whenLive_live _ _ hl]
  refine ⟨?_, ?_, ?_, ?_, ?_, ?_, ?_, ?_⟩
  · intro e hs he hw hh hr
    rw [whenSvc_live hs, he]
    exact congrArg _ (if_pos (by simp [hw, hh, hr]))
  · intro e hs he hr
    rw [whenSvc_live hs, he]
    exact congrArg _ (if_pos hr)
  · intro q tag x hs hx hc ht hn hu hm
    have started : (changes (capOp x.cap) && x.started && x.committed.isNone && !x.suspended &&
        mediaThere (svcFresh s) x) = true := by simp [hc, ht, hn, hu, hm]
    simp only [whenSvc_live hs, hx, if_pos started]
    exact ⟨fun hf => by simp only [hf], fun st d hf => by simp only [hf]⟩
  · intro q tag x n gen fault hs hx hc hu
    simp only [whenSvc_live hs, hx, hc, hu, Bool.false_eq_true, if_false]
  · intro hs hp ha hf hi
    rw [whenSvc_live hs, if_pos (by simp [hp, ha, hf, hi])]
  · intro ha
    rw [if_pos (Option.isSome_iff_ne_none.2 ha)]
  · intro hs
    rw [whenSvc_live hs]
  · intro pbas p hs hp hd hm hfence hdisk
    have unfenced : ((pbas.map BitVec.toNat).all fun a =>
        !(svcFresh s).fenced (2 + (zoneEnt (svcFresh s) (a / 2 ^ 17)).act)) = true := by simpa using hfence
    simp only [whenSvc_live hs, hp, hd, hm, unfenced, hdisk, Bool.and_self, if_true]

end Sys2Proof.Machine
end

section
/-!
PROOFS. The statements of spec/05_engine_rings.md: the ring registers' commands, what they leave alone, and the ring manager's
own work.
-/

namespace Sys2Proof.Machine

open Sys2Proof

/-! ## Commands of the ring registers -/

section RingRegisters

variable {s : State} (hl : s.live = true)
include hl

/-- A doorbell of a completion ring at its acceptance test (R151). -/
theorem exec_cqDoorbell (c : Fin 4096) (v : BitVec 17) : exec (.cqDoorbell c v) s = .next
    (if cqActive s c && ringCount (cqN s c) v.toNat (cqC s c) ≤ cqCount s c then
      fbEval (refreshStalls (s.setRf (Reg.CQ_CONS c) 16 0 (v.toNat % 2 ^ (cqN s c + 1))))
    else ringEvent 1 s) := by
  simp only [exec, execCqDoorbell, State.whenLive_live _ _ hl]

theorem exec_cqDoorbell_accepted {c : Fin 4096} {v : BitVec 17} (ha : cqActive s c = true)
    (hv : ringCount (cqN s c) v.toNat (cqC s c) ≤ cqCount s c) : exec (.cqDoorbell c v) s =
      .next (fbEval (refreshStalls (s.setRf (Reg.CQ_CONS c) 16 0 (v.toNat % 2 ^ (cqN s c + 1))))) := by
  rw [exec_cqDoorbell hl, if_pos (by simp [ha, hv])]

end RingRegisters

/-- Settles O17: the conditions of each clause choose its branch. -/
theorem ringRegisterCommands : Obligations.RingRegisterCommands := by
  intro s hl
  simp only [exec, execSqEnable, execCqEnable, execSqDoorbell, execSpillWrite, execRingErrFifoPop,
    State.whenLive_live _ _ hl]
  refine ⟨?_, ?_, ?_, fun c v => exec_cqDoorbell_accepted hl, ?_, ?_⟩
  · intro q hu hm
    rw [if_neg (by simp [hu]), if_pos hm]
  · intro c ha hm
    rw [ha, if_neg Bool.false_ne_true, if_pos hm]
  · intro q v hu hc hp
    rw [if_neg hu, if_pos (by simp [sqDoorbellOk, hc, hp])]
  · intro c ha hc
    rw [if_pos (by simp [ha, hc])]
  · intro q r l h
    simp only [h]
    rfl

/-! ## The ring manager's own work -/

section EntryArrives

variable {s t : State} {q i : Nat} {bs : List Byte} (hu : atUse s q = true) (hi : i = useIndex s q)
  (hr : busRead (sqFunc s q) (sqAddr s q i) 64 s = (.ok bs, t))
include hu hi hr

/-- An entry at use with the expected PHASE is stored, and the count of refetches ends (R153). -/
theorem entryArrives_of_phase (hp : ePhase bs = phaseOf (sqN s q) i) :
    entryArrives q i s = setTries q 0 (storeFetched q i bs t) := by
  rw [entryArrives, if_pos (by simp [hu, hi]), hr]
  exact if_pos hp

/-- A stale entry at use is counted while refetches are left (R153). -/
theorem entryArrives_of_stale (hp : ePhase bs ≠ phaseOf (sqN s q) i) (ht : tries t q < 16) :
    entryArrives q i s = setTries q (tries t q + 1) t := by
  rw [entryArrives, if_pos (by simp [hu, hi]), hr]
  exact (if_neg hp).trans (if_neg (Nat.not_le.2 ht))

end EntryArrives

/-- A malformed job with every earlier job completed and a slot free completes MALFORMED, and its ring enters ERROR (R164). -/
theorem malformedJob_of_slot {s : State} {q idx reason : Nat} (entry : List Byte) (ho : oldestJob s q = none)
    (hp : freePlace s (sqFunc s q) (sqCq s q) = some .slot) (hs : ringSpilled s q = false) :
    malformedJob q idx reason entry s = ringError q idx reason
      (postJob ⟨q, sqF s q, [entry], sqCq s q, .slot, true, none, true⟩ ⟨1, idx, reason, 0, 0⟩ s) := by
  simp [malformedJob, ho, hp, hs]

/-- Settles O18: the conditions of each clause choose its branch, and what the entry fetched makes of its ring, and a malformed
job, follow by their own rules. -/
theorem ringManagerCommands : Obligations.RingManagerCommands := by
  intro q s hl hq
  simp only [exec, execEntryFetchDone, execPhaseRetry, execJobStart, execCompletionPost, State.whenLive_live _ _ hl]
  refine ⟨?_, ?_, ?_, ?_, ?_⟩
  · intro i bs t hstall hi hahead hroom htries hu hidx hr hp
    rw [if_pos (by simp [hq, hstall, hi, htries, hahead, hroom]), entryArrives_of_phase hu hidx hr hp]
    rfl
  · intro bs t h0 h16 hu hstall hr hp ht
    rw [if_pos (by simp [hq, h0, hu, hstall]), if_pos h16.le, entryArrives_of_stale hu rfl hr hp (ht ▸ h16), ht]
  · intro j o hj hd hs
    simp [hj, hd, hq, hs]
  · intro aged es long hj hm he hb hc hs
    simp [hj, hm, he, hb, hc, hs]
  · intro aged es long k r hj hm ho hp hs
    simp only [hj, hm]
    rw [malformedJob_of_slot _ ho hp hs]

/-! ## What an event leaves of the rings' registers -/

/-- The contexts of the submission and completion rings stand at these addresses (R175). -/
def RingContext (a : Nat) : Prop := 0x28800000 ≤ a ∧ a < 0x28A00000

/-- `a` is the SQ_STATE of no submission ring, the one register of a ring that tail drop and the stalls change (R167, R171). -/
def NotSqState (a : Nat) : Prop := ∀ q < 16384, a ≠ Reg.SQ_STATE q

theorem ringContext_sq {q k : Nat} (hq : q < 16384) (hk : k < 0x20) : RingContext (Reg.SQ_BASE_LO q + k) := by
  unfold RingContext Reg.SQ_BASE_LO
  omega

theorem ringContext_cq {c a k : Nat} (h : a = Reg.CQ_BASE_LO c + k) (hc : c < 4096) (hk : k < 0x20) : RingContext a := by
  unfold RingContext
  unfold Reg.CQ_BASE_LO at h
  omega

theorem notSqState_sq (q : Nat) {k : Nat} (hk : k < 0x20) (h : k ≠ 0xC) : NotSqState (Reg.SQ_BASE_LO q + k) := by
  intro p _
  unfold Reg.SQ_BASE_LO Reg.SQ_STATE
  omega

theorem notSqState_cq {c a k : Nat} (h : a = Reg.CQ_BASE_LO c + k) : NotSqState a := by
  intro p _
  unfold Reg.CQ_BASE_LO at h
  unfold Reg.SQ_STATE
  omega

theorem SQ_CFG_eq (q : Nat) : Reg.SQ_CFG q = Reg.SQ_BASE_LO q + 4 * 2 := Nat.add_right_comm _ (4 * 2) _
theorem SQ_FETCH_eq (q : Nat) : Reg.SQ_FETCH q = Reg.SQ_BASE_LO q + 4 * 5 := Nat.add_right_comm _ (4 * 5) _
theorem SQ_DONE_eq (q : Nat) : Reg.SQ_DONE q = Reg.SQ_BASE_LO q + 4 * 6 := Nat.add_right_comm _ (4 * 6) _
theorem CQ_STATE_eq (c : Nat) : Reg.CQ_STATE c = Reg.CQ_BASE_LO c + 0xC := Nat.add_right_comm _ 0xC _
theorem CQ_PROD_eq (c : Nat) : Reg.CQ_PROD c = Reg.CQ_BASE_LO c + 0x10 := Nat.add_right_comm _ 0x10 _
theorem CQ_CONS_eq (c : Nat) : Reg.CQ_CONS c = Reg.CQ_BASE_LO c + 0x14 := Nat.add_right_comm _ 0x14 _

theorem lt_of_mem_listedSq {s : State} {q : Nat} (h : q ∈ listedSq s) : q < 16384 := by
  obtain ⟨⟨a, _⟩, _, ha⟩ := List.mem_filterMap.1 h
  obtain ⟨hb, hq⟩ := Option.ite_none_right_eq_some.1 ha
  obtain rfl := Option.some.inj hq
  simp only [Bool.and_eq_true, decide_eq_true_eq] at hb
  unfold Reg.SQ_BASE_LO at hb ⊢
  omega

theorem lt_of_mem_ringsOf {s : State} {f q : Nat} (h : q ∈ ringsOf s f) : q < 16384 :=
  lt_of_mem_listedSq (List.mem_of_mem_filter h)

/-- A status bit, if there is one, stands outside the ring contexts. -/
def OffRings (o : Option (Nat × Nat)) : Prop := ∀ a b, o = some (a, b) → ¬ RingContext a

namespace OffRings

theorem absent : OffRings none := nofun

theorem outside {a b : Nat} (h : a < 0x28800000 ∨ 0x28A00000 ≤ a) : OffRings (some (a, b)) := by
  rintro _ _ ⟨⟩ ⟨h1, h2⟩
  omega

theorem ite {c : Prop} [Decidable c] {o p : Option (Nat × Nat)} (h : c → OffRings o) (k : OffRings p) :
    OffRings (if c then o else p) := by
  split
  · exact h ‹_›
  · exact k

theorem med {x k b : Nat} (hx : x < 2) (hk : k < 0x1000000) : OffRings (some (Reg.medBase x + k, b)) :=
  outside (.inl (by unfold Reg.medBase; omega))

theorem eft {e b : Nat} (h : e < 12) : OffRings (some (Reg.EFT_ATTN e, b)) := by
  refine outside (.inl ?_)
  unfold Reg.EFT_ATTN Reg.eftBase Reg.medBase
  split <;> omega

/-- The status bit of every source stands outside the ring contexts (R524). -/
theorem sourceBit (n cond : Nat) : OffRings (sourceBit n cond) := by
  have fixed {a b : Nat} (h : a < 0x28800000 ∨ 0x28A00000 ≤ a := by decide) : OffRings (some (a, b)) := outside h
  unfold Machine.sourceBit
  simp only [Bool.and_eq_true, Bool.or_eq_true, decide_eq_true_eq]
  refine ite (fun _ => fixed) <| ite (fun _ => fixed) <| ite (fun _ => fixed) <| ite (fun h => ?_) <|
    ite (fun _ => fixed) <| ite (fun h => eft (by omega)) <| ite (fun _ => fixed) <| ite (fun _ => fixed) <|
    ite (fun _ => fixed) <| ite (fun _ => fixed) <| ite (fun _ => fixed) <| ite (fun _ => fixed) <|
    ite (fun _ => fixed) absent
  have hx : (n - 64) / 32 < 2 := by omega
  exact ite (fun _ => med hx (by decide)) <| ite (fun _ => med hx (by decide)) <| ite (fun _ => med hx (by decide)) <|
    ite (fun _ => med hx (by decide)) <| ite (fun _ => eft (by omega)) absent

end OffRings

/-- Tail drop holds rings by their SQ_STATE alone (R171). -/
theorem reg_holdRings {a : Nat} (hs : NotSqState a) (f : Nat) (s : State) : (holdRings f s).reg a = s.reg a :=
  List.foldlRecOn (motive := fun t : State => t.reg a = s.reg a) (ringsOf s f) _ rfl fun t ht q hq => by
    rw [← ht]
    split
    · exact State.reg_setReg_ne _ _ _ _ (hs q (lt_of_mem_ringsOf hq))
    · rfl

theorem reg_holdEfts (a f : Nat) (s : State) : (holdEfts f s).reg a = s.reg a :=
  List.foldlRecOn (motive := fun t : State => t.reg a = s.reg a) (eftsOf f) _ rfl fun _ ht _ _ => ht

section RingContext

variable {a : Nat} (ha : RingContext a)
include ha

theorem reg_setStatus_ring (n cond : Nat) (s : State) : (setStatus n cond s).reg a = s.reg a := by
  unfold setStatus
  split
  next b _ h => exact State.reg_setReg_ne _ _ _ _ fun e => OffRings.sourceBit n cond _ _ h (e ▸ ha)
  next => rfl

/-- A counter of the event controller stands outside the ring contexts. -/
theorem reg_bump_evc (s : State) {b : Nat} (k : Nat) (hb : b < 0x28800000) : (s.bump b k).reg a = s.reg a :=
  State.reg_setReg_ne _ _ _ _ (by have := ha.1; omega)

theorem reg_offerRecord_ring (n cond func sev : Nat) (p : List Byte) (s : State) :
    (offerRecord n cond func sev p s).1.reg a = s.reg a := by
  unfold offerRecord
  dsimp only
  split
  · rfl
  split
  · exact reg_bump_evc ha s 1 (by decide)
  split
  · exact reg_bump_evc ha s 1 (by decide)
  split
  · exact reg_bump_evc ha s 1 (by decide)
  split
  · exact reg_bump_evc ha _ 1 (by decide)
  split
  · exact reg_bump_evc ha _ 1 (by decide)
  · rfl

theorem reg_raiseQuiet_ring (n cond : Nat) (p : Option (List Byte)) (e : Bool) (s : State) :
    (raiseQuiet n cond p e s).reg a = s.reg a := by
  unfold raiseQuiet raiseAs
  dsimp only
  split
  · rw [reg_offerRecord_ring ha, reg_setStatus_ring ha, reg_offerRecord_ring ha, reg_setStatus_ring ha]
  · rw [reg_offerRecord_ring ha, reg_setStatus_ring ha]

/-- The ring manager's events are no function errors (R174, R529). -/
theorem reg_ringEvent (k : Nat) (s : State) : (ringEvent k s).reg a = s.reg a := by
  have h : ferrOf s (224 + k) 0 [] = none := by
    rw [ferrOf, if_neg (by simp)]
    split
    · rw [if_neg (by omega), if_neg (by simp; omega)]
    · rfl
  rw [ringEvent, raise, raiseWith, raiseBy, Option.getD_none, h]
  exact reg_raiseQuiet_ring ha _ _ _ _ _

/-- Tail drop of XFM changes of the ring contexts the SQ_STATE of rings it holds (R532). -/
theorem reg_tailDrop_xfm (hs : NotSqState a) (cause : Nat) (s : State) : (tailDrop 5 cause s).reg a = s.reg a := by
  have hne : a ≠ Reg.EVC_ERR_STATE 5 := fun e => by
    subst e
    exact absurd ha.1 (by decide)
  unfold tailDrop tailDropBy
  split
  · rfl
  · dsimp only
    rw [reg_raiseQuiet_ring ha, reg_holdEfts, reg_holdRings hs]
    exact State.reg_setReg_ne _ _ _ _ hne

/-- An error of XFM changes of the ring contexts the SQ_STATE of rings that its tail drop holds (R530). -/
theorem reg_functionError_xfm (hs : NotSqState a) (code : Nat) (s : State) :
    (functionError 5 code s).reg a = s.reg a := by
  have hne {b : Nat} (hb : b < 0x28800000) : a ≠ b := by have := ha.1; omega
  unfold functionError functionErrorBy
  rw [if_neg (by decide)]
  dsimp only
  split
  · rw [reg_raiseQuiet_ring ha]
    exact (State.reg_setReg_ne _ _ _ _ (hne (by decide))).trans (State.reg_setReg_ne _ _ _ _ (hne (by decide)))
  · rw [reg_tailDrop_xfm ha hs, reg_raiseQuiet_ring ha]
    exact State.reg_setReg_ne _ _ _ _ (hne (by decide))
  · exact State.reg_setReg_ne _ _ _ _ (hne (by decide))

/-- The event of the fallback state, source 166, is an error of XFM where FERR is set (R258, R529). -/
theorem reg_fallbackEvent (s : State) (h : NotSqState a ∨ s.rb (Reg.EVC_SRC 166) 9 = false) :
    (xfmEvent 6 s).reg a = s.reg a := by
  have hf : ferrOf s 166 0 [] = if s.rb (Reg.EVC_SRC 166) 9 then some 5 else none := by simp [ferrOf, isEftSource, blockOf]
  rw [xfmEvent, raise, raiseWith, raiseBy, Option.getD_none, hf]
  obtain hs | hb := h
  · split
    next f hfe =>
      obtain ⟨_, h5⟩ := Option.ite_none_right_eq_some.1 hfe
      obtain rfl := Option.some.inj h5
      exact (reg_functionError_xfm ha hs _ _).trans (reg_raiseQuiet_ring ha _ _ _ _ _)
    next => exact reg_raiseQuiet_ring ha _ _ _ _ _
  · rw [hb]
    exact reg_raiseQuiet_ring ha _ _ _ _ _

end RingContext

/-! ## What the commands of the ring registers leave -/

/-- The evaluation of the fallback state sets it, and raises its event where it rises (R244). -/
theorem fbEval_cases (s : State) :
    (∃ b, fbEval s = modXfm (fun x => { x with fallback := b }) s) ∨
      fbEval s = xfmEvent 6 (modXfm (fun x => { x with fallback := true }) s) := by
  unfold fbEval
  dsimp only
  split
  · exact .inl ⟨false, rfl⟩
  split
  · split
    · exact .inl ⟨false, rfl⟩
    · exact .inl ⟨s.xfm.fallback, rfl⟩
  split
  · exact .inr rfl
  · exact .inl ⟨s.xfm.fallback, rfl⟩

theorem reg_fbEval {a : Nat} (ha : RingContext a) (s : State) (h : NotSqState a ∨ s.rb (Reg.EVC_SRC 166) 9 = false) :
    (fbEval s).reg a = s.reg a := by
  obtain ⟨b, e⟩ | e := fbEval_cases s <;> rw [e]
  · rfl
  · exact reg_fallbackEvent ha _ h

/-- Rings that run on again change their SQ_STATE alone (R167). -/
theorem reg_refreshStalls {a : Nat} (hs : NotSqState a) (s : State) : (refreshStalls s).reg a = s.reg a :=
  List.foldlRecOn (motive := fun t : State => t.reg a = s.reg a) _ _ rfl fun t ht q hq => by
    obtain ⟨f, _, hf⟩ := List.mem_flatMap.1 hq
    rw [← ht]
    split
    · exact State.reg_setReg_ne _ _ _ _ (hs q (lt_of_mem_ringsOf hf))
    · rfl

theorem reg_pushRingErr (a q reason : Nat) (s : State) : (pushRingErr q reason s).reg a = s.reg a := by
  unfold pushRingErr
  split <;> rfl

theorem reg_ringError {a q : Nat} (ha : RingContext a) (hq : a ≠ Reg.SQ_STATE q) (idx reason : Nat) (s : State) :
    (ringError q idx reason s).reg a = s.reg a := by
  unfold ringError
  split
  · rw [reg_ringEvent ha, reg_pushRingErr]
    exact State.reg_setReg_ne _ _ _ _ hq
  · rfl

/-- A submission doorbell writes SQ_PROD and SQ_STATE of its ring; the SQ_STATE of other rings changes where the event of the
fallback state is an error of XFM (R150, R171, R244). -/
theorem reg_sqDoorbell {q p : Fin 16384} {v : BitVec 17} {s t : State} (h : exec (.sqDoorbell q v) s = .next t) {w : Nat}
    (hw : w < 7) (hq : p = q → w ≠ 3 ∧ w ≠ 4) (hf : w ≠ 3 ∨ s.rb (Reg.EVC_SRC 166) 9 = false) :
    t.reg (Reg.SQ_BASE_LO p + 4 * w) = s.reg (Reg.SQ_BASE_LO p + 4 * w) := by
  have hp : RingContext (Reg.SQ_BASE_LO p + 4 * w) := ringContext_sq p.isLt (by omega)
  have hprod : Reg.SQ_BASE_LO p + 4 * w ≠ Reg.SQ_PROD q := by
    unfold Reg.SQ_BASE_LO Reg.SQ_PROD
    omega
  have hstate : Reg.SQ_BASE_LO p + 4 * w ≠ Reg.SQ_STATE q := by
    unfold Reg.SQ_BASE_LO Reg.SQ_STATE
    omega
  have hsrc (x : Nat) : (s.setRf (Reg.SQ_PROD q) 16 0 x).rb (Reg.EVC_SRC 166) 9 = s.rb (Reg.EVC_SRC 166) 9 :=
    congrArg (bit · 9) (State.reg_setReg_ne _ _ _ _ (by unfold Reg.EVC_SRC Reg.SQ_PROD; omega))
  have hfall : NotSqState (Reg.SQ_BASE_LO p + 4 * w) ∨ s.rb (Reg.EVC_SRC 166) 9 = false :=
    hf.imp_left fun h3 => notSqState_sq p (by omega) (by omega)
  refine whenLive_rel (R := fun s t => t.reg (Reg.SQ_BASE_LO p + 4 * w) = s.reg (Reg.SQ_BASE_LO p + 4 * w)) rfl ?_
    (show execSqDoorbell q v s = .next t from h)
  split
  · exact reg_ringEvent hp 1 s
  split
  · rw [reg_fbEval hp _ (by rwa [hsrc])]
    exact State.reg_setReg_ne _ _ _ _ hprod
  split
  · exact reg_ringError hp hstate _ _ s
  · exact reg_ringEvent hp 1 s

/-- The enabling of a completion ring writes its CQ_CFG and CQ_STATE (R144). -/
theorem reg_cqEnable {c : Fin 4096} {s t : State} (h : exec (.cqEnable c) s = .next t) {a k : Nat}
    (ha : a = Reg.CQ_BASE_LO c + k) (hk : k < 0x20) (hcfg : k ≠ 8) (hstate : k ≠ 0xC) : t.reg a = s.reg a := by
  have hctx : RingContext a := ringContext_cq ha c.isLt hk
  have hset (x : State) : (x.setRb (Reg.CQ_CFG c) 31 true).reg a = x.reg a :=
    State.reg_setReg_ne _ _ _ _ (by unfold Reg.CQ_BASE_LO at ha; unfold Reg.CQ_CFG; omega)
  refine whenLive_rel (R := fun s t => t.reg a = s.reg a) rfl ?_ (show execCqEnable c s = .next t from h)
  split
  · exact reg_ringEvent hctx 2 s
  dsimp only
  split
  · exact (State.reg_setReg_ne _ _ _ _ (by
      unfold Reg.CQ_BASE_LO at ha; unfold Reg.CQ_STATE; omega)).trans (hset s)
  · exact (reg_ringEvent hctx 2 _).trans (hset s)

/-- Where stalls end and the fallback state is evaluated anew, the completion rings stay as they are (R167, R244). -/
theorem reg_fbEval_refreshStalls_cq {c a k : Nat} (ha : a = Reg.CQ_BASE_LO c + k) (hc : c < 4096) (hk : k < 0x20) (s : State) :
    (fbEval (refreshStalls s)).reg a = s.reg a := by
  rw [reg_fbEval (ringContext_cq ha hc hk) _ (.inl (notSqState_cq ha)), reg_refreshStalls (notSqState_cq ha)]

/-- A field reads back the low bits of what was put there. -/
theorem fld_putFld (w : Word) {hi lo : Nat} (v : Nat) (hhi : hi < 32) :
    fld (putFld w hi lo v) hi lo = v % 2 ^ (hi + 1 - lo) := by
  refine Nat.eq_of_testBit_eq fun i => ?_
  have hb (x : Word) (j : Nat) : x.toNat.testBit j = x.getLsbD j := rfl
  rw [fld, Nat.testBit_mod_two_pow, Nat.testBit_mod_two_pow, Nat.testBit_div_two_pow, hb]
  by_cases hk : i < hi + 1 - lo
  · have h32 : i + lo < 32 := by omega
    simp [putFld, hk, h32, Nat.testBit_mul_two_pow, Nat.testBit_mod_two_pow, BitVec.getLsbD_ofNat,
      -BitVec.ofNat_eq_ofNat, -BitVec.getLsbD_eq_getElem]
  · simp [hk]

theorem rf_setRf_same (s : State) (a : Nat) {hi lo : Nat} (v : Nat) (hhi : hi < 32) :
    (s.setRf a hi lo v).rf a hi lo = v % 2 ^ (hi + 1 - lo) := by
  rw [State.rf, State.setRf, State.reg_setReg, fld_putFld _ _ hhi]

/-- Settles O11: an accepted value is the field that the doorbell puts into CQ_CONS, and whatever follows leaves the contexts of
the completion rings alone, as do a refusal and, but for CQ_CFG and CQ_STATE, the enabling. -/
theorem completionDoorbell : Obligations.CompletionDoorbell := by
  intro s c v hl
  have hprod : RingContext (Reg.CQ_PROD c) := ringContext_cq (CQ_PROD_eq c) c.isLt (by decide)
  have hcons : RingContext (Reg.CQ_CONS c) := ringContext_cq (CQ_CONS_eq c) c.isLt (by decide)
  have rejected (h : cqActive s c = true → cqCount s c < ringCount (cqN s c) v.toNat (cqC s c)) :
      exec (.cqDoorbell c v) s = .next (ringEvent 1 s) := by
    rw [exec_cqDoorbell hl, if_neg (by simpa using h)]
  refine ⟨?_, ?_, ?_, ?_⟩
  · intro ha hv
    have kept {a k : Nat} (h : a = Reg.CQ_BASE_LO c + k) (hk : k < 0x20) (hne : k ≠ 0x14) (x : Nat) :
        (fbEval (refreshStalls (s.setRf (Reg.CQ_CONS c) 16 0 x))).reg a = s.reg a :=
      (reg_fbEval_refreshStalls_cq h c.isLt hk _).trans
        (State.reg_setReg_ne _ _ _ _ (by rw [h, CQ_CONS_eq]; omega))
    refine ⟨_, exec_cqDoorbell_accepted hl ha hv, ?_, ?_, ?_⟩
    · have hlt : v.toNat % 2 ^ (cqN s c + 1) < 2 ^ 17 := (Nat.mod_le _ _).trans_lt v.isLt
      rw [cqC, State.rf, reg_fbEval_refreshStalls_cq (CQ_CONS_eq c) c.isLt (by decide), ← State.rf,
        rf_setRf_same _ _ _ (by decide)]
      exact Nat.mod_eq_of_lt hlt
    · exact congrArg (fld · 16 0) (kept (CQ_PROD_eq c) (by decide) (by decide) _)
    · exact (congrArg (bit · 24) (kept (CQ_STATE_eq c) (by decide) (by decide) _)).trans ha
  · intro _ hv
    exact ⟨rejected fun _ => hv, congrArg (fld · 16 0) (reg_ringEvent hcons 1 s),
      congrArg (fld · 16 0) (reg_ringEvent hprod 1 s)⟩
  · intro ha
    exact ⟨rejected fun h => absurd (ha.symm.trans h) Bool.false_ne_true, reg_ringEvent hcons 1 s⟩
  · intro _ hp hc t ht _
    have hp0 : cqP t c = 0 :=
      (congrArg (fld · 16 0) (reg_cqEnable ht (CQ_PROD_eq c) (by decide) (by decide) (by decide))).trans hp
    have hc0 : cqC t c = 0 :=
      (congrArg (fld · 16 0) (reg_cqEnable ht (CQ_CONS_eq c) (by decide) (by decide) (by decide))).trans hc
    refine ⟨hp0, hc0, ?_⟩
    rw [cqCount, hp0, hc0]
    simp [ringCount]

/-! ## The frame of the commands -/

/-- The data that `KeepsData` names stays, but for the ring manager's own state, whose jobs stay, and the fallback state. -/
def RingFrame (s t : State) : Prop :=
  KeepsData { s with rings := t.rings, xfm := { s.xfm with fallback := t.xfm.fallback } } t ∧ t.rings.jobs = s.rings.jobs

namespace RingFrame

theorem of_keepsData {s t : State} (h : KeepsData s t) : RingFrame s t := by
  refine ⟨?_, congrArg _ h.rings⟩
  rw [h.rings, h.xfm]
  exact h

theorem trans {s t u : State} (h : RingFrame s t) (k : RingFrame t u) : RingFrame s u := by
  obtain ⟨hd, hj⟩ := h
  obtain ⟨kd, kj⟩ := k
  refine ⟨⟨kd.pending.trans hd.pending, kd.mem.trans hd.mem, kd.timeUs.trans hd.timeUs, kd.pwr.trans hd.pwr, rfl,
    kd.stg.trans hd.stg, kd.zone.trans hd.zone, kd.bud.trans hd.bud, kd.cal.trans hd.cal, ?_, kd.cf.trans hd.cf,
    kd.cru.trans hd.cru, kd.svc.trans hd.svc⟩, kj.trans hj⟩
  exact kd.xfm.trans (congrArg (fun x : Xfm => { x with fallback := u.xfm.fallback }) hd.xfm)

theorem modFallback (b : Bool) (s : State) : RingFrame s (modXfm (fun x => { x with fallback := b }) s) :=
  ⟨.refl _, rfl⟩

theorem ringEvent (k : Nat) (s : State) : RingFrame s (ringEvent k s) := of_keepsData (.raise _ s (by omega))

theorem fbEval (s : State) : RingFrame s (fbEval s) := by
  obtain ⟨b, e⟩ | e := fbEval_cases s <;> rw [e]
  · exact modFallback b s
  · exact (modFallback true s).trans (of_keepsData (.raise _ _ (by decide)))

theorem refreshStalls (s : State) : RingFrame s (refreshStalls s) :=
  of_keepsData (.foldl _ (fun t _ => .ite (.setRb t _ _ _) (.refl t)) _ s)

theorem pushRingErr (q reason : Nat) (s : State) : RingFrame s (pushRingErr q reason s) := by
  unfold Machine.pushRingErr
  split <;> exact ⟨.refl _, rfl⟩

theorem ringError (q idx reason : Nat) (s : State) : RingFrame s (ringError q idx reason s) := by
  unfold Machine.ringError
  split
  · exact (of_keepsData (.setReg s _ _)).trans ((pushRingErr ..).trans (ringEvent ..))
  · exact of_keepsData (.refl s)

end RingFrame

/-- Settles O15: a doorbell or an enabling writes registers, raises events, may put a ring into ERROR and evaluates the fallback
state, and each of these keeps the frame. -/
theorem ringCommandFrame : Obligations.RingCommandFrame := by
  intro q c v s t
  have frame := @whenLive_rel RingFrame s t
  have same : RingFrame s s := .of_keepsData (.refl s)
  refine ⟨?_, fun h => ?_⟩
  · simp only [exec, execSqEnable, execCqEnable, execSqDoorbell, execCqDoorbell]
    rintro (h | h | h | h)
    · refine frame same ?_ h
      split
      · exact .ringEvent 2 s
      have cfg : RingFrame s (s.setRb (Reg.SQ_CFG q) 31 true) := .of_keepsData (.setRb s _ _ _)
      split
      · exact cfg.trans (.of_keepsData (.setRf _ _ _ _ _))
      · exact cfg.trans (.ringEvent 2 _)
    · refine frame same ?_ h
      split
      · exact .ringEvent 2 s
      have cfg : RingFrame s (s.setRb (Reg.CQ_CFG c) 31 true) := .of_keepsData (.setRb s _ _ _)
      split
      · exact cfg.trans (.of_keepsData (.setRb _ _ _ _))
      · exact cfg.trans (.ringEvent 2 _)
    · refine frame same ?_ h
      split
      · exact .ringEvent 1 s
      split
      · exact (RingFrame.of_keepsData (.setRf s _ _ _ _)).trans (.fbEval _)
      split
      · exact .ringError _ _ _ s
      · exact .ringEvent 1 s
    · refine frame same ?_ h
      split
      · exact (RingFrame.of_keepsData (.setRf s _ _ _ _)).trans ((RingFrame.refreshStalls _).trans (.fbEval _))
      · exact .ringEvent 1 s
  · have own (w : Nat) (hw : w < 7) (h3 : w ≠ 3) (h4 : w ≠ 4) :
        t.reg (Reg.SQ_BASE_LO q + 4 * w) = s.reg (Reg.SQ_BASE_LO q + 4 * w) :=
      reg_sqDoorbell h hw (fun _ => ⟨h3, h4⟩) (.inl h3)
    rw [SQ_CFG_eq, SQ_FETCH_eq, SQ_DONE_eq]
    exact ⟨fun p hp w hw hf => reg_sqDoorbell h hw (fun e => absurd e hp) hf,
      own 0 (by decide) (by decide) (by decide), own 2 (by decide) (by decide) (by decide),
      own 5 (by decide) (by decide) (by decide), own 6 (by decide) (by decide) (by decide)⟩

end Sys2Proof.Machine
end

section
/-!
PROOFS. The statements of spec/06_eft_sequencers.md: what each microword and each port access does, loading and debugging, and what
happens to a unit from outside its microcode.
-/

namespace Sys2Proof.Machine

open Sys2Proof

/- So that Lean does not start too many threads. -/
set_option Elab.async false

/-! ## The fetch and a change of the unit -/

@[simp] theorem fetched_eft (s : State) (e : Fin 12) : (fetched s e).eft e = { s.eft e with passBreak := false } :=
  State.eft_setEft _ _ _ e.isLt

@[simp] theorem unitDid_eft (s : State) (e : Fin 12) (f : EftUnit → EftUnit) : (unitDid s e f).eft e =
    { s.eft e with passBreak := false, unit := (s.eft e).unit.map f } := State.eft_setEft _ _ _ e.isLt

@[simp] theorem fetched_eftEntry (s : State) (e : Fin 12) : eftEntry (fetched s e) e = eftEntry s e := by simp [eftEntry]

@[simp] theorem fetched_lastSet (s : State) (e : Fin 12) : lastSet (fetched s e) e = lastSet s e := by
  simp only [lastSet, fetched_eft_unit]
  rfl

/-- Changes that agree on the present unit of an eft are one change. -/
theorem modUnit_congr {s : State} {e : Nat} {u : EftUnit} {f g : EftUnit → EftUnit} (hu : (s.eft e).unit = some u)
    (h : f u = g u) : modUnit e f s = modUnit e g s := by
  simp [modUnit, modEft, hu, h]

/-- A clean word whose reserved bits are 0 does its work (R178, R195). -/
theorem fetchDo_clean {s : State} {e : Nat} {act : MWord → State → State} (h : mwRsvOk (wordAt s e) = true) :
    fetchDo e .clean act s = act (wordAt s e) (fetched s e) := by
  simp [fetchDo, h, fetched]

theorem st_of_eftReady {s : State} {e : Nat} {st : EftSt} (h : eftReady s e st = true) : (s.eft e).st = st := by
  simp only [eftReady, Bool.and_eq_true, decide_eq_true_eq] at h
  obtain ⟨⟨hst, _⟩, _⟩ := h
  exact hst

/-! ## From a command to the work of its microword -/

section AtWord

variable {c : Instr} {s : State} {e : Fin 12} {w : MWord}

/-- The command `c` of opcode `k` does the opcode's work `act` on the fetched word. That `c` is that command is read off the
model. -/
theorem exec_word {k : Nat} (h : atWord s e w) (hk : mwOp w = k) (act : MWord → State → State)
    (hc : exec c s = s.whenLive (runWord e .clean (opIs k) act) := by rfl) : exec c s = .next (act w (fetched s e)) := by
  rw [hc, State.whenLive_live _ _ h.1, runWord_op h hk]

/-- A microword whose work is on the unit alone. -/
theorem exec_unitWord {k : Nat} (h : atWord s e w) (hk : mwOp w = k) (act : MWord → State → State) {f : EftUnit → EftUnit}
    (hc : exec c s = s.whenLive (runWord e .clean (opIs k) act) := by rfl)
    (hf : act w (fetched s e) = modUnit e f (fetched s e) := by rfl) : exec c s = .next (unitDid s e f) := by
  rw [exec_word h hk act hc, hf, modUnit_fetched]

end AtWord

/-- Settles O19: the work of each of these microwords is a change of the unit alone. -/
theorem eftRegisterWords : Obligations.EftRegisterWords := by
  intro e w s h
  exact ⟨
    fun hk => exec_unitWord h hk fun _ => goOn e,
    fun hk => exec_unitWord h hk (doLdi e),
    fun hk => exec_unitWord h hk (doLdh e),
    fun hk => exec_unitWord h hk (doAddi e),
    fun hk ht => exec_unitWord h hk (doMov e) (hf := if_pos ht),
    fun hk => exec_unitWord h hk (doAlu (· + ·) carryOut e),
    fun hk => exec_unitWord h hk (doAlu (· - ·) borrow e),
    fun hk => exec_unitWord h hk (doAlu (· &&& ·) (fun _ _ => false) e),
    fun hk => exec_unitWord h hk (doAlu (· ||| ·) (fun _ _ => false) e),
    fun hk => exec_unitWord h hk (doAlu (· ^^^ ·) (fun _ _ => false) e),
    fun hk => exec_unitWord h hk (doShl e),
    fun hk => exec_unitWord h hk (doShr e),
    fun hk hd => exec_unitWord h hk (doCmp e) (hf := if_pos hd),
    fun hk hw => exec_unitWord h hk (doJob e) (hf := if_neg (Nat.not_le.2 hw))⟩

/-! ## The control microwords -/

/-- Settles O20: the operands of each word choose its branch, and the fetch leaves the unit as it is. -/
theorem eftControlWords : Obligations.EftControlWords := by
  intro e w u s h hu
  have unit : ((fetched s e).eft e).unit = some u := (fetched_eft_unit s e).trans hu
  have committed : isCommitted (fetched s e) e = u.committed := by simp [isCommitted, hu]
  refine ⟨?_, ?_, ?_, ?_, ?_, ?_, ?_, ?_, ?_, ?_, ?_, ?_, ?_⟩
  · intro hk hc -- BR
    refine exec_unitWord h hk (doBr e) (hf := ?_)
    simp only [doBr, unit, if_neg (Nat.not_le.2 hc), goOn]
    split
    · exact modUnit_congr unit (if_pos ‹_›).symm
    · exact modUnit_congr unit (if_neg ‹_›).symm
  · intro hk hc hd -- CALL
    refine exec_unitWord h hk (doCall e) (hf := ?_)
    simp only [doCall, unit, hc, ne_eq, not_true_eq_false, if_false, if_neg (Nat.not_le.2 hd)]
  · intro a rest hk hs -- RET
    refine exec_unitWord h hk (fun _ => doRet e) (hf := ?_)
    simp only [doRet, unit, hs]
  · exact fun hk => exec_unitWord h hk (doDbnz e) -- DBNZ
  · intro hk hc -- COMMIT
    exact exec_unitWord h hk (fun _ => doCommit e) (hf := if_neg (by simp [committed, hc]))
  · intro hk hc -- END
    rw [exec_word h hk fun _ => doEnd e, doEnd, if_pos (committed.trans hc)]
  · intro hk hc -- FAIL
    rw [exec_word h hk (doFail e), doFail, if_neg (Nat.not_le.2 hc)]
  · intro hk hi -- RES
    refine exec_unitWord h hk (doRes e) (hf := ?_)
    simp only [doRes, hi, OfNat.zero_ne_ofNat, if_false]
  · intro hk -- EVT
    rw [exec_word h hk (doEvt e), doEvt, goOn, modUnit_fetched]
  · intro hk hd -- HALT
    rw [exec_word h hk fun _ => doHalt e, doHalt, goOn, modUnit_fetched]
    exact congrArg _ (if_pos hd)
  · intro hk hv he -- WAIT on a level that holds
    rw [exec_word h hk (doWait e), doWait, he]
    exact congrArg _ (if_neg (by simp; omega))
  · intro hk hv he -- WAIT on one that does not
    rw [exec_word h hk (doWait e), doWait, he, fetched_scr, scr, hu]
    exact congrArg _ (if_neg (by simp; omega))
  · intro hk hx hc hl -- XFER
    rw [exec_word h hk (doXfer e), doXfer, unit]
    simp [hx, hc, Nat.not_lt.2 hl]

/-! ## IN of a port -/

section Reads

variable {c : Instr} {s : State} {e : Fin 12} {w : MWord} {port : Nat} (h : atIn s e port w)
include h

theorem isIn_of_atIn : isIn w = true := decide_eq_true h.2.1

/-- The command `c` of a port gives the register of an IN the value `x` where the port's work `act` does, the fetch aside. -/
theorem exec_in (act : MWord → State → State) {x : Word} (hx : act w (fetched s e) = portIn e w x (fetched s e))
    (hc : exec c s = s.whenLive (runPort e .clean port act) := by rfl) :
    exec c s = .next (unitDid s e fun u => u.setR (mwD w) x) := by
  rw [hc, State.whenLive_live _ _ h.1.1, runPort_in h, hx, portIn, modUnit_fetched]

/-- An IN of a port that has only an IN, at an eft that has the port. -/
theorem inOnly_in (v : State → Word) (t : State) : inOnly e w v t = portIn e w (v t) t := if_pos (isIn_of_atIn h)

theorem medPort_inOnly (he : e.val < 4) (v : State → Word) (t : State) :
    medPort e (inOnly e w v) t = portIn e w (v t) t := (if_pos he).trans (inOnly_in h v t)

theorem stgPort_inOnly (he : 4 ≤ e.val) (v : State → Word) (t : State) :
    stgPort e (inOnly e w v) t = portIn e w (v t) t := (if_neg (Nat.not_lt.2 he)).trans (inOnly_in h v t)

end Reads

/-- Settles O21: the value that each port gives is the same before and after the fetch. -/
theorem eftPortReads : Obligations.EftPortReads := by
  intro e w s
  refine ⟨fun h => exec_in h (portTimeUs e) (inOnly_in h _ _), fun u h hu => ?_, fun he => ?_, fun he => ?_⟩
  · refine exec_in h (portUnitRestarts e) ((inOnly_in h _ _).trans ?_)
    rw [fetched_eft_unit, hu, Option.map_some, Option.getD_some]
  · have he : e.val < 4 := he
    refine ⟨fun h => exec_in h (portWstat e) (medPort_inOnly h he _ _),
      fun h => exec_in h (portRstat e) (medPort_inOnly h he _ _),
      fun h => exec_in h (portRerased e) (medPort_inOnly h he _ _),
      fun h => exec_in h (portSync e) (medPort_inOnly h he _ _),
      fun h => exec_in h (portSslot e) (medPort_inOnly h he _ _), fun v h hv => ?_, fun b h hb => ?_,
      fun h => exec_in h (portSvstat e) (medPort_inOnly h he _ _)⟩
    · refine exec_in h (portOstat e) ((if_pos he).trans ?_)
      rw [fetched_med, hv]
      exact inOnly_in h _ _
    · refine exec_in h (portOcstat e) ((if_pos he).trans ?_)
      rw [fetched_med, hb]
      exact inOnly_in h _ _
  · have he : 4 ≤ e.val := he
    refine ⟨fun h => exec_in h (portStatus e) ((stgPort_inOnly h he _ _).trans ?_),
      fun h => exec_in h (portDecode e) ?_,
      fun h => exec_in h (portSyndrome e) ((stgPort_inOnly h he _ _).trans ?_)⟩
    · simp only [jobOf, fetched_eftEntry]
      rfl
    · rw [portDecode, stgPort, if_neg (Nat.not_lt.2 he), if_pos (isIn_of_atIn h), fetched_lastSet]
    · rw [fetched_lastSet, fetched_scr]

/-! ## OUT of a port -/

section Writes

variable {c : Instr} {s : State} {e : Fin 12} {w : MWord} {port : Nat} (h : atOut s e port w)
include h

theorem isIn_of_atOut : isIn w = false := by simp [isIn, h.2.1]

/-- The command `c` of a port does on an OUT what the port's work `act` does. -/
theorem exec_out (act : MWord → State → State) {y : State} (hy : act w (fetched s e) = y)
    (hc : exec c s = s.whenLive (runPort e .clean port act) := by rfl) : exec c s = .next y := by
  rw [hc, State.whenLive_live _ _ h.1.1, runPort_out h, hy]

/-- An OUT of a port that has only an OUT, at an eft that has the port. -/
theorem outOnly_out (f : Word → State → State) :
    outOnly e w f (fetched s e) = f (scr s e (mwD w)) (unitDid s e EftUnit.next) := by
  simp only [outOnly, isIn_of_atOut h, Bool.false_eq_true, if_false, fetched_scr, goOn, modUnit_fetched]

theorem medPort_outOnly (he : e.val < 4) (f : Word → State → State) :
    medPort e (outOnly e w f) (fetched s e) = f (scr s e (mwD w)) (unitDid s e EftUnit.next) :=
  (if_pos he).trans (outOnly_out h f)

theorem stgPort_outOnly (he : 4 ≤ e.val) (f : Word → State → State) :
    stgPort e (outOnly e w f) (fetched s e) = f (scr s e (mwD w)) (unitDid s e EftUnit.next) :=
  (if_neg (Nat.not_lt.2 he)).trans (outOnly_out h f)

/-- An OUT of a commit-class port, at an eft that has the port and whose unit is committed. -/
theorem commitPort_out (hk : isCommitted s e = true) (f : Word → State → State) :
    commitPort e w f (fetched s e) = f (scr s e (mwD w)) (unitDid s e EftUnit.next) := by
  simp only [commitPort, isIn_of_atOut h, Bool.false_eq_true, if_false, fetched_isCommitted, hk, if_true, fetched_scr,
    goOn, modUnit_fetched]

theorem medPort_commitPort (he : e.val < 4) (hk : isCommitted s e = true) (f : Word → State → State) :
    medPort e (commitPort e w f) (fetched s e) = f (scr s e (mwD w)) (unitDid s e EftUnit.next) :=
  (if_pos he).trans (commitPort_out h hk f)

theorem stgPort_commitPort (he : 4 ≤ e.val) (hk : isCommitted s e = true) (f : Word → State → State) :
    stgPort e (commitPort e w f) (fetched s e) = f (scr s e (mwD w)) (unitDid s e EftUnit.next) :=
  (if_neg (Nat.not_lt.2 he)).trans (commitPort_out h hk f)

end Writes

/-- Settles O22: the register's value and the condition of its clause choose the branch of each port. -/
theorem eftMedPortWrites : Obligations.EftMedPortWrites := by
  intro e w s he
  have he : e.val < 4 := he
  refine ⟨fun h ho => exec_out h (portToken e) ((if_pos he).trans ?_),
    fun h ho hf => exec_out h (portToken e) ((if_pos he).trans ?_),
    fun h => exec_out h (portWhead e) (medPort_outOnly h he _),
    fun h => exec_out h (portWsect e) (medPort_outOnly h he _),
    fun h => exec_out h (portWparity e) (medPort_outOnly h he _),
    fun h => exec_out h (portWend e) (medPort_outOnly h he _),
    fun h hk => exec_out h (portArm e) (medPort_commitPort h he hk _),
    fun h => exec_out h (portRhead e) (medPort_outOnly h he _),
    fun h => exec_out h (portRsect e) (medPort_outOnly h he _),
    fun h => exec_out h (portRarm e) (medPort_outOnly h he _),
    fun h => exec_out h (portRend e) (medPort_outOnly h he _),
    fun h => exec_out h (portSpin e) (medPort_outOnly h he _),
    fun h hv => exec_out h (portOredet e) ((if_pos he).trans ?_),
    fun h => exec_out h (portOcstart e) (medPort_outOnly h he _),
    fun h hv => exec_out h (portOcsolve e) ((if_pos he).trans ?_),
    fun h => exec_out h (portRetarget e) (medPort_outOnly h he _),
    fun h => exec_out h (portRoffset e) (medPort_outOnly h he _),
    fun h hk => exec_out h (portRampOff e) (medPort_commitPort h he hk _),
    fun h hk => exec_out h (portRampOn e) (medPort_commitPort h he hk _)⟩
  · rw [isIn_of_atOut h, if_neg Bool.false_ne_true, fetched_eft, if_pos ho, goOn, modUnit_fetched]
  · rw [isIn_of_atOut h, if_neg Bool.false_ne_true, if_neg (by simp [ho]), if_pos hf]
  · rw [isIn_of_atOut h, fetched_scr, if_neg (by simp [hv]), outOnly_out h]
  · rw [isIn_of_atOut h, fetched_scr, if_neg (by simpa using hv), outOnly_out h]

/-- Settles O23: each port acts on the die of the unit's job; a YIELD other than 0 is not woken at once. -/
theorem eftStgPortWrites : Obligations.EftStgPortWrites := by
  intro e w s he
  have he : 4 ≤ e.val := he
  refine ⟨fun h => exec_out h (portCmd e) (stgPort_outOnly h he _),
    fun h => exec_out h (portAddr e) (stgPort_outOnly h he _),
    fun h => exec_out h (portApply e) (stgPort_outOnly h he _),
    fun u h hu => exec_out h (portDecode e) ((if_neg (Nat.not_lt.2 he)).trans ?_),
    fun u h hu hv => exec_out h (portYield e) ((stgPort_outOnly h he _).trans ?_),
    fun h hk => exec_out h (portConfirm e) (stgPort_commitPort h he hk _),
    fun h hk _ _ => exec_out h (portSuspend e) (stgPort_commitPort h he hk _),
    fun h hk => exec_out h (portResume e) (stgPort_commitPort h he hk _),
    fun h hk => exec_out h (portReset e) (stgPort_commitPort h he hk _),
    fun h hk => exec_out h (portFeatureData e) (stgPort_commitPort h he hk _)⟩
  · rw [isIn_of_atOut h, if_neg Bool.false_ne_true, fetched_scr, goOn, modUnit_fetched, startDecode, hu]
  · have run : (s.eft e).st = .running := st_of_eftReady h.1.2.1
    simp only [modEft, unitDid_eft, hu, Option.map_some, hv, run, reduceCtorEq, decide_false, Bool.false_and,
      Bool.false_eq_true, if_false]
    rfl

/-! ## Loading and debugging -/

/-- Settles O24: the conditions of each clause choose its branch; a single step of a NOP halts the eft again. -/
theorem eftLoadAndDebug : Obligations.EftLoadAndDebug := by
  intro e s hl
  simp only [exec, execLoadStart, execCsDataWrite, execLoadFinish, execEftRun, execBreakpointHalt, execEftStep,
    execEftResume, State.whenLive_live _ _ hl]
  refine ⟨fun h => ?_, fun v h ha => ?_, fun h hc hr => ?_, fun h hv => ?_, fun h hb ha => ?_, fun hd h hw => ?_,
    fun h => congrArg _ (if_pos h)⟩
  · rw [if_pos (by simp [h])] -- LOAD_START
    rfl
  · rw [if_pos h, if_pos ha] -- CS_DATA_WRITE
    rfl
  · rw [if_pos h, if_pos hc, hr] -- LOAD_FINISH
    rfl
  · have eft : (s.setRb (Reg.EFT_CTRL e) 0 true).eft e = s.eft e := rfl -- EFT_RUN
    rw [if_pos trivial, eft, if_pos (by simp [h, hv]), modEft, eft]
  · rw [if_pos (by simp [h, hb])] -- BREAKPOINT_HALT
    exact congrArg _ (if_pos ha)
  · have halted : (s.eft e).st = .debugHalt := st_of_eftReady h -- EFT_STEP
    have running : modEft e (fun x => { x with st := .running }) s = s.setEft e { s.eft e with st := .running } := rfl
    have nop : wordAt (s.setEft e { s.eft e with st := .running }) e = 0 := by
      rw [← hw, wordAt, wordAt, State.eft_setEft _ _ _ e.isLt]
    have step : doWord e 0 = goOn e := rfl
    rw [if_pos (by simp [hd, h]), running, fetchDo_clean (by rw [nop]; decide), nop, step, goOn, modUnit_fetched]
    simp only [unitDid, modEft, State.eft_setEft _ _ _ e.isLt, State.setEft_setEft, if_true, ← halted]

/-! ## Events from outside the microcode -/

/-- Settles O25: the conditions of each clause choose its branch; an entry that is no read never looks erased. -/
theorem eftUnitEvents : Obligations.EftUnitEvents := by
  intro e s hl
  refine ⟨fun t bs u hx hs hd he hb => ?_, fun k t hw ht hs => ?_, fun w h hk => ?_, fun p hs hu hp hc => ?_,
    fun hc => ?_, fun hs hw => ?_, fun c k hk hm ho => ?_⟩
  · simp only [exec, execXferDone, State.whenLive_live _ _ hl, hx] -- XFER_DONE
    simp only [hs, moveXfer, hd, readOr, hb, he]
    rfl
  · simp only [exec, execWaitTimeout, State.whenLive_live _ _ hl, hw] -- WAIT_TIMEOUT
    rw [if_pos (by simp [ht, hs])]
  · simp only [exec, execUnitAbandon, State.whenLive_live _ _ hl] -- UNIT_ABANDON
    rw [runWord_at h _ (by simp [hk]), if_pos hk]
  · simp only [exec, execUnitRestart, State.whenLive_live _ _ hl] -- UNIT_RESTART
    rw [if_pos (by simp [hs, hu, hc]), hp]
    rfl
  · simp only [exec, execUnitRestart, State.whenLive_live _ _ hl] -- UNIT_RESTART while the channel is calibrated
    rw [if_neg (by simp [hc])]
  · simp only [exec, execEftWatchdog, State.whenLive_live _ _ hl] -- EFT_WATCHDOG
    rw [if_pos (by simp [hs, hw])]
  · have once (t : State) : allErased t c k = false := by simp [allErased, ho] -- DECODE_DONE
    simp [exec, execDecodeDone, State.whenLive_live _ _ hl, hk, hm, once]

end Sys2Proof.Machine
end

section
/-!
PROOFS. The statements of spec/07_staging_flash.md: the channels, the macro-operations of the shipped routines, and the
events of a die.
-/

namespace Sys2Proof.Machine

open Sys2Proof

/-! ## Channels, and the operations on a die -/

@[simp] theorem getFeat_length (s : State) (c d a : Nat) : (getFeat s c d a).length = 4 := leBytes_length _ _

@[simp] theorem paramData_length (c d : Nat) (b : List Byte) : (paramData c d b).length = entLen b := by simp [paramData]

/-- Settles O26: the conditions of each clause choose its branch; what a GET_FEATURE and a READ_PARAM store has the length
that the initiator's windows admit. -/
theorem stagingChannelCommands : Obligations.StagingChannelCommands := by
  intro c s hl
  simp only [exec, execChannelEnable, execRateSwitch, execRateSwitchDone, execStgSetFeature, execStgGetFeature, execResetLun,
    execReadParam, State.whenLive_live _ _ hl]
  refine ⟨fun hn hg => ?_, fun hn hg => ?_, ?_, fun hr hn => ?_, fun r hp hi hr h0 => ?_, fun u hu he hm => ?_,
    fun u hu he hm => ?_, fun u hu => ?_, fun u hu he hm => ?_⟩
  · rw [if_pos trivial, hn, if_neg Bool.false_ne_true, if_pos hg] -- CHANNEL_ENABLE
  · rw [if_pos trivial, hn, if_neg Bool.false_ne_true, hg, if_neg Bool.false_ne_true]
  · rw [if_neg Bool.false_ne_true] -- the channel is disabled
  · rw [if_neg (Nat.not_le.2 hr), if_pos hn] -- RATE_SWITCH
  · simp only [hp, hi, hr, h0, Bool.and_self, Nat.min_self, ne_eq, not_false_eq_true, decide_true, Bool.or_true, if_true,
      if_false, Nat.lt_irrefl] -- RATE_SWITCH_DONE
  · simp only [hu, readOr_clean he hm] -- STG_SET_FEATURE
  · simp only [hu] -- STG_GET_FEATURE
    rw [writeOr_clean he (by rwa [getFeat_length])]
  · simp only [hu] -- RESET_LUN
  · simp only [hu] -- READ_PARAM
    rw [if_neg Bool.false_ne_true, writeOr_clean he (by rwa [paramData_length])]

/-! ## Pages, blocks and the events of a die -/

/-- Where the status of no plane reports failure, none of the job's planes fails (R225). -/
theorem failedPlanes_zero (b : List Byte) : (0 : BitVec 4).toNat &&& stgPlanes b = 0 := Nat.zero_and _

theorem nbit_zero (i : Nat) : nbit 0 i = false := Nat.zero_testBit i

/-- Settles O27: the conditions of each clause choose its branch; where no plane fails, the mask of those that do is 0. -/
theorem stagingArrayCommands : Obligations.StagingArrayCommands := by
  intro c s hl
  simp only [exec, execReadPage, execProgramPage, execEraseBlock, execLunReady, execArrayTimeout, execSuspendRequest,
    execSuspendResumeCondition, execParkedJobResume, execBlkCmd, execBlkCmdApply, execAdviseFifoPop,
    State.whenLive_live _ _ hl]
  refine ⟨?_, fun u hu => ?_, fun u hu hp => ?_, fun d fail t hb hs ht hn => ?_, fun d hb => ?_,
    fun d k hk ho hc hp hr hs => ?_, fun d hs hp hr => ?_, fun k l hu hp hw hi => ?_, fun v hn => ?_,
    fun w t hw hu ho ht => ?_, fun w l h => ?_⟩
  · rintro u reads soft _ hu hz rfl hf -- READ_PAGE
    simp only [hu, hf, List.isEmpty_nil, Bool.not_true, Bool.false_and, Bool.false_eq_true, if_false, if_true]
    exact congrArg _ (if_neg (Bool.eq_false_iff.1 hz))
  · simp only [hu, failedPlanes_zero, Bool.false_eq_true, if_false, if_true] -- PROGRAM_PAGE
  · simp only [hu, hp, failedPlanes_zero, nbit_zero, Bool.false_eq_true, if_false, if_true] -- ERASE_BLOCK
  · rw [if_pos hb, if_neg hs, ht, hn] -- LUN_READY
  · rw [if_pos hb] -- ARRAY_TIMEOUT
  · simp only [hk, ho] -- SUSPEND_REQUEST
    rw [if_pos (by simp [hc, hp, hr]), if_pos (by simpa using hs)]
  · rw [if_pos (by simp [hs, hp, hr])] -- SUSPEND_RESUME_CONDITION
  · simp only [hu, hp] -- PARKED_JOB_RESUME
    exact congrArg _ (if_pos (by simp [hw, hi]))
  · rw [if_neg (by simp [hn]), State.setReg_stg] -- BLK_CMD
  · simp only [hw, hu, ht, ho] -- BLK_CMD_APPLY
    rw [if_pos Option.isNone_none]
  · rw [h] -- ADVISE_FIFO_POP
    rfl

end Sys2Proof.Machine
end

section
/-!
PROOFS. The statements of spec/08_transforms.md: the jobs of the lanes, and the band-key engine.
-/

namespace Sys2Proof.Machine

open Sys2Proof

/-! ## Jobs of the lanes -/

/-- The last unit of a cipher job ends it (R252): the band has its key, and the unit is read and written in full. -/
theorem cipherUnits_last {s : State} {b key : List Byte} {enc : Bool} {u : Nat} (x : Lane) (k : Nat) (he : s.mu.errs = [])
    (hn : field b 40 4 = u + 1) (hk : s.xfm.keys.lookup (xBand b) = some key)
    (hr : s.engineMay 5 (xSrc b + u * 4160) 4160 = true)
    (hw : s.engineMay 5 (xDst4 b + u * 4160)
      (xts enc key (xTweak b + u) (s.bytes (xSrc b + u * 4160) 4160)).length = true) :
    cipherUnits x b enc (k + 1) u s = xfmEnd x ⟨0, u + 1, 0, 0, 0⟩ ((s.setBytes (xDst4 b + u * 4160)
      (xts enc key (xTweak b + u) (s.bytes (xSrc b + u * 4160) 4160))).bump Reg.XFM_CIPH_UNITS) := by
  simp only [cipherUnits, hk]
  rw [if_neg (by omega), readOr_clean he hr, writeOr_clean he hw, if_pos hn.le]

/-- Settles O28: the job's ranges lie in memory the function may access and no stored word is in error, so each read gives
the stored bytes and each write is taken. -/
theorem transformCommands : Obligations.TransformCommands := by
  intro s hl he
  refine ⟨fun l x j hj hm => ?_, fun l x j out hj hm hi hd => ?_, fun x j hj hm => ?_, fun x j hj hm ha => ?_,
    fun l n x j hj => ?_, fun l x j key hj hu hn hk hm hd => ?_, fun x j hj hc hm hd => ?_⟩
  · simp only [exec, execCompress, State.whenLive_live _ _ hl, hj] -- COMPRESS
    have hb : (s.bump Reg.XFM_CMP_JOBS).mu.errs = [] := he
    rw [readOr_clean hb hm, isFallback]
  · simp only [exec, execDecompress, State.whenLive_live _ _ hl, hj] -- DECOMPRESS
    rw [readOr_clean he hm, hi, writeOr_clean he hd, if_pos rfl]
  · simp only [exec, execEncode, State.whenLive_live _ _ hl, hj] -- ENCODE
    rw [readAll_clean he _ _ _ hm, List.nil_append, List.map_map]
    rfl
  · simp only [exec, execErasureDecode, State.whenLive_live _ _ hl, hj] -- ERASURE_DECODE
    rw [readAll_clean he _ _ _ hm, List.nil_append, List.map_map]
    exact congrArg _ (if_pos ha)
  · simp only [exec, execEncrypt, State.whenLive_live _ _ hl, hj] -- ENCRYPT
  · simp only [exec, execDecrypt, State.whenLive_live _ _ hl, hj, hu] -- DECRYPT
    exact congrArg _ (cipherUnits_last x 0 he hn hk hm hd)
  · simp only [exec, execCopy, State.whenLive_live _ _ hl, hj] -- COPY
    rw [if_neg (Nat.not_lt.2 hc), readOr_clean he hm, writeOr_clean he (by rwa [bytes_length])]

/-! ## The band-key engine -/

theorem bandCmd_free {s : State} (h : s.cru.band = none) (op b : Nat) :
    bandCmd op b s = modCru (fun c => { c with band := some (op, b) })
      ((s.setReg Reg.CRU_BAND_CMD (BitVec.ofNat 32 (b + op * 2 ^ 8))).setReg Reg.CRU_BAND_STAT 0) :=
  if_neg (by simp [h])

theorem bandCmd_busy {s : State} {r : Nat × Nat} (h : s.cru.band = some r) (op b : Nat) : bandCmd op b s = s :=
  if_pos (by simp [h])

/-- The four commands of the engine, each with its OP (R501). -/
theorem exec_bandCmds {s : State} (hl : s.live = true) (b : Fin 64) :
    exec (.bandCmdCreate b) s = .next (bandCmd 1 b s) ∧ exec (.bandLoad b) s = .next (bandCmd 2 b s) ∧
      exec (.bandUnload b) s = .next (bandCmd 3 b s) ∧ exec (.bandRewrap b) s = .next (bandCmd 4 b s) :=
  ⟨State.whenLive_live _ _ hl, State.whenLive_live _ _ hl, State.whenLive_live _ _ hl, State.whenLive_live _ _ hl⟩

/-- No operation succeeds once the keys are destroyed (R501). -/
theorem bandEnd_killed {s : State} (h : kekKilled s = true) (op b : Nat) : bandEnd op b s = (s, false) := if_pos h

section KeysLive

variable {s : State} (h : kekKilled s = false) (b : Nat)
include h

theorem bandEnd_create (he : entropyFailed s = false) :
    bandEnd 1 b s = (setBandWrap (wrapKey s.cru.fuses.kek (drawKey s).1) (drawKey s).2, true) := by
  simp only [bandEnd, h, he, Bool.false_eq_true, if_false]

theorem bandEnd_load : bandEnd 2 b s = match kwUnwrap (kekOf s.cru.fuses.kek) (bandWrap s) with
    | some k => (setBandKey b k s, true)
    | none => (s, false) := by
  simp only [bandEnd, h, Bool.false_eq_true, if_false]
  cases kwUnwrap (kekOf s.cru.fuses.kek) (bandWrap s) <;> rfl

theorem bandEnd_unload : bandEnd 3 b s = (unloadBand b s, true) := by
  simp only [bandEnd, h, Bool.false_eq_true, if_false]

theorem bandEnd_rewrap : bandEnd 4 b s = match kwUnwrap (kekOf s.cru.fuses.kek) (bandWrap s) with
    | some k => (setBandWrap (wrapKey (s.cru.fuses.kek + 1) k) s, true)
    | none => (s, false) := by
  simp only [bandEnd, h, Bool.false_eq_true, if_false]
  cases kwUnwrap (kekOf s.cru.fuses.kek) (bandWrap s) <;> rfl

end KeysLive

/-- The end of an operation shows DONE, and ERR where it failed. -/
theorem exec_bandCmdDone {s : State} (hl : s.live = true) {op b : Nat} (hb : s.cru.band = some (op, b)) :
    exec .bandCmdDone s = .next (modCru (fun c => { c with band := none })
      ((bandEnd op b s).1.setReg Reg.CRU_BAND_STAT (if (bandEnd op b s).2 then 1 else 3))) := by
  simp only [exec, execBandCmdDone, State.whenLive_live _ _ hl, hb]

/-- Settles O41: a command goes by whether an operation is in progress; the end of one by what the operation does, and
that by whether the wrapped key unwraps. -/
theorem bandKeyCommands : Obligations.BandKeyCommands := by
  intro s hl
  refine ⟨fun b hb => ?_, fun b r hb => ?_, fun b t hk => ⟨fun hb hf ht => ?_, fun hb => ?_, fun hb => ?_, fun hb => ?_⟩,
    fun r hk hb => ?_⟩
  · simpa only [bandCmd_free hb] using exec_bandCmds hl b
  · simpa only [bandCmd_busy hb] using exec_bandCmds hl b
  · rw [exec_bandCmdDone hl hb, bandEnd_create hk b hf, ht]
  · rw [exec_bandCmdDone hl hb, bandEnd_load hk b]
    cases kwUnwrap (kekOf s.cru.fuses.kek) (bandWrap s) <;> rfl
  · rw [exec_bandCmdDone hl hb, bandEnd_unload hk b]
  · rw [exec_bandCmdDone hl hb, bandEnd_rewrap hk b]
    cases kwUnwrap (kekOf s.cru.fuses.kek) (bandWrap s) <;> rfl
  · rw [exec_bandCmdDone hl hb, bandEnd_killed hk]
    rfl

end Sys2Proof.Machine
end

section
/-!
PROOFS. The statements of spec/09_zones_layout.md: the commands of the zone keeper, and the write block and preamp of
spec/10_write_assist.md that its releases drive.
-/

namespace Sys2Proof.Machine

open Sys2Proof

/-! ## Seals, and the entry that a zone command goes on with -/

section Seal

variable {e : ZEnt}

/-- At a group start there is no group to seal (R272). -/
theorem sealEnt_of_groupStart (h : e.wp % 264 = 0) : sealEnt e = (e, false) := if_pos h

theorem sealLimit_of_groupStart (h : e.wp % 264 = 0) : sealLimit e = false := by simp [sealLimit, h]

/-- A partial group is sealed as one more unsealed group while there are fewer than four (R272). -/
theorem sealEnt_of_partial (h : e.wp % 264 ≠ 0) (hu : e.ucount < 4) : sealEnt e =
    ({ e with wp := (e.wp / 264 + 1) * 264, ugroup := e.ugroup.take e.ucount ++ [e.wp / 264], ucount := e.ucount + 1 },
      true) := by
  rw [sealEnt, if_neg h, if_pos hu]

theorem sealLimit_of_room (hu : e.ucount < 4) : sealLimit e = false := by simp [sealLimit, hu]

end Seal

section ZoneEntry

variable {z op : Nat} {s t : State} (he : s.mu.errs = [])
  (ht : s.setReg Reg.ZONE_CMD (BitVec.ofNat 32 (z + op * 2 ^ 20)) = t) (hz : z < zoneCount t)
  (hr : t.engineMay 8 (zoneAddr t z) 24 = true)
include he ht hz hr

/-- A command of a zone in effect goes on with the zone's stored entry (R266). -/
theorem zoneEntry_clean (k : ZEnt → State → State) : zoneEntry z op k s = k (zDecode (t.bytes (zoneAddr t z) 24)) t := by
  have clean : t.mu.errs = [] := by rw [← ht, State.setReg_mu, he]
  rw [zoneEntry, ht]
  exact (if_neg (Nat.not_le.2 hz)).trans (readOr_clean clean hr _ _)

/-- And one that the zone's state alone can refuse goes on where the zone is accessible (R265). -/
theorem zoneCommand_clean (hg : zoneGone t z = false) (k : ZEnt → State → State) :
    zoneCommand z op k s = k (zDecode (t.bytes (zoneAddr t z) 24)) t := by
  rw [zoneCommand, zoneEntry_clean he ht hz hr, hg, if_neg Bool.false_ne_true]

/-- A FULL zone without a running job is retired as it stands: nothing is to seal (R266). -/
theorem zoneRetire_full {e : ZEnt} (hd : zDecode (t.bytes (zoneAddr t z) 24) = e) (hg : zoneGone t z = false)
    (hb : zoneBusy t z = false) (hk : e.kind = 1) (hs : e.state = 3) (st : Nat) (offlineToo : Bool) :
    zoneRetire z op st offlineToo s = zoneDone z { e with st := st } false (releaseCtx e.act z) t := by
  rw [zoneRetire, zoneCommand_clean he ht hz hr hg, hd, if_neg (by simp [hk, hs]), hb, if_neg Bool.false_ne_true,
    if_neg (by simp [hs])]
  rfl

end ZoneEntry

/-! ## The zone commands -/

/-- Settles O29: each command goes on with the zone's entry, whose state and write pointer choose its branch and its
seal. -/
theorem zoneStateCommands : Obligations.ZoneStateCommands := by
  rintro z op s t e hl he ht hz hr rfl hg hb
  have enters (k : ZEnt → State → State) := zoneCommand_clean he ht hz hr hg k
  simp only [exec, execZoneOpen, execZoneClose, execZoneFinish, execZoneReset, execZoneSync, execSetRo, execZoneOffline,
    zoneReset, List.map_nil, List.isEmpty_nil, if_true, State.whenLive_live _ _ hl]
  refine ⟨?_, ?_, ?_, ?_, ?_, ?_, ?_, ?_⟩
  · rintro rfl hk hs hc hw -- OPEN
    rw [enters, if_neg (by simp [hk, hs]), if_neg (by simp [hs]), sealEnt_of_groupStart hw, zoneOpenChecks, hb, hc,
      sealLimit_of_groupStart hw]
    simp only [Bool.and_false, Bool.false_eq_true, if_false]
    rfl
  · rintro rfl hk hs hw hu -- CLOSE
    rw [enters, if_neg (by simp [hk, hs]), hb, if_neg Bool.false_ne_true, sealLimit_of_room hu, if_neg Bool.false_ne_true,
      sealEnt_of_partial hw hu]
    rfl
  · rintro rfl hk hs -- FINISH
    rw [enters, if_neg (by simp [hk, hs]), hb, if_neg Bool.false_ne_true, if_neg (by simp [hs]), if_neg (by simp [hs])]
    rfl
  · rintro rfl hk hs -- RESET
    rw [enters, if_neg (by simp [hk, hs]), hb, if_neg Bool.false_ne_true]
  · rintro rfl hk hs hh -- SYNC
    rw [enters, if_neg (by simp [hk, hs, hh]), hb, if_neg Bool.false_ne_true]
  · rintro rfl hk hs -- SET_RO
    rw [zoneRetire_full he ht hz hr rfl hg hb hk hs]
  · rintro rfl hk hs -- OFFLINE
    rw [zoneRetire_full he ht hz hr rfl hg hb hk hs]
  · rintro rfl hk hs -- RESET of an OPEN zone
    rw [enters, if_pos (by simp [hk, hs])]

/-- Where nothing is to be restored, the table stands as it is (R265). -/
theorem restoreZones_of_not_due {s : State} (h : s.svc.zdue = false) : restoreZones s = s := if_pos (by simp [h])

/-- Settles O30: the remap's entry passes its refusals in turn; the conditions of each other clause choose its branch. -/
theorem zoneKeeperCommands : Obligations.ZoneKeeperCommands := by
  intro s hl
  simp only [exec, execRemap, execZoneEnable, execZoneScanDone, execZoneReset, execZoneOffer, State.whenLive_live _ _ hl]
  refine ⟨?_, fun z k => State.whenLive_live _ _ hl, fun h => ?_, fun h hd => ?_, fun t h ht => ?_,
    fun z l h hc hh => ?_, fun v t u ht hp => ?_, fun v t u sc x h z o ht hp => ?_⟩
  · rintro z t e d b he ht hz hr rfl hg hi hdef hdr rfl hkind hspare hk hs hb hfree -- REMAP
    have clean : t.mu.errs = [] := by rw [← ht, State.setReg_mu, he]
    rw [zoneEntry_clean he ht hz hr, if_neg (Nat.not_le.2 hi), readOr_clean clean hdr, if_neg (not_not.2 hkind), hdef]
    simp only [hspare, hg, hk, hs, hb, hfree, Bool.not_true, decide_true, Bool.and_self, Bool.or_self,
      Bool.false_eq_true, if_false]
  · rw [if_neg (by simp [h])] -- ZONE_ENABLE
  · rw [if_neg (by simp [h])] -- ZONE_ENABLE without a table to restore
    have kept : restoreZones (s.setRb Reg.ZONE_CTRL 0 true) = s.setRb Reg.ZONE_CTRL 0 true := restoreZones_of_not_due hd
    simp only [kept, State.setRb_zone]
  · rw [if_pos h, ht] -- ZONE_SCAN_DONE
  · rw [if_neg (by simp [h]), if_pos (by simp [hc, hh])] -- ZONE_RESET of a reclaimed zone
  · rw [ht, hp] -- ZONE_OFFER without a candidate
  · rw [ht, hp] -- ZONE_OFFER

/-! ## The preamp link -/

section PalTry

variable {a : Nat} {r1 r2 r3 : BitVec 32}

/-- A good first response ends the attempts (R286). -/
theorem palTry_first (h : palGood a r1 = true) : palTry a r1 r2 r3 = (0, some r1) := if_pos h

/-- Three bad responses leave none (R286). -/
theorem palTry_none (h1 : palGood a r1 = false) (h2 : palGood a r2 = false) (h3 : palGood a r3 = false) :
    palTry a r1 r2 r3 = (3, none) := by
  simp [palTry, h1, h2, h3]

variable {x out d : Nat} {wr : Bool} {s : State}

/-- The responses of a transaction decide it: a good first one acts (R286, R287). -/
theorem palRun_first (h : palGood a r1 = true) : palRun x out wr a d r1 r2 r3 s =
    palApply x a (fld r1 23 8) ((palOut x (1 - out) wr a d s).bump (Reg.MED_PAL_ERRORS x) 0) := by
  rw [palRun, palTry_first h]
  rfl

/-- And three bad ones are a link error (R286). -/
theorem palRun_none (h1 : palGood a r1 = false) (h2 : palGood a r2 = false) (h3 : palGood a r3 = false) :
    palRun x out wr a d r1 r2 r3 s =
      linkError x ((palOut x (3 - out) wr a d s).bump (Reg.MED_PAL_ERRORS x) 3) := by
  rw [palRun, palTry_none h1 h2 h3]
  rfl

end PalTry

/-- A change of the write path goes by what it makes of the path as it stands. -/
theorem modWr_congr {x : Nat} {f g : Wr → Wr} {s : State} (h : f (med s x).wr = g (med s x).wr) :
    modWr x f s = modWr x g s := by
  by_cases hx : x = 0 <;> simp_all [modWr, modMed, med]

/-- No frame goes out where no attempt is left to send. -/
theorem palOut_zero (x : Nat) (wr : Bool) (a d : Nat) (s : State) : palOut x 0 wr a d s = s := by
  unfold palOut modWr modMed
  split <;> rfl

section PalTake

variable {x a : Nat} {s : State}

/-- No write of the word is out (R286). -/
theorem palTake_none (h : ∀ p ∈ (med s x).wr.sent, p.1 ≠ a) : palTake x a s = none := by
  rw [palTake, List.find?_eq_none.2 (by simpa using h)]
  rfl

/-- The oldest write out is the one that is answered. -/
theorem palTake_cons {d : Nat} {l : List (Nat × Nat)} (h : (med s x).wr.sent = (a, d) :: l) :
    palTake x a s = some (d, modWr x (fun w => { w with sent := l }) s) := by
  have rest : modWr x (fun w => { w with sent := w.sent.eraseP fun p => p.1 = a }) s =
      modWr x (fun w => { w with sent := l }) s := modWr_congr (by simp [h])
  rw [palTake, rest, h, List.find?_cons_of_pos (by simp)]
  rfl

end PalTake

section PalTransaction

variable {s : State} (hl : s.live = true) {x : Fin 2} {a : Fin 9} {r1 r2 r3 : BitVec 32}
  (hu : (med s x).wr.linkUp = true)
include hl hu

/-- A read over a link that is up is a transaction of MEDx's own (R285). -/
theorem exec_palTransaction_read :
    exec (.palTransaction x false a r1 r2 r3) s = .next (palRun x 0 false a 0 r1 r2 r3 s) := by
  simp [exec, execPalTransaction, State.whenLive_live _ _ hl, hu]

variable (h1 : 1 ≤ a.val) (h5 : a.val ≤ 5)
include h1 h5

/-- A write of a word that has been sent is the answer of the oldest one out (log entry 53). -/
theorem exec_palTransaction_answer {d : Nat} {t : State} (h : palTake x a s = some (d, t)) :
    exec (.palTransaction x true a r1 r2 r3) s = .next (palRun x 1 true a d r1 r2 r3 t) := by
  simp [exec, execPalTransaction, State.whenLive_live _ _ hl, hu, Nat.ne_of_gt h1, Nat.not_le.2 (Nat.lt_succ_of_le h5), h]

/-- With none out, it is one of MEDx's own, of the value last known for the word (log entry 53). -/
theorem exec_palTransaction_write (h : palTake x a s = none) :
    exec (.palTransaction x true a r1 r2 r3) s = .next (palRun x 0 true a (palHeld (med s x).wr a) r1 r2 r3 s) := by
  simp [exec, execPalTransaction, State.whenLive_live _ _ hl, hu, Nat.ne_of_gt h1, Nat.not_le.2 (Nat.lt_succ_of_le h5), h]

end PalTransaction

/-- What the gate's rise leaves (R290, R291): the sector's data, and its bits on WD by the entry that the assist's start
leaves in use. -/
theorem med_gateUp (x : Nat) (t : Sect) (d : List Byte) (idle : Bool) (s : State) :
    (med (gateUp x t d idle s) x).wr.gate = true ∧ (med (gateUp x t d idle s) x).wr.lastData = d ∧
      (med (gateUp x t d idle s) x).wr.wd = writeData (med (startAssist x idle s) x).wr.entry.precomp d := by
  simp [gateUp]

/-- Settles O31: the responses of a transaction decide its end, and the conditions of each other clause choose its branch. -/
theorem writeBlockCommands : Obligations.WriteBlockCommands := by
  intro s hl
  refine ⟨fun x a r1 r2 r3 hu => ?_, fun x a r1 r2 r3 hu h1 h5 => ⟨fun hn hg => ?_, fun d l hs => ?_⟩,
    fun x wr a r1 r2 r3 hu ha => ?_, fun x o hf hu hn => ?_, fun x o hf => ?_, fun x v r1 r2 r3 ho hlc hg => ?_,
    fun x v r1 r2 r3 ho => ?_, fun x v ht => ?_, fun x v ht => ?_, fun x o t d ha hw hd hi hp hr hu hf hon hwus => ?_,
    fun x t ha hw => ?_, fun z h => ?_⟩
  · rw [exec_palTransaction_read hl hu] -- PAL_TRANSACTION, a read
    exact ⟨fun hg => congrArg _ (palRun_first hg), fun h1 h2 h3 => congrArg _ (palRun_none h1 h2 h3)⟩
  · rw [exec_palTransaction_write hl hu h1 h5 (palTake_none hn)] -- a write with none out
    exact congrArg _ (palRun_first hg)
  · rw [exec_palTransaction_answer hl hu h1 h5 (palTake_cons hs)] -- the answer of the oldest write out
    refine ⟨fun hg => congrArg _ ?_, fun h1 h2 h3 => congrArg _ (palRun_none h1 h2 h3)⟩
    exact (palRun_first hg).trans (by rw [Nat.sub_self, palOut_zero])
  · have off : (!(med s x).wr.linkUp && (wr || a.val ≠ 0)) = true := by simpa [hu] using ha -- a link that is down
    simp only [exec, execPalTransaction, State.whenLive_live _ _ hl]
    rw [if_pos off, ite_self]
  · have answered : ¬ o.fails = 3 := fun h => by simp [h] at hn -- PREAMP_FAULT_INPUT
    have tries : min 3 (o.fails.val + 1) = o.fails.val + 1 := by omega
    simp only [exec, execPreampFaultInput, State.whenLive_live _ _ hl]
    rw [if_neg (by simp [hf, hu]), palSum, tries, if_neg answered, palApply]
  · simp only [exec, execPreampFaultInput, State.whenLive_live _ _ hl] -- the polls replace the input
    rw [if_pos (by simp [hf])]
  · simp only [exec, execPalCmd, State.whenLive_live _ _ hl] -- PAL_CMD
    rw [if_pos (by simp [ho, hlc]), palTry_first hg]
    rfl
  · simp only [exec, execPalCmd, State.whenLive_live _ _ hl] -- PAL_CMD while an eft owns the datapath
    rw [if_neg (by simp [ho])]
  · simp only [exec, execTdSweep, State.whenLive_live _ _ hl] -- TD_SWEEP
    rw [if_pos ht]
  · simp only [exec, execTdSweep, State.whenLive_live _ _ hl] -- TD_SWEEP without the token
    rw [if_neg (by simp [ht])]
  · refine ⟨?_, med_gateUp ..⟩ -- WRITE_SECTOR_PASS
    have ready : ((med s x).wr.begun || preheated s x) = true := by simpa using hp
    simp only [exec, execWriteSectorPass, State.whenLive_live _ _ hl, ha]
    rw [if_pos (by simp [hw]), armedPass, hd]
    exact congrArg _ ((if_neg (by simp [hi, ready, hr, hu, hf])).trans (if_pos (by simp [hon, hwus])))
  · simp only [exec, execSectorWriteEnd, State.whenLive_live _ _ hl, writtenEnd, ha] -- SECTOR_WRITE_END
    rw [if_pos hw]
  · simp only [exec, execWriteRelease, State.whenLive_live _ _ hl] -- WRITE_RELEASE
    rw [if_pos h]

end Sys2Proof.Machine
end

section
/-!
PROOFS. The statements of spec/11_read_channel.md and spec/12_sector_recovery.md: the pass of a sector and its decoding, offline
work and the rebuild engine, and one unit of the shipped routines on the media.
-/

namespace Sys2Proof.Machine

open Sys2Proof

/-! ## A sector's decoding, and the work of sector recovery -/

/-- The oldest sector in the decoder ends by its decoding, the upsets of its buffer, distrust and the FIFO (R326, R327, R350). -/
theorem readOutcome_cons {s : State} {x : Nat} {p : ReadPass} {l : List ReadPass} (h : (med s x).rc.decoding = p :: l)
    (o : OutcomeObs) : readOutcome x o s =
      let u := bufferUpsets (4 + x) (2 + x) o.ldpc (modRc x (fun r => { r with decoding := l }) s)
      let d := passDecode p o.tie
      if d.ok && !u.1 && !p.arm.distrust then
        if o.fifoFull then finishRead x p 4 d.globals d.sw u.2
        else finishRead x p 0 d.globals d.sw (rebuildTake x p.arm.sect (dataBytes d.bits)
          (modRc x (fun r => { r with out := dataBytes d.bits }) (gatherStats x p d.bits u.2)))
      else finishRead x p 1 d.globals d.sw u.2 := by
  simp only [readOutcome, h]

section OfflineWork

variable {s : State} {x : Nat} {w : Offline} {l : List Offline} (h : (med s x).sr.offline = w :: l)
include h

/-- The first offline work ends with the block at hand where it delivers (R347, R348). -/
theorem offlineDone_cons (o : OutcomeObs) : offlineDone x o s = wakeEft w.eft 26 (
    let v := slotOf (med s x).sr w.slot
    let u := runOffline x w v.ranges o s
    let t := popOffline x (modSr x (fun r => { r with
      odone := true, ostat := some (ostatWord (if u.1.1 then 0 else 1) u.1.2.globals u.1.2.sw v.ranges) }) u.2)
    if u.1.1 then modRc x (fun r => { r with out := dataBytes u.1.2.bits }) (t.bump (Reg.MED_SR_OFFLINE_OK x)) else t) := by
  simp only [offlineDone, h]

/-- The work of a REDETECT job without an erasure list takes the slot's ranges where its entry asks for them (R349). -/
theorem offlineNext_of_unlisted {q first : Nat} {j : Job} (hw : w.job = some (q, first)) (hj : findJob s q first = some j)
    (ha : field j.entry 16 5 = 0) (o : OutcomeObs) : offlineNext x o s = redetectEnd x q first j.entry w [] o s := by
  simp only [offlineNext, h, hw, redetectRun, hj, ha, if_true]

end OfflineWork

section Rebuild

variable {s : State} {x k : Nat} {b : Rebuild} (hb : (med s x).sr.rebuild = some b) (hk : b.solving = some k)
include hb hk

/-- A slot that is rebuilt is the block at hand (R348, R354). -/
theorem ocsolveDone_of_solved {d : List Byte} (h : rebuildSlot b.have_ k = some d) : ocsolveDone x s =
    wakeEft (2 * x + 1) 27 (wakeEft (2 * x) 27 (srEvent x 3 ((modRc x (fun r => { r with out := d })
      (modSr x (fun r => { r with ocdone := true, rebuild := some { b with solving := none, ok := true } }) s)).bump
        (Reg.MED_SR_OC_OK x)))) := by
  simp only [ocsolveDone, hb, hk, h, Option.isSome_some]

theorem ocsolveDone_of_unsolved (h : rebuildSlot b.have_ k = none) : ocsolveDone x s =
    wakeEft (2 * x + 1) 27 (wakeEft (2 * x) 27
      (modSr x (fun r => { r with ocdone := true, rebuild := some { b with solving := none, ok := false } }) s)) := by
  simp only [ocsolveDone, hb, hk, h, Option.isSome_none]

end Rebuild

/-! ## A unit on the media -/

section UnitEntry

variable {e op : Nat} {s t : State} {u : EftUnit} (hu : medUnit e op s = some u) (ht : routineToken e s = some t)
include hu ht

/-- A unit whose actuator is not available fails its job (R387). -/
theorem unitEntry_of_servoDown (hd : servoDown t (e / 2) = true) (k : EftUnit → ZEnt → State → State) :
    unitEntry e op k s = engineEnd e 0x8301 t := by
  simp only [unitEntry, hu, ht, hd, if_true]

/-- Otherwise it goes on with its zone's entry, its head selected (R351, R387). -/
theorem unitEntry_enters {r : State} {w : ZEnt} (hd : servoDown t (e / 2) = false)
    (hr : (if (med t (e / 2)).rc.head = medHead u.job.entry && (med t (e / 2)).rc.run then t
      else rhead (e / 2) (medHead u.job.entry % 16) t) = r)
    (hz : ∀ bad k, withZone (medZone u.job.entry) bad k r = k w r) (k : EftUnit → ZEnt → State → State) :
    unitEntry e op k s = k u w r := by
  simp only [unitEntry, hu, ht, hd, hr, hz, Bool.false_eq_true, if_false]

end UnitEntry

section Deliver

variable {s : State} {e : Nat} {u : EftUnit} (hu : (s.eft e).unit = some u) (used : Nat)
include hu

theorem deliver_unmoved : deliver e false used s = unitEnds e 1 used s := by
  simp only [deliver, hu, Bool.not_false, if_true]

/-- The block at hand goes to the unit's place in BUF (R351). -/
theorem deliver_moved (hf : unitFits u.job.entry u.job.unit = true) (he : s.mu.errs = [])
    (hw : s.engineMay (eftFunc e) (entBuf u.job.entry + u.job.unit * 4160) (med s (e / 2)).rc.out.length = true) :
    deliver e true used s =
      unitEnds e 1 used (s.setBytes (entBuf u.job.entry + u.job.unit * 4160) (med s (e / 2)).rc.out) := by
  simp only [deliver, hu, hf, Bool.not_true, Bool.false_eq_true, if_false, writeOr_clean he hw]

end Deliver

/-- A routine that is on its target's track does not wait (R387). -/
theorem settleFor_onTrack {s : State} {e : Nat} {t : Retarget} (h : onTrack s (e / 2) t.track t.write = true) (o : SettleObs)
    (k : State → State) : settleFor e t o k s = k s := if_pos h

/-- A data unit whose sector ends written ends (R303 step 4). -/
theorem writeUnitEnd_of_written {s : State} {e : Nat} {v : EftUnit} (hv : (s.eft e).unit = some v)
    (ha : (med s (e / 2)).wr.armed = none) (hw : (med s (e / 2)).wr.wstat = 0) (slot : Nat) (isData : Bool) :
    writeUnitEnd e slot isData s = unitEnds e (b2n isData) 0 s := by
  simp only [writeUnitEnd, hv, ha, hw, Option.isSome_none, Bool.false_eq_true, if_false, if_true]

/-- A data unit on a track where it need not wait arms its slot with its bytes of BUF (R303). -/
theorem writeUnit_enters {s t r : State} {e : Nat} {u : EftUnit} {p : Sect} (hu : medUnit e 2 s = some u)
    (hrel : releasedFor s e = true) (ht : routineToken e s = some t) (hd : servoDown t (e / 2) = false)
    (hr : (if (med t (e / 2)).wr.head = medHead u.job.entry % 16 && (med t (e / 2)).wr.run then t
      else whead (e / 2) (medHead u.job.entry % 16) t) = r)
    (hp : ∀ bad k, withSect (medZone u.job.entry) (medPba u.job.entry % 2 ^ 17 + u.job.unit) bad k r = k p r)
    (hsh : p.shingled = false) (hon : onTrack (wsectLoad (e / 2) p r) (e / 2) p.track true = true)
    (hf : unitFits u.job.entry u.res0 = true) (he : (wsectLoad (e / 2) p r).mu.errs = [])
    (hm : (wsectLoad (e / 2) p r).engineMay (eftFunc e) (entBuf u.job.entry + u.res0 * 4160) 4160 = true) (o : WriteUnitObs) :
    writeUnit e o s = writeUnitEnd e (medPba u.job.entry % 2 ^ 17 + u.job.unit) true
      (writeArm e o (modWr (e / 2) (fun w => { w with
        fifo := (wsectLoad (e / 2) p r).bytes (entBuf u.job.entry + u.res0 * 4160) 4160 }) (wsectLoad (e / 2) p r))) := by
  simp only [writeUnit, hu, hrel, ht, hd, hr, hp, hsh, hf, Bool.false_and, Bool.not_true, Bool.not_false, Bool.false_eq_true,
    if_false, if_true]
  rw [settleFor_onTrack hon, readOr_clean he hm]

/-! ## The statement -/

/-- Settles O32: the acquisition decides a pass, and the conditions of each other clause choose its branch. -/
theorem readChannelCommands : Obligations.ReadChannelCommands := by
  intro s hl
  simp -zeta only [exec, execReadSectorPass, execSectorReadOutcome, execSectorGap, execOfflineDone, execRedetect,
    execOcsolveDone, execMediaRead, execVerify, execCapture, execMediaWrite, runUnits, List.foldl_cons, List.foldl_nil,
    State.whenLive_live _ _ hl]
  refine ⟨fun x o a ha hon hlen => ?_, fun x o ha => ?_, fun x o p l hp => ?_, fun x hw hf => ?_, fun x h => ?_,
    fun x o w l hw => ⟨fun hj => ?_, fun q first j hj hfind hlist => ?_⟩,
    fun x b k hb hk => ⟨fun d hd => ?_, fun hd => ?_⟩,
    fun e op o u t hu ht hd => ⟨?_, ?_, ?_⟩, fun e op o u t r w hu ht hd hr hz => ⟨fun h4 => ?_, fun h4 => ?_, ?_⟩,
    fun e used u hu => ⟨deliver_unmoved hu used, deliver_moved hu used⟩,
    fun e o u v t r z p hu hrel ht hd hr hp hsh hon hf he hm hz hv ha hw => ?_⟩
  · simp only [ha, hon, hlen, decide_true, Bool.and_self, if_true] -- READ_SECTOR_PASS
    cases hlock : lockBit (s.rf (Reg.MED_RC_TIMING x) 23 16) (lockTaus (acquire s x a o) o.unit) with
    | none =>
      obtain ⟨t, p, hpass, harm, hfree, hlocked, hsynced, hdec⟩ := readPass_noLock x a o s hlock
      exact ⟨t, p, harm, hfree, congrArg _ hpass, hlocked, hsynced, hdec⟩
    | some i =>
      cases hsync : acceptSync a.win a.thr (syncBits (acquire s x a o)) with
      | none =>
        obtain ⟨t, p, hpass, harm, hword, hfree, hlocked, hsynced, hdec⟩ := readPass_noSync x a o s i hlock hsync
        exact ⟨t, p, harm, hfree, hlocked, hword, congrArg _ hpass, hsynced, hdec⟩
      | some m =>
        obtain ⟨t, p, hpass, harm, hword, h1, h2, hfree, hlocked, hsynced, hdec, hreg, hmem⟩ :=
          readPass_sync x a o s i m hlock hsync
        exact ⟨t, p, harm, hfree, hlocked, hword, congrArg _ hpass, hsynced, hdec, h1, h2, hreg, hmem⟩
  · rw [ha] -- READ_SECTOR_PASS with no sector armed
  · exact congrArg _ (readOutcome_cons hp o) -- SECTOR_READ_OUTCOME
  · rw [if_neg (by simp [hw, hf])] -- SECTOR_GAP
  · rw [if_pos (by simpa using h)] -- SECTOR_GAP during a write, or fenced
  · simp only [hw, hj, Option.isNone_none, if_true, offlineDone_cons hw] -- OFFLINE_DONE
  · simp only [hw, hj, Option.isSome_some, if_true, offlineNext_of_unlisted hw hj hfind hlist] -- REDETECT
    rfl
  · exact congrArg _ (ocsolveDone_of_solved hb hk hd) -- OCSOLVE_DONE
  · exact congrArg _ (ocsolveDone_of_unsolved hb hk hd)
  iterate 3 -- READ, VERIFY, CAPTURE where the actuator is not available
    rintro rfl
    exact congrArg _ (unitEntry_of_servoDown hu ht hd _)
  · intro ends -- READ and VERIFY by the ladder
    have unit (move : Bool) : readUnit e op move o s = ends move := by
      refine (unitEntry_enters hu ht hd hr hz _).trans ((if_neg (Bool.eq_false_iff.1 h4)).trans ?_)
      rcases hlad : ladSector e (readSlot u w) (medBudgetMs u.job.entry * 1000) o u.res1 r with ⟨l, found, z⟩
      cases found <;> simp only [ends, hlad]
    constructor <;> (rintro rfl; exact congrArg _ (unit _))
  · intro used ends -- READ and VERIFY from a group read before
    have unit (move : Bool) : readUnit e op move o s = ends move := by
      refine (unitEntry_enters hu ht hd hr hz _).trans ((if_pos h4).trans ?_)
      rcases hsolve : solveNow e (readSlot u w) r with ⟨solved, z⟩
      cases solved <;> simp only [ends, hsolve, used]
    constructor <;> (rintro rfl; exact congrArg _ (unit _))
  · rintro rfl -- CAPTURE
    exact congrArg _ (unitEntry_enters hu ht hd hr hz _)
  · rw [writeUnit_enters hu hrel ht hd hr hp hsh hon hf he hm, hz, writeUnitEnd_of_written hv ha hw] -- WRITE
    rfl

end Sys2Proof.Machine
end

section
/-!
PROOFS. The statements of spec/16_calibration.md: the calibration controller.
-/

namespace Sys2Proof.Machine

open Sys2Proof

/-- Of the eight bits of a request, the mask of one subsystem sets its own (R447). -/
theorem filter_getLsbD_one_shift (k : Fin 8) : (List.range 8).filter (1#8 <<< k.val).getLsbD = [k.val] := by
  revert k
  decide

/-- A request's bits are taken up one by one, each where its subsystem is enabled (R447). -/
theorem exec_calRequest {s : State} (hl : s.live = true) (m : BitVec 8) :
    exec (.calRequest m) s = .next (((List.range 8).filter m.getLsbD).foldl (fun s k =>
      if s.rb Reg.CAL_CTRL 0 && s.rb (Reg.CAL_SUB_CFG k) 7 then s.setRb Reg.CAL_STATUS (8 + k) true else s) s) := by
  simp only [exec, execCalRequest, State.whenLive_live _ _ hl, List.foldl_filter, Bool.and_assoc]
  congr 2
  funext s k
  cases m.getLsbD k <;> rfl

/-- Settles O37: the conditions of each clause choose its branch; a request for one subsystem takes up its bit alone. -/
theorem calibrationCommands : Obligations.CalibrationCommands := by
  intro s hl
  refine ⟨fun x o => ?_, fun k he hk => ?_, fun k heads h4 hp ha hf hb => ?_,
    fun k h2 h4 hp ha hd hn => ?_, fun k h2 ha => ?_, fun x r k off gain skew ha hr hf hj => ?_,
    fun k o h5 ha hf ho => ?_⟩
  · simp only [exec, execWedgeStrobe, State.whenLive_live _ _ hl] -- WEDGE_STROBE
  · rw [exec_calRequest hl, filter_getLsbD_one_shift] -- CAL_REQUEST
    exact congrArg _ (if_pos (by simp [he, hk]))
  · simp only [exec, execCalRunStart, State.whenLive_live _ _ hl] -- CAL_RUN_START
    rw [if_pos (by simp [hp, ha, hf, hb]), if_neg (by omega), if_neg (by omega)]
  · simp only [exec, execCalDeferTimeout, State.whenLive_live _ _ hl] -- CAL_DEFER_TIMEOUT
    rw [if_pos (by simp [hp, ha, hd, h2, h4, hn])]
  · simp only [exec, execCalRunTimeout, State.whenLive_live _ _ hl] -- CAL_RUN_TIMEOUT
    rw [if_pos (by simp [h2, ha])]
  · simp only [exec, execAdcMeasPeriod, State.whenLive_live _ _ hl] -- ADC_MEAS_PERIOD of a slice in use
    rw [if_pos (by simp [ha, hr, hf]), hj]
  · simp only [exec, execCalRunEnd, State.whenLive_live _ _ hl] -- CAL_RUN_END
    rw [if_neg (by simp [ha, hf]), if_neg (by omega), if_neg (by omega), if_neg (by omega), ho, if_neg Bool.false_ne_true]

end Sys2Proof.Machine
end

section
/-!
PROOFS. The statements on the machine as a whole: what a step and a run are, what they leave of a logic die that is held, and the
resets that hold it.
-/

namespace Sys2Proof.Machine

open Sys2Proof

/- So that Lean does not start too many threads. -/
set_option Elab.async false

/-! ## Steps and runs -/

theorem step_of_pending_nil {s : State} (h : s.pending = []) : step s = .next (idle s) := by rw [step, h]

theorem step_of_pending_cons {s : State} {c : Instr} {rest : List Instr} (h : s.pending = c :: rest) :
    step s = exec c { s with pending := rest } := by rw [step, h]

/-- An outcome that is a next state. -/
def IsNext : Host.Outcome State Fault Refusal → Prop
  | .next _ => True
  | _ => False

theorem IsNext.exists {r : Host.Outcome State Fault Refusal} (h : IsNext r) : ∃ t, r = .next t := by
  cases r with
  | next t => exact ⟨t, rfl⟩
  | fault => exact h.elim
  | refused => exact h.elim

/-- Every arm of `exec` is a next state as written: of the logic die's commands through `whenLive`, of the others at once (log
entry 3). -/
theorem isNext_exec (c : Instr) (s : State) : IsNext (exec c s) := by cases c <;> exact trivial

theorem exec_next (c : Instr) (s : State) : ∃ t, exec c s = .next t := (isNext_exec c s).exists

theorem step_next (s : State) : ∃ t, step s = .next t := by
  cases h : s.pending with
  | nil => exact ⟨_, step_of_pending_nil h⟩
  | cons c rest =>
    rw [step_of_pending_cons h]
    exact exec_next c _

/-- A run goes on from the state that its first step answers. -/
theorem run_succ (M : Host.Core) {s t : M.State} (h : M.step s = .next t) (n : Nat) : M.run (n + 1) s = M.run n t := by
  rw [Host.Core.run, h]

/-- Settles O2: every command answers a next state, so every step does, and a run never stops. -/
theorem everyRunGoesOn : Obligations.EveryRunGoesOn := by
  refine ⟨exec_next, fun n => ?_⟩
  induction n with
  | zero => exact fun s => ⟨s, rfl⟩
  | succ n ih =>
    intro s
    obtain ⟨t, ht⟩ := step_next s
    rw [run_succ Sys2Proof.core ht]
    exact ih t

/-! ## A microsecond with no command waiting -/

/-- The clocks alone advance, the record clock with each millisecond (R535). -/
theorem clockTick_eq (s : State) : clockTick s = { s with
    timeUs := s.timeUs + 1
    evc := { s.evc with timeMs := if (s.timeUs + 1) % 1000 = 0 then (s.evc.timeMs + 1) % 2 ^ 63 else s.evc.timeMs } } := by
  by_cases h : (s.timeUs + 1) % 1000 = 0 <;> simp [clockTick, h]

/-- The pins and what the units report of the actuators are as before the tick. -/
theorem pinsCall_unitTick (s : State) : pinsCall (unitTick s) = pinsCall s := rfl

/-- With nothing for the image to do but a hold-up that may be due (R416), a microsecond is that of the clocks and units. -/
theorem imageTick_of_nothing_due {s : State} (hc : s.svc.cmds = []) (he : s.svc.entering = none) (hp : pinsCall s = false)
    (ht : s.timeUs % 100000 ≠ 0) : imageTick s = closeJournal s := by
  have hpoll : pollSif s = s := by simp [pollSif, ht]
  simp [imageTick, hc, he, hp, hpoll]

theorem idle_held {s : State} (h : s.live = false) : idle s = clockTick s := by
  have : (clockTick s).live = false := by rw [clockTick_eq]; exact h
  simp [idle, this]

/-- Settles O1: a step is read off its definition; where nothing waits, the image's part of an idle microsecond is the end of a
hold-up at most. -/
theorem stepRunsFrontCommand : Obligations.StepRunsFrontCommand := by
  refine ⟨fun _ _ _ => rfl, fun _ => step_of_pending_nil, fun s hq hc he hp ht => ?_⟩
  refine (step_of_pending_nil hq).trans (congrArg _ ?_)
  rw [idle, clockTick_eq]
  exact if_congr Iff.rfl (imageTick_of_nothing_due hc he hp ht) rfl

/-! ## A logic die that is held -/

/-- A step of a held logic die with its own commands waiting takes the command in front, or the clocks advance; nothing else
changes (R557, log entry 31). -/
theorem step_held {s : State} (hl : s.live = false) (hq : ∀ c ∈ s.pending, onLogicDie c = true) :
    ∃ us ms, step s = .next { s with pending := s.pending.tail, timeUs := us, evc := { s.evc with timeMs := ms } } ∧
      (s.pending ≠ [] → us = s.timeUs ∧ ms = s.evc.timeMs) := by
  cases h : s.pending with
  | nil =>
    rw [step_of_pending_nil h, idle_held hl, clockTick_eq]
    exact ⟨_, _, by rw [List.tail_nil, ← h], fun hne => absurd rfl hne⟩
  | cons c rest =>
    have hc : onLogicDie c = true := hq c (by simp [h])
    rw [step_of_pending_cons h, exec_held c _ (by exact hl) hc]
    exact ⟨s.timeUs, s.evc.timeMs, rfl, fun _ => ⟨rfl, rfl⟩⟩

/-- Any number of steps of it work off as many commands, and the clocks advance. -/
theorem run_held (n : Nat) {s : State} (hl : s.live = false) (hq : ∀ c ∈ s.pending, onLogicDie c = true) :
    ∃ us ms, Host.Core.run Sys2Proof.core n s =
      .next { s with pending := s.pending.drop n, timeUs := us, evc := { s.evc with timeMs := ms } } := by
  induction n generalizing s with
  | zero => exact ⟨s.timeUs, s.evc.timeMs, rfl⟩
  | succ n ih =>
    obtain ⟨us, ms, hs, -⟩ := step_held hl hq
    obtain ⟨us', ms', hr⟩ := ih (s := { s with pending := s.pending.tail, timeUs := us, evc := { s.evc with timeMs := ms } })
      hl fun c hc => hq c (List.mem_of_mem_tail hc)
    rw [run_succ Sys2Proof.core hs, hr]
    exact ⟨us', ms', by rw [List.drop_tail]⟩

/-- Settles O3: each step leaves the die held and takes the front of the queue, whose rest is of the logic die too. -/
theorem heldLogicDieIsUntouched : Obligations.HeldLogicDieIsUntouched := by
  refine ⟨?_, ?_⟩
  · rintro s ⟨hl, hq⟩
    obtain ⟨us, ms, hs, hne⟩ := step_held hl hq
    refine ⟨_, hs, ⟨hl, fun c hc => hq c (List.mem_of_mem_tail hc)⟩, fun hp => ?_, us, ms, rfl⟩
    obtain ⟨rfl, rfl⟩ := hne hp
    rfl
  · rintro n s ⟨hl, hq⟩
    obtain ⟨us, ms, hr⟩ := run_held n hl hq
    exact ⟨_, hr, ⟨hl, fun c hc => hq c (List.mem_of_mem_drop hc)⟩, us, ms, rfl⟩

/-! ## Resets -/

/-- A reset that begins is in progress, or one that is stronger or equal already was (R557). -/
theorem beginReset_inReset (k : ResetKind) (cause : Nat) (s : State) : (beginReset k cause s).pwr.inReset ≠ none := by
  unfold beginReset
  cases h : s.pwr.inReset with
  | none => simp
  | some r =>
    dsimp only
    split
    · simp
    · simp [h]

theorem live_of_inReset {s : State} (h : s.pwr.inReset ≠ none) : s.live = false := by
  simp [State.live, h]

theorem beginReset_live (k : ResetKind) (cause : Nat) (s : State) : (beginReset k cause s).live = false :=
  live_of_inReset (beginReset_inReset k cause s)

/-! A reset leaves the commands that wait. -/

theorem cfAbandon_pending (s : State) : (cfAbandon s).pending = s.pending := by
  unfold cfAbandon
  split <;> rfl

theorem resolveChange_pending (c : Change) (s : State) : (resolveChange c s).pending = s.pending := by
  unfold resolveChange
  dsimp only
  split <;> rfl

theorem cutBurn_pending (s : State) : (cutBurn burnDone s).pending = s.pending := by
  unfold cutBurn
  split
  · rfl
  · rfl
  · rfl
  · dsimp only
    split <;> rfl

theorem foldl_pending {α : Type} {f : State → α → State} (h : ∀ s a, (f s a).pending = s.pending) (l : List α) (s : State) :
    (l.foldl f s).pending = s.pending := by
  induction l generalizing s with
  | nil => rfl
  | cons a l ih => rw [List.foldl_cons, ih, h]

theorem svcAfterReset_pending (s : State) : (svcAfterReset s).pending = s.pending :=
  foldl_pending (fun s c => resolveChange_pending c s) s.svc.unacked s

theorem lunLost_pending (c d : Nat) (s : State) : (lunLost c d s).pending = s.pending := by
  unfold lunLost
  dsimp only
  split
  · refine foldl_pending (fun t k => ?_) _ _
    rfl
  · refine foldl_pending (fun t k => foldl_pending (fun u e => ?_) _ t) _ _
    rfl
  · rfl

theorem modLun_pending (c l : Nat) (f : Lun → Lun) (s : State) : (modLun c l f s).pending = s.pending := rfl

theorem lunsOff_pending (s : State) : (lunsOff s).pending = s.pending := by
  unfold lunsOff
  refine foldl_pending (fun t i => ?_) _ _
  rw [modLun_pending, lunLost_pending]

theorem resetMedPath_pending (x : Nat) (s : State) : (resetMedPath x s).pending = s.pending := by
  have parked (t : State) : KeepsData t (if (actu t x).retDone then t else parkDrive x t) := .ite (.refl t) (.parkDrive x t)
  rw [resetMedPath, resetMedRegs, State.setRf_pending, State.resetRegs_pending, (KeepsData.modMed x _ _).pending,
    (parked _).pending, (KeepsData.hardStop x s).pending]

theorem softState_pending (s : State) : (softState s).pending = s.pending := rfl

theorem deviceMot_pending (s : State) : (deviceMot s).pending = s.pending := rfl

theorem softRegs_pending (s : State) : (softRegs s).pending = s.pending := State.resetRegs_pending _ _

theorem coldState_pending (po retain : Bool) (s : State) : (coldState po retain s).pending = s.pending := rfl

theorem resetState_pending (k : ResetKind) (po retain off : Bool) (s : State) :
    (resetState k po retain off s).pending = s.pending := by
  have cut : (svcAfterReset (cutBurn burnDone (cfAbandon s))).pending = s.pending := by
    rw [svcAfterReset_pending, cutBurn_pending, cfAbandon_pending]
  unfold resetState
  cases k with
  | cold =>
    dsimp only
    rw [coldState_pending]
    split
    · rw [lunsOff_pending, (KeepsData.hardStop 1 _).pending, (KeepsData.hardStop 0 _).pending, cut]
    · rw [(KeepsData.hardStop 1 _).pending, (KeepsData.hardStop 0 _).pending, cut]
  | device =>
    dsimp only
    rw [deviceMot_pending, softRegs_pending, resetMedPath_pending, resetMedPath_pending, softState_pending, cut]
  | warm =>
    dsimp only
    rw [softRegs_pending, resetMedPath_pending, resetMedPath_pending, softState_pending, cut]

theorem beginReset_pending (k : ResetKind) (cause : Nat) (s : State) : (beginReset k cause s).pending = s.pending := by
  unfold beginReset
  split
  · split
    · exact resetState_pending ..
    · rfl
  · exact resetState_pending ..

/-- Settles O5: whatever begins, a reset is in progress afterwards; PWR_RESET begins its reset at once, outside hold-up. -/
theorem resetsHoldTheLogicDie : Obligations.ResetsHoldTheLogicDie := by
  have hl : State.reset.live = true := rfl
  have begun (k : ResetKind) : ∃ t, State.reset.whenLive (pwrReset k) = .next t ∧ t.live = false ∧ t.pending = [] := by
    rw [State.whenLive_live _ _ hl, pwrReset_of_not_holdup rfl]
    exact ⟨_, rfl, beginReset_live .., beginReset_pending ..⟩
  exact ⟨beginReset_live, begun .device, begun .cold, begun .warm⟩

end Sys2Proof.Machine
end

section
/-!
PROOFS. The statement of spec/13_servo.md: the servo engines' commands.
-/

namespace Sys2Proof.Machine

/- So that Lean does not start too many threads. -/
set_option Elab.async false

/-! ## Changes of a servo engine -/

/-- A change of the servo engine goes by what it makes of the engine as it stands. -/
theorem modSv_congr {x : Nat} {f g : Sv → Sv} {s : State} (h : f (sv s x) = g (sv s x)) : modSv x f s = modSv x g s := by
  by_cases hx : x = 0 <;> simp_all [modSv, modMed, sv, med]

theorem modSv_eq_self {x : Nat} {f : Sv → Sv} {s : State} (h : f (sv s x) = sv s x) : modSv x f s = s := by
  by_cases hx : x = 0 <;> simp_all [modSv, modMed, sv, med]

/-- A trigger is taken by an armed trace (R389). -/
theorem traceTrigger_of_armed {x : Nat} {s : State} (h : (sv s x).trace = .armed) : traceTrigger x s =
    modSv x (fun v => { v with trace := .triggered, trigIdx := v.wptr, post := s.rf (Reg.MED_SV_TRACE_POST x) 12 0 }) s :=
  modSv_congr (if_pos h)

theorem traceTrigger_of_not_armed {x : Nat} {s : State} (h : (sv s x).trace ≠ .armed) : traceTrigger x s = s :=
  modSv_eq_self (if_neg h)

/-! ## Retargets -/

/-- The word that carries a retarget is no part of the tandem's enable. -/
theorem following_setReg_svCmd (x : Fin 2) (v : Word) (s : State) :
    following (s.setReg (Reg.MED_SV_CMD x) v) x = following s x := by
  have h : Reg.MED_SV_TANDEM 1 ≠ Reg.MED_SV_CMD x := by revert x; decide
  simp only [following, State.rb, State.reg_setReg_ne _ _ _ _ h]

theorem retarget_of_following {x : Nat} {s : State} (h : following s x = true) (t : Retarget) :
    retarget x t s = svEvent x 5 (s.bump (Reg.MED_SV_REFUSED x)) := if_pos h

theorem retarget_of_refuses {x : Nat} {s : State} (h : following s x = false) (hr : refusesTarget (sv s x) = true)
    (t : Retarget) : retarget x t s = s.bump (Reg.MED_SV_REFUSED x) := by
  rw [retarget, h, if_neg Bool.false_ne_true, if_pos hr]

theorem retarget_of_takes {x : Nat} {s : State} (h : following s x = false) (hr : refusesTarget (sv s x) = false)
    (t : Retarget) : retarget x t s =
      modSv x (fun v => { v with latest := t, fresh := true, settled := false }) (s.bump (Reg.MED_SV_RETARGETS x)) := by
  rw [retarget, h, if_neg Bool.false_ne_true, hr, if_neg Bool.false_ne_true]

/-- A retarget by command while no eft owns the datapath (R376, R388): the engine's refusal raises CMD_REJECT. -/
theorem exec_svCmdRetarget_of_free {s : State} (hl : s.live = true) {x : Fin 2} (h0 : (s.eft (2 * x)).owns = false)
    (h1 : (s.eft (2 * x + 1)).owns = false) (v : BitVec 32) : exec (.svCmdRetarget x v) s = .next
      (if !following s x && refusesTarget (sv s x) then
        svEvent x 5 (retarget x ⟨fld v 23 0, bit v 30, bit v 29⟩ (s.setReg (Reg.MED_SV_CMD x) (v &&& 0x60FFFFFF)))
      else retarget x ⟨fld v 23 0, bit v 30, bit v 29⟩ (s.setReg (Reg.MED_SV_CMD x) (v &&& 0x60FFFFFF))) := by
  simp only [exec, execSvCmdRetarget, State.whenLive_live _ _ hl]
  rw [if_pos (by simp [h0, h1])]

/-! ## Ramp commands -/

/-- A load is refused by an engine that is not OFF, without SPIN_OK, and under FORCE_PARK_N (R363, R384, R569). -/
theorem rampOff_of_refused {x : Nat} {s : State} (h : ((sv s x).st = .off && spinOk s && !forcePark s) = false)
    (t : Retarget) : rampOff x t s = s.bump (Reg.MED_SV_REFUSED x) := by
  simp only [rampOff, h, Bool.false_eq_true, if_false]

theorem rampOn_of_refused {x : Nat} {s : State} (h : (sv s x).st ≠ .tracking) :
    rampOn x s = s.bump (Reg.MED_SV_REFUSED x) := if_neg h

/-- Settles O33: the conditions of each clause choose its branch; a macro-operation finds its unit, its token and its sector. -/
theorem servoCommands : Obligations.ServoCommands := by
  intro s hl
  refine ⟨fun x => ⟨fun h => ?_, fun hn hn' => ?_⟩, fun x => ⟨fun hf hd => ?_, fun hf hd => ?_, fun hf => ?_⟩,
    fun x v h0 h1 => ⟨fun hf hr => ?_, fun hf hr => ?_, fun hf => ?_⟩, fun x v ho => ?_,
    fun x => ⟨?_, fun ha => ?_, fun ha => ?_, ?_⟩, fun e u t hu ht => ⟨fun hd o => ?_, fun p hd hp => ?_⟩,
    fun e u t p hu ht hp => ⟨fun ho hs hp' => ?_, fun h o => ?_⟩, fun e u t hu ht => ⟨fun htr => ?_, fun htr l => ?_⟩⟩
  · simp only [exec, execRampTimeout, State.whenLive_live _ _ hl] -- RAMP_TIMEOUT on the ramp
    rw [if_pos (by simpa using h)]
  · simp only [exec, execRampTimeout, State.whenLive_live _ _ hl] -- RAMP_TIMEOUT elsewhere
    rw [if_neg (by simp [hn, hn'])]
  · simp only [exec, execFaultClr, State.whenLive_live _ _ hl] -- FAULT_CLR of a retracted actuator
    rw [if_pos hf, if_pos hd, clearFault]
  · simp only [exec, execFaultClr, State.whenLive_live _ _ hl] -- FAULT_CLR before the retract's end
    rw [if_pos hf, hd, if_neg Bool.false_ne_true]
  · simp only [exec, execFaultClr, State.whenLive_live _ _ hl] -- FAULT_CLR outside FAULT
    rw [if_neg hf]
  · rw [exec_svCmdRetarget_of_free hl h0 h1, retarget_of_takes hf (by rwa [sv_setReg]), hr, Bool.and_false, -- SV_CMD_RETARGET taken
      if_neg Bool.false_ne_true]
  · rw [exec_svCmdRetarget_of_free hl h0 h1, retarget_of_refuses hf (by rwa [sv_setReg]), hr, -- SV_CMD_RETARGET refused
      ← following_setReg_svCmd x (v &&& 0x60FFFFFF), hf]
    rfl
  · rw [exec_svCmdRetarget_of_free hl h0 h1, retarget_of_following hf, -- SV_CMD_RETARGET in tandem
      ← following_setReg_svCmd x (v &&& 0x60FFFFFF), hf]
    rfl
  · simp only [exec, execSvCmdRetarget, State.whenLive_live _ _ hl] -- SV_CMD_RETARGET while an eft owns the datapath
    rw [if_neg]
    obtain ho | ho := ho <;> simp [ho]
  · exact State.whenLive_live _ _ hl -- TRACE_ARM
  · simp only [exec, execTraceTrigNow, State.whenLive_live _ _ hl, traceTrigger_of_armed ha] -- TRACE_TRIG_NOW
  · simp only [exec, execTraceTrigNow, State.whenLive_live _ _ hl, traceTrigger_of_not_armed ha]
  · exact State.whenLive_live _ _ hl -- TRACE_STOP
  · simp only [exec, execSeek, State.whenLive_live _ _ hl, hu, ht, hd, if_true] -- SEEK, the actuator not available
  · simp only [exec, execSeek, State.whenLive_live _ _ hl, hu, ht, hd, hp, Bool.false_eq_true, if_false] -- SEEK
    refine ⟨fun pes hf => ?_, fun pes hf => ?_, ?_, fun hf => ?_⟩
    · simp only [hf, Bool.false_eq_true, if_false]
    · simp only [hf, if_true]
    · cases following t (e / 2) <;> rfl
    · simp only [hf, Bool.false_eq_true, if_false]
  · have ok : ((sv t (e / 2)).st = .off && spinOk t && !forcePark t) = true := by simp [ho, hs, hp'] -- LOAD
    simp only [exec, execLoad, State.whenLive_live _ _ hl, hu, ht, hp, ok]
    exact ⟨fun _ => rfl, rfl, rfl⟩
  · have refused : ((sv t (e / 2)).st = .off && spinOk t && !forcePark t) = false := by -- LOAD refused
      obtain h | h | h := h <;> simp [h]
    simp only [exec, execLoad, State.whenLive_live _ _ hl, hu, ht, hp, refused, rampOff_of_refused refused, Bool.not_false, if_true]
  · simp only [exec, execUnload, State.whenLive_live _ _ hl, hu, ht, htr] -- UNLOAD
    exact ⟨rfl, rfl⟩
  · simp only [exec, execUnload, State.whenLive_live _ _ hl, hu, ht, htr, rampOn_of_refused htr] -- UNLOAD refused
    rfl

end Sys2Proof.Machine
end

section
/-!
PROOFS. The statements of spec/14_spindle.md: MOT's full-scale register, the actuators' drive, the spindle, and the supplies.
-/

namespace Sys2Proof.Machine

open Sys2Proof

/- So that Lean does not start too many threads. -/
set_option Elab.async false

/-! ## MOT_VCM_FS -/

/-- The register map's row of MOT_VCM_FS: two fields of 12 bits, RW, for any initiator. -/
theorem rowAt_vcmFs : ∃ r, Reg.rowAt Reg.MOT_VCM_FS = some r ∧ r.access = .rw ∧ r.mask = 0x0FFF0FFF ∧ r.act = 0 ∧
    answersTo r Reg.MOT_VCM_FS = .any := by
  exact ⟨_, rfl, rfl, rfl, rfl, rfl⟩

/-- R409: a write of MOT_VCM_FS is the row's plain write while both servo engines are OFF, and CFG_REJECT otherwise. -/
theorem regWrite_vcmFs (r : Reg.Row) (v : Word) (s : State) : regWrite r Reg.MOT_VCM_FS v s =
    if s.medA.sv.st = .off && s.medB.sv.st = .off then plainWrite r Reg.MOT_VCM_FS v s else motEvent 14 s := rfl

/-- Settles O10: the engines' states choose the row's plain write, read off bit by bit, or its refusal. -/
theorem vcmFullScaleWrite : Obligations.VcmFullScaleWrite := by
  intro s k v hl
  obtain ⟨r, hr, hrw, hmask, hact, hany⟩ := rowAt_vcmFs
  have write : exec (.registerWrite (.core k) (BitVec.ofNat 40 Reg.MOT_VCM_FS) 2 (some v)) s =
      .next (if s.medA.sv.st = .off && s.medB.sv.st = .off then
        plainWrite r Reg.MOT_VCM_FS (w32 (v.toNat % 2 ^ 32)) { s with resp := ⟨0, false⟩ }
      else motEvent 14 { s with resp := ⟨0, false⟩ }) := by
    rw [exec_registerWrite_window (.core k) _ _ hl nofun rfl]
    exact congrArg _ ((windowAccess_write_of_any s rfl hr _ hany).trans (regWrite_vcmFs r _ _))
  refine ⟨fun ha hb => ⟨_, write.trans (congrArg _ (if_pos (by simp [ha, hb]))), ?_, ?_, ?_, plainWrite_eq_regs _ _ _ _⟩,
    fun h => write.trans (congrArg _ (if_neg ?_))⟩
  · intro i hi
    have hm : bit r.mask i = true := by rw [hmask]; decide +revert
    rw [bit_plainWrite_rw _ _ _ hrw hact (by omega), hm, if_pos rfl, bit_w32_mod v (by omega)]
  · intro i hi
    have hm : bit r.mask (16 + i) = true := by rw [hmask]; decide +revert
    rw [bit_plainWrite_rw _ _ _ hrw hact (by omega), hm, if_pos rfl, bit_w32_mod v (by omega)]
  · intro a ha
    exact reg_plainWrite_ne _ _ _ _ ha
  · obtain h | h := h <;> simp [h]

/-! ## The actuators' drive -/

/-- The power die's side of an actuator is no part of its servo engine. -/
theorem sv_modAct (x y : Nat) (f : Actuator → Actuator) (s : State) : sv (modAct x f s) y = sv s y := by
  unfold modAct
  split <;> rfl

theorem rampLatched_of_unloading {x : Nat} {s : State} (h : (sv s x).st = .unloading) : rampLatched x s =
    svEnter x .off (modSv x svZero (modAct x (fun a => { a with latched := true }) s)) := by
  simp only [rampLatched, sv_modAct, h, if_true]

theorem rampLatched_of_not_unloading {x : Nat} {s : State} (h : (sv s x).st ≠ .unloading) : rampLatched x s =
    modAct x (fun a => { a with latched := true }) s := by
  simp only [rampLatched, sv_modAct, h, if_false]

/-- A good frame of an actuator that does not retract applies the engine's commands, or none where the engine is down or MOT
fenced (R408, log entry 22). -/
theorem exec_servoLaneFrame_good {x : Fin 2} {s : State} (hr : (actu s x).retract = .none) {active : Bool}
    (ha : (engineUp s x && !s.fenced 6) = active) : exec (.servoLaneFrame x true) s = .next (modAct x (fun a =>
      { a with lastBad := false, armed := active, vcm := if active then (sv s x).vcm else 0,
               ma := if active then (sv s x).ma else 0 }) s) := by
  simp only [exec, execServoLaneFrame, if_true, hr, ha]

/-- Settles O34: the conditions of each clause choose its branch. -/
theorem actuatorDriveCommands : Obligations.ActuatorDriveCommands := by
  intro s
  refine ⟨fun x h => ?_, fun x h => ?_, fun x => ⟨fun h => ?_, fun h => ?_⟩, fun h => ?_, fun x hr hu hf => ?_,
    fun x hr h => ?_, fun x ha hr => ?_, fun up hs hf => ?_, fun h => ?_⟩
  · simp only [exec, execRetractPhaseEnd, h, if_true] -- RETRACT_PHASE_END
  · simp only [exec, execRetractDone, h, if_true] -- RETRACT_DONE
  · simp only [exec, execRampLatched, rampLatched_of_unloading h] -- RAMP_LATCHED of an unload
  · simp only [exec, execRampLatched, rampLatched_of_not_unloading h] -- RAMP_LATCHED
  · simp only [exec, execForceParkAssert, h, if_true] -- FORCE_PARK_ASSERT
  · rw [exec_servoLaneFrame_good hr (active := true) (by simp [hu, hf])] -- SERVO_LANE_FRAME that drives
    rfl
  · rw [exec_servoLaneFrame_good hr (active := false) (by obtain h | h := h <;> simp [h])] -- SERVO_LANE_FRAME that does not
    rfl
  · simp only [exec, execLaneTimeout, ha, if_true] -- LANE_TIMEOUT
  · simp only [exec, execBrakeChopper] -- BRAKE_CHOPPER
    rw [if_neg (by simp [hs, hf]), modMot]
  · simp only [exec, execVmOvervoltage] -- VM_OVERVOLTAGE
    rw [if_pos (by simpa using h), chopperFault, modMot]

/-! ## The spindle -/

/-- A set point in range that no fault and no engine forbids is taken (R396, R399). -/
theorem speedCommand_taken {t : Nat} {s : State} (h0 : t = 0 ∨ 600 ≤ t) (h7 : t ≤ 7200) (hf : t ≠ 0 → s.mot.st ≠ .fault)
    (he : t < 5400 → engineUp s 0 = false ∧ engineUp s 1 = false) : speedCommand t s = newTarget t s := by
  have range : ¬ (1 ≤ t ∧ t ≤ 599) := by omega
  rw [speedCommand]
  refine if_neg ?_
  simp only [Bool.or_eq_true, Bool.and_eq_true, decide_eq_true_eq, not_or]
  refine ⟨⟨⟨range, by omega⟩, fun h => hf h.1 h.2⟩, fun h => ?_⟩
  obtain ⟨hA, hB⟩ := he h.1
  simp [hA, hB] at h

/-- At 540 rpm or more SINE goes on (R397). -/
theorem newSpeed_of_fast {v : Int} (hv : rpm540 ≤ v) (s : State) : newSpeed v s =
    modMot (fun m => { m with act := v, starting := m.starting && decide (v < rpm600) }) s := by
  have : decide (v < rpm540) = false := by simpa using hv
  simp [newSpeed, this]

/-- The Halls of a still spindle show no edge (R395). -/
theorem hallSpeed_of_short (s : State) (bemf : Int) {codes : List Nat} (h : codes.length ≤ 1) : hallSpeed s bemf codes = 0 := by
  obtain _ | ⟨c, _ | ⟨d, l⟩⟩ := codes
  · rfl
  · rfl
  · simp at h

/-- Neither the Halls nor the back-EMF show a movement (R395). -/
theorem detectSpeed_still {s : State} {o : DetectObs} (hc : o.codes.length ≤ 1) (ha : o.amp.toNat < motKe s * 30)
    (hb : o.bemf.toInt.natAbs ≤ 1600) : detectSpeed s o = 0 := by
  have h : hallSpeed s o.bemf.toInt (o.codes.map (·.toNat)) = 0 := hallSpeed_of_short _ _ (by simpa using hc)
  simp only [detectSpeed, h, ha, Nat.not_lt.2 hb, if_true, if_false, decide_true, Bool.or_true]

/-- Above 100 rpm the back-EMF governs (R395). -/
theorem detectSpeed_fast {s : State} {o : DetectObs} (h : 1600 < o.bemf.toInt.natAbs) : detectSpeed s o = o.bemf.toInt :=
  if_pos h

/-- DETECT that ends with TARGET 0 leaves a still spindle STOPPED and a turning one to coast (R395, log entry 29). -/
theorem exec_detectEnd_of_no_target {s : State} (hs : s.mot.st = .detect) (ht : spdTarget s = 0) {o : DetectObs} {v : Int}
    (hv : detectSpeed s o = v) : exec (.detectEnd o) s = .next (enterSpin (if v = 0 then .stopped else .coast)
      { s with mot := { s.mot with det := if v = 0 then 1 else if 0 < v then 2 else 3, act := v, dir := decide (v < 0) } }) := by
  simp only [exec, execDetectEnd, hs, hv]
  exact congrArg _ (if_pos ht)

/-- A current that fits its register is shown as it is. -/
theorem fit16_of_fits {v : Int} (hl : -32768 ≤ v) (hh : v ≤ 32767) (s : State) : fit16 v s = (unsigned 16 v, s) :=
  if_pos (by simp [hl, hh])

/-- MOT is as it was when a register is written. -/
theorem modMot_setReg (f : Mot → Mot) (s : State) (a : Nat) (v : Word) :
    modMot f (s.setReg a v) = { s.setReg a v with mot := f s.mot } :=
  congrArg (fun m => { s.setReg a v with mot := f m }) (State.setReg_mot s a v)

/-- In HALL6 a period with a good code and no trip shows the conducting pair's currents (R402, R404). -/
theorem exec_pwmPeriod_hall6 {s : State} {o : PwmObs} (hs : s.mot.st = .hall6) (hhl : o.high ≠ o.low) (htr : o.trip = false)
    (h0 : o.code ≠ 0) (h7 : o.code ≠ 7) {i : Int × Int} (hi : phaseCurrents o false = i) (ha : i.1 ≤ 32767)
    (ha' : -32768 ≤ i.1) (hb : i.2 ≤ 32767) (hb' : -32768 ≤ i.2) : exec (.pwmPeriod o) s = .next
      { s.setReg Reg.MOT_PHASE_I (BitVec.ofNat 32 (unsigned 16 i.1 + unsigned 16 i.2 * 2 ^ 16)) with
        mot := { s.mot with badCodes := 0 } } := by
  have shownA : fit16 i.1 s = (unsigned 16 i.1, s) := fit16_of_fits ha' ha s
  have shownB : fit16 i.2 s = (unsigned 16 i.2, s) := fit16_of_fits hb' hb s
  simp only [exec, execPwmPeriod, hs, spinDriven, hhl, htr, h0, h7, hi, reduceCtorEq, decide_false, Bool.or_false,
    Bool.false_and, Bool.not_true, Bool.false_eq_true, if_false, shownA, shownB]
  rw [modMot_setReg, hs]

/-- Settles O35: the conditions of each clause choose its branch. -/
theorem spindleCommands : Obligations.SpindleCommands := by
  intro s
  refine ⟨fun v hl h0 h7 hf he => ?_, fun rev hd ha => ?_, fun act emf iq b hs hv hk => ?_,
    fun o hs ht => ⟨fun hc ha hb => ?_, fun hb => ?_⟩, fun hs => ?_, fun hs hd => ?_, fun hs => ?_, fun hs => ?_,
    fun o h0 h1 hs => ?_, fun o hs hhl htr h0 h7 => ?_⟩
  · simp only [exec, execSpeedCommand, State.whenLive_live _ _ hl, speedCommand_taken h0 h7 hf he] -- SPEED_COMMAND
  · simp only [exec, execSpeedRefTick] -- SPEED_REF_TICK
    rw [if_pos (by simp [hd, ha])]
  · simp only [exec, execSpeedLoopTick, newSpeed_of_fast hv, modMot, hs, Nat.not_lt.2 hk, decide_false, -- SPEED_LOOP_TICK
      Bool.and_false]
    simp only [reduceCtorEq, decide_false, Bool.false_and, Bool.false_eq_true, if_false, motLimit]
    rfl
  · rw [exec_detectEnd_of_no_target hs ht (detectSpeed_still hc ha hb)] -- DETECT_END of a still spindle
    rfl
  · have hne : o.bemf.toInt ≠ 0 := by omega -- DETECT_END of a turning one
    rw [exec_detectEnd_of_no_target hs ht (detectSpeed_fast hb), if_neg hne, if_neg hne]
  · simp only [exec, execStopDetected, hs, modMot] -- STOP_DETECTED
  · simp only [exec, execStartTimeout] -- START_TIMEOUT
    rw [if_pos (by simp [hs, hd])]
  · simp only [exec, execRelockTimeout, hs, if_true] -- RELOCK_TIMEOUT
  · simp only [exec, execAlignEnd, hs, if_true, modMot] -- ALIGN_END
  · simp only [exec, execHallEdge, h0, h1, hs, Bool.false_eq_true, if_false] -- HALL_EDGE
  · exact exec_pwmPeriod_hall6 hs hhl htr h0 h7 rfl -- PWM_PERIOD

/-! ## The supplies and the power-up -/

/-- A fall of an input leaves a power-up that is past its waits where it is (R412, R550). -/
theorem exec_inputDip_up {s : State} (v12 : Bool) (h : s.pwr.powerUp = .up) : exec (.inputDip v12) s = .next { s with
    pwr := if v12 then { s.pwr with vin12Good := false } else { s.pwr with vin5Good := false }
    mot := { s.mot with dip := true } } := by
  cases v12 <;> simp only [exec, execInputDip, modPwr, modMot, h, if_true, Bool.false_eq_true, if_false]

/-- Settles O50: the power-up's state and the conditions of each clause choose its branch. -/
theorem supplyCommands : Obligations.SupplyCommands := by
  intro s
  refine ⟨exec_inputDip_up, fun h hd hb hh => ?_, fun hd hi => ?_, rfl, rfl, rfl, fun hb hi hp hq => ?_, fun h hi hs => ?_,
    fun h ht => ?_, fun h ht => ?_, fun h => ?_, fun h => ?_, fun k h hk hn => ?_, fun h hp hr hq => ?_, fun k h => ?_,
    fun k h => ?_⟩
  · simp only [exec, execInputGood, modPwr, modMot, hd, hb, hh, h, Bool.false_and, Bool.or_self, -- INPUT_GOOD
      Bool.false_eq_true, if_false]
  · simp only [exec, execPowerLoss, modMot, hd, hi, Bool.not_false, Bool.and_self, if_true] -- POWER_LOSS
  · simp only [exec, execInputGoodBoot, modPwr, modMot] -- INPUT_GOOD_BOOT
    rw [if_pos (by simp [hb, hi, hp, hq])]
  · simp only [exec, execPowerUpStart, modPwr, h] -- POWER_UP_START
    rw [if_pos (by cases hc : s.rb Reg.PWR_CTRL 1 <;> simp [hi, hs, hc])]
  · simp only [exec, execRampFailure, modPwr, h] -- RAMP_FAILURE with a retry left
    rw [if_neg (by omega), Nat.min_eq_right (by omega)]
  · simp only [exec, execRampFailure, modPwr, h, ht] -- RAMP_FAILURE of the third ramp
    rfl
  · simp only [exec, execRampRetry, modPwr, h] -- RAMP_RETRY
  · simp only [exec, execVmGood, modPwr, h] -- VM_GOOD
  · simp only [exec, execRailSequenceStep, modPwr, h, hn, Nat.not_le.2 hk, Bool.false_eq_true, if_false] -- RAIL_SEQUENCE_STEP
  · simp only [exec, execColdResetRelease, modPwr, h, hp, hr, hq] -- COLD_RESET_RELEASE
    rfl
  · simp only [exec, execRailFault, h] -- RAIL_FAULT
  · simp only [exec, execRailFaultRestart, modPwr, h] -- RAIL_FAULT_RESTART

end Sys2Proof.Machine
end

section
/-!
PROOFS. The statements of spec/15_budget_thermal.md: the budget arbiter's grants, and heat, power and budget.
-/

namespace Sys2Proof.Machine

open Sys2Proof

/- So that Lean does not start too many threads. -/
set_option Elab.async false

/-! ## The grants of a window -/

/-- Shares of a pool by weight, each rounded down, add up to no more than it. -/
theorem sum_shares_le {α : Type} (l : List α) (w : α → Nat) (pool total : Nat) :
    (l.map fun f => pool * w f / total).sum ≤ pool * (l.map w).sum / total := by
  induction l with
  | nil => simp
  | cons f l ih =>
    calc _ ≤ pool * w f / total + pool * (l.map w).sum / total := by simpa using ih
      _ ≤ (pool * w f + pool * (l.map w).sum) / total := Nat.div_add_div_le_add_div ..
      _ = _ := by rw [List.map_cons, List.sum_cons, Nat.mul_add]

/-- What a function may be granted on top of the grants so far `g` (R430). -/
def grantRoom (s : State) (g : List Nat) (f : Nat) : Int := baMax s f - balance s f - (g.getD (f - 2) 0 : Int)

/-- The functions that a pass gives to. -/
def granted (s : State) (g : List Nat) (f : Nat) : Bool := 0 < baWeight s f && 0 < grantRoom s g f

/-- The weights of the functions that a pass gives to. -/
def grantWeight (s : State) (g : List Nat) : Nat := ((metered.filter (granted s g)).map (baWeight s)).sum

/-- What a pass gives a function. -/
def grantAdd (s : State) (g : List Nat) (pool f : Nat) : Nat :=
  if granted s g f then min (pool * baWeight s f / grantWeight s g) (grantRoom s g f).toNat else 0

theorem grantAdd_eq_zero {s : State} {g : List Nat} {f : Nat} (h : granted s g f = false) (pool : Nat) :
    grantAdd s g pool f = 0 := by simp [grantAdd, h]

/-- A pass gives no more than the pool: the shares by weight add up to no more. -/
theorem sum_grantAdd_le (s : State) (g : List Nat) (pool : Nat) : (metered.map (grantAdd s g pool)).sum ≤ pool := by
  calc (metered.map (grantAdd s g pool)).sum
      ≤ (metered.map fun f => if granted s g f then pool * baWeight s f / grantWeight s g else 0).sum :=
        List.sum_le_sum fun f _ => by unfold grantAdd; split <;> simp
    _ = ((metered.filter (granted s g)).map fun f => pool * baWeight s f / grantWeight s g).sum := by
        rw [List.sum_map_ite]; simp
    _ ≤ pool * grantWeight s g / grantWeight s g := sum_shares_le ..
    _ ≤ pool := Nat.div_le_of_le_mul (Nat.mul_comm ..).le

/-- Four grants are the grants of the four metered functions. -/
theorem map_metered_getD {g : List Nat} (hg : g.length = 4) : (metered.map fun f => g.getD (f - 2) 0) = g := by
  obtain ⟨a, b, c, d, rfl⟩ := List.length_eq_four.1 hg
  rfl

/-- A pass adds to each function's grant what it gives, and takes it from the pool. -/
theorem grantPass_eq (s : State) {g : List Nat} (hg : g.length = 4) (pool : Nat) : grantPass s g pool =
    (metered.map fun f => g.getD (f - 2) 0 + grantAdd s g pool f, pool - (metered.map (grantAdd s g pool)).sum) := by
  by_cases h : ((metered.filter (granted s g)).isEmpty || decide (pool = 0)) = true
  · have none_given : ∀ f ∈ metered, grantAdd s g pool f = 0 := by
      intro f hf
      rcases Bool.or_eq_true_iff.1 h with he | hp
      · exact grantAdd_eq_zero (by simpa using List.filter_eq_nil_iff.1 (List.isEmpty_iff.1 he) f hf) pool
      · rw [of_decide_eq_true hp]
        simp [grantAdd]
    rw [List.map_congr_left none_given, List.map_congr_left fun f hf => by rw [none_given f hf, Nat.add_zero],
      map_metered_getD hg]
    exact (if_pos h).trans (by simp)
  · have given : ∀ f ∈ metered, (if (metered.filter (granted s g)).contains f then
        min (pool * baWeight s f / grantWeight s g) (grantRoom s g f).toNat else 0) = grantAdd s g pool f := by
      intro f hf
      simp [grantAdd, List.mem_filter, hf]
    refine (if_neg h).trans ?_
    rw [← List.sum_eq_foldl, ← List.sum_eq_foldl]
    exact congrArg₂ _ (List.map_congr_left fun f hf => congrArg (_ + ·) (given f hf))
      (congrArg (pool - List.sum ·) (List.map_congr_left given))

/-- The grant of a metered function in a list of theirs. -/
theorem getD_map_metered (v : Nat → Nat) {f : Nat} (hf : f ∈ metered) : (metered.map v).getD (f - 2) 0 = v f := by
  simp only [metered, List.mem_cons, List.not_mem_nil, or_false] at hf
  obtain rfl | rfl | rfl | rfl := hf <;> rfl

/-- What holds of the grants of the four functions and the pool that is left, after any number of passes (R430). -/
structure GrantsFit (s : State) (pool : Nat) (g : List Nat) (left : Nat) : Prop where
  length : g.length = 4
  sum : g.sum + left ≤ pool
  fits : ∀ f ∈ metered, g.getD (f - 2) 0 ≠ 0 → baWeight s f ≠ 0 ∧ balance s f + g.getD (f - 2) 0 ≤ baMax s f

theorem GrantsFit.nothing (s : State) (pool : Nat) : GrantsFit s pool [0, 0, 0, 0] pool where
  length := rfl
  sum := by simp
  fits := fun _ hf hne => absurd (getD_map_metered (fun _ => 0) hf) hne

/-- A pass keeps the grants fitting: it gives no more than is left, and a function no more than its room. -/
theorem GrantsFit.grantPass {s : State} {pool left : Nat} {g : List Nat} (h : GrantsFit s pool g left) :
    GrantsFit s pool (grantPass s g left).1 (grantPass s g left).2 := by
  rw [grantPass_eq s h.length]
  refine ⟨by simp [metered], ?_, fun f hf => ?_⟩
  · have given := sum_grantAdd_le s g left
    have before := h.sum
    have hsum : (metered.map fun f => g.getD (f - 2) 0).sum = g.sum := congrArg List.sum (map_metered_getD h.length)
    rw [List.sum_map_add, hsum]
    omega
  · rw [getD_map_metered _ hf]
    intro hne
    cases hg : granted s g f with
    | false =>
      rw [grantAdd_eq_zero hg, Nat.add_zero] at hne ⊢
      exact h.fits f hf hne
    | true =>
      simp only [granted, Bool.and_eq_true, decide_eq_true_eq] at hg
      have within : grantAdd s g left f ≤ (grantRoom s g f).toNat := by
        unfold grantAdd
        split
        · exact Nat.min_le_right ..
        · exact Nat.zero_le _
      refine ⟨hg.1.ne', ?_⟩
      unfold grantRoom at hg within
      omega

/-- Settles O59: two passes from no grants keep them fitting. -/
theorem budgetGrantsFit : Obligations.BudgetGrantsFit := by
  intro s pool
  have fit : GrantsFit s pool (windowGrants s pool) _ := (GrantsFit.nothing s pool).grantPass.grantPass
  refine ⟨fit.length, by have := fit.sum; omega, fun f h2 h5 => ?_⟩
  have fits := fit.fits f (by simp [metered]; omega)
  refine ⟨fun full => ?_, fun hne => (fits hne).2⟩
  by_contra hne
  obtain ⟨hw, hb⟩ := fits hne
  omega

/-! ## Heat, power and AVFS -/

/-- The readings alone are kept while quenched (R426). -/
theorem exec_sensorSample_quenched {s : State} {l : List (Option (BitVec 16))}
    (h : ((List.range 20).foldl (takeReading l) s).bud.quenched ≠ none) :
    exec (.sensorSample l) s = .next ((List.range 20).foldl (takeReading l) s) :=
  congrArg _ (if_pos (Option.isSome_iff_ne_none.2 h))

/-- While not quenched, the first sensor at its threshold for the second sample running quenches (R425). -/
theorem exec_sensorSample {s f : State} {l : List (Option (BitVec 16))} {now : List Bool}
    (h : ((List.range 20).foldl (takeReading l) s).bud.quenched = none)
    (hf : fastMode ((List.range 20).foldl crossCheck ((List.range 20).foldl (takeReading l) s)) = f)
    (hn : (List.range 20).map (quenchHot f) = now) :
    exec (.sensorSample l) s = .next (((List.range 20).find? fun k => f.bud.hot.getD k false && now.getD k false).elim
      { f with bud := { f.bud with hot := now } } (quench · { f with bud := { f.bud with hot := now } })) := by
  subst hf hn
  refine congrArg _ ((if_neg (by simp [h])).trans ?_)
  dsimp only
  generalize List.find? _ _ = o
  cases o <;> rfl

/-- Of the twenty bits of a re-arm, the mask of one sensor sets its own (R424). -/
theorem filter_getLsbD_one_shift_20 (k : Fin 20) :
    (List.range 20).filter ((1 <<< k.val : Nat) : BitVec 20).getLsbD = [k.val] := by
  revert k
  decide

/-- The step of the AVFS loop at the least slack `low`: VCODE, FREQ and the two counts (R439). -/
def avfsMove (s : State) (low : Nat) : Nat × Nat × Nat × Nat :=
  let v := s.rf Reg.AV_STATUS 6 0
  let f := s.rf Reg.AV_STATUS 27 16
  if low < s.rf Reg.AV_CTRL 15 8 then (if v < 80 then (v + 1, f, 0, s.bud.avLim) else (v, f, 0, s.bud.avLim + 1))
  else if s.rf Reg.AV_CTRL 23 16 < low then
    (if s.bud.avHi + 1 = 100 then (if f < freqReq s then (v, f + 50, 0, s.bud.avLim) else (v - 1, f, 0, s.bud.avLim))
     else (v, f, s.bud.avHi + 1, s.bud.avLim))
  else (v, f, 0, s.bud.avLim)

section
variable {s t : State} {slack : List (BitVec 8)} {low : Nat × Nat} {v f hi lim : Nat}

/-- The loop's step where the limit count stays below ten (R439). -/
theorem exec_avfsTick_of_move (hl : s.live = true) (hc : s.rb Reg.AV_CTRL 0 = true)
    (hlow : ((List.range 8).map fun m => ((slack.getD m 0).toNat, m)).foldl (fun a b => if b.1 < a.1 then b else a)
      (256, 0) = low)
    (ht : s.setReg Reg.AV_SLACK (BitVec.ofNat 32 (low.1 % 256 + low.2 * 2 ^ 8)) = t)
    (hm : avfsMove t low.1 = (v, f, hi, lim)) (hlim : lim ≠ 10) :
    exec (.avfsTick slack) s = .next (setAv v (min f (freqReq t)) (t.rb Reg.AV_STATUS 31)
      { t with bud := { t.bud with avHi := hi, avLim := lim } }) := by
  unfold avfsMove at hm
  simp only [exec, execAvfsTick, State.whenLive_live _ _ hl, hc, Bool.not_true, Bool.false_eq_true, if_false, hlow, ht] at hm ⊢
  simp only [hm, if_neg hlim]

/-- The loop's step at the tenth read below the lower limit (R439). -/
theorem exec_avfsTick_of_tenth (hl : s.live = true) (hc : s.rb Reg.AV_CTRL 0 = true)
    (hlow : ((List.range 8).map fun m => ((slack.getD m 0).toNat, m)).foldl (fun a b => if b.1 < a.1 then b else a)
      (256, 0) = low)
    (ht : s.setReg Reg.AV_SLACK (BitVec.ofNat 32 (low.1 % 256 + low.2 * 2 ^ 8)) = t)
    (hm : avfsMove t low.1 = (v, f, hi, 10)) :
    exec (.avfsTick slack) s = .next (let r := raise 214 (t.bump Reg.AV_LIMITS)
      setAv v (min (max 400 (f - 50)) (freqReq r)) true { r with bud := { r.bud with avHi := hi, avLim := 0 } }) := by
  unfold avfsMove at hm
  simp only [exec, execAvfsTick, State.whenLive_live _ _ hl, hc, Bool.not_true, Bool.false_eq_true, if_false, hlow, ht] at hm ⊢
  simp only [hm, if_true]
end

/-- Settles O36: the conditions of each clause choose its branch, and of the AVFS loop its step. -/
theorem thermalCommands : Obligations.ThermalCommands := by
  intro s
  refine ⟨fun duty hl => ?_, fun l => ⟨exec_sensorSample_quenched, fun hq hc => ?_, fun k hk hq hw hn hj => ?_⟩,
    fun k peak hq => ⟨fun hc => ?_, fun j hj hu hh => ?_⟩, fun k hl hb => ?_, fun p12 meters hl => ?_,
    fun slack hl hc => ?_, fun slack low hl hc hlow hlim => ?_, fun slack low hl hc hlow hlim hx hv => ?_, fun hl => ?_⟩
  · simp only [exec, execModelStep, State.whenLive_live _ _ hl] -- MODEL_STEP
  · rw [exec_sensorSample hq rfl rfl, List.find?_eq_none.2] -- SENSOR_SAMPLE with no sensor hot twice
    · rfl
    · exact fun k hk => Bool.eq_false_iff.1 (Bool.and_eq_false_iff.2 (hc k (List.mem_range.1 hk)))
  · rw [exec_sensorSample hq rfl rfl, List.find?_range_eq_some.2 -- SENSOR_SAMPLE that quenches
      ⟨Bool.and_eq_true_iff.2 ⟨hw, hn⟩, List.mem_range.2 hk, ?_⟩]
    · rfl
    · exact fun j hjk => by rw [Bool.and_eq_false_iff.2 (hj j hjk), Bool.not_false]
  · simp only [exec, execQuenchCooled, hq] -- QUENCH_COOLED with every usable sensor cool
    rw [if_pos]
    simpa [or_iff_not_imp_left] using hc
  · simp only [exec, execQuenchCooled, hq] -- QUENCH_COOLED before that
    rw [if_neg]
    intro cool
    have hot := List.all_eq_true.1 cool j (List.mem_range.2 hj)
    simp [hu, Int.not_lt.2 hh] at hot
  · simp only [exec, execSensorRearm, State.whenLive_live _ _ hl, State.aonWrite, hb, Bool.false_eq_true, -- SENSOR_REARM
      if_false]
    rw [← List.foldl_filter, filter_getLsbD_one_shift_20]
    rfl
  · simp only [exec, execBudgetWindow, State.whenLive_live _ _ hl] -- BUDGET_WINDOW
  · simp only [exec, execAvfsTick, State.whenLive_live _ _ hl, hc, Bool.not_false, if_true] -- AVFS_TICK with the loop off
    simp [setAv, b2n]
  · have below : s.bud.avLim ≠ 10 := by omega -- AVFS_TICK
    refine ⟨fun hx hv => ?_, fun hx hv => ?_, fun hx hy => ?_, fun hx hy hh => ?_, fun hx hy hh hf => ?_,
      fun hx hy hh hf => ?_⟩
    · exact exec_avfsTick_of_move hl hc hlow rfl ((if_pos hx).trans (if_pos hv)) below
    · exact exec_avfsTick_of_move hl hc hlow rfl ((if_pos hx).trans (if_neg (Nat.not_lt.2 hv)))
        (fun h => hlim.ne (Nat.succ.inj h))
    · exact exec_avfsTick_of_move hl hc hlow rfl ((if_neg (Nat.not_lt.2 hx)).trans (if_neg (Nat.not_lt.2 hy))) below
    · refine exec_avfsTick_of_move hl hc hlow rfl ((if_neg (Nat.not_lt.2 hx)).trans ((if_pos hy).trans ?_)) below
      exact if_neg fun h => hh (Nat.succ.inj h)
    · refine exec_avfsTick_of_move hl hc hlow rfl ((if_neg (Nat.not_lt.2 hx)).trans ((if_pos hy).trans ?_)) below
      exact (if_pos (congrArg Nat.succ hh)).trans (if_neg (Nat.not_lt.2 hf))
    · refine exec_avfsTick_of_move hl hc hlow rfl ((if_neg (Nat.not_lt.2 hx)).trans ((if_pos hy).trans ?_)) below
      exact (if_pos (congrArg Nat.succ hh)).trans (if_pos hf)
  · refine exec_avfsTick_of_tenth hl hc hlow rfl ((if_pos hx).trans ((if_neg (Nat.not_lt.2 hv)).trans ?_)) -- the tenth low read
    rw [State.setReg_bud, hlim]
  · simp only [exec, execCoreDroop, State.whenLive_live _ _ hl] -- CORE_DROOP

end Sys2Proof.Machine
end

section
/-!
PROOFS. The statements of spec/17_memory_ecc.md: the 80/64 code at work, and memory protection and DRAM.
-/

namespace Sys2Proof.Machine

open Sys2Proof

/-! ## Values of the 80/64 code

Unlike those of the sections beside it these theorems are elaborated with threads, on purpose: 26 of them wait for the check of the
first, one thread each, so that the compile of the whole text ends with 34 to 36 threads. Without this it ends with 32 to 35 by
chance, and with just 33 the memory limit of check.sh leaves Lean no room to write its result, which is larger than 128 MiB. -/

/-- Product with 2 of a symbol (R459). -/
def double (v : Nat) : Nat := (2 * v % 256) ^^^ (v / 128 * 0x1D)

/-- A doubling undone. -/
def halve (v : Nat) : Nat := if v % 2 = 0 then v / 2 else (v ^^^ 0x11D) / 2

theorem eccDecode_lastPlace : ∀ x : Fin 96, eccDecode (BitVec.ofNat 80 ((x + 1) * 2 ^ 72)) = .corrected 9 0 := by decide +kernel

theorem eccDecode_noneWrong : eccDecode 0 = .clean := by decide +kernel

theorem eccDecode_twoWrong : eccDecode 0x005A00000000000000FF = .uncorrectable := by decide +kernel

theorem eccCheck_one : eccCheck 1 = (127, 126) := by decide +kernel

/-! The factors of the ten places: the powers of 2 up to the 7th; the 8th and 9th are the polynomial's remainders. -/

theorem gf8Pow_two_zero : gf8Pow 2 0 = 2 ^ 0 := by decide +kernel
theorem gf8Pow_two_one : gf8Pow 2 1 = 2 ^ 1 := by decide +kernel
theorem gf8Pow_two_two : gf8Pow 2 2 = 2 ^ 2 := by decide +kernel
theorem gf8Pow_two_three : gf8Pow 2 3 = 2 ^ 3 := by decide +kernel
theorem gf8Pow_two_four : gf8Pow 2 4 = 2 ^ 4 := by decide +kernel
theorem gf8Pow_two_five : gf8Pow 2 5 = 2 ^ 5 := by decide +kernel
theorem gf8Pow_two_six : gf8Pow 2 6 = 2 ^ 6 := by decide +kernel
theorem gf8Pow_two_seven : gf8Pow 2 7 = 2 ^ 7 := by decide +kernel
theorem gf8Pow_two_eight : gf8Pow 2 8 = 2 ^ 4 ^^^ 2 ^ 3 ^^^ 2 ^ 2 ^^^ 2 ^ 0 := by decide +kernel
theorem gf8Pow_two_nine : gf8Pow 2 9 = 2 ^ 5 ^^^ 2 ^ 4 ^^^ 2 ^ 3 ^^^ 2 ^ 1 := by decide +kernel

/-! A doubling is a shift and the polynomial's remainder; it leaves a symbol, and is undone. Eight doublings are the sum of four,
three, two and none, as the polynomial has it. -/

theorem shift_eq_double :
    ∀ y : Fin 256, (if (y : Nat).testBit 7 then (y : Nat) <<< 1 ^^^ 0x11D else (y : Nat) <<< 1) = double y := by decide +kernel
theorem double_lt : ∀ y : Fin 256, double y < 256 := by decide +kernel
theorem halve_double : ∀ y : Fin 256, halve (double y) = y := by decide +kernel
theorem double_eight : ∀ y : Fin 256, double^[4] y ^^^ double^[3] y ^^^ double^[2] y ^^^ double^[0] y = double^[8] y := by
  decide +kernel

/-! Up to nine doublings do not lead a symbol other than 0 back to itself. -/

theorem double_one_ne : ∀ y : Fin 256, 0 < y → double^[1] y ≠ y := by decide +kernel
theorem double_two_ne : ∀ y : Fin 256, 0 < y → double^[2] y ≠ y := by decide +kernel
theorem double_three_ne : ∀ y : Fin 256, 0 < y → double^[3] y ≠ y := by decide +kernel
theorem double_four_ne : ∀ y : Fin 256, 0 < y → double^[4] y ≠ y := by decide +kernel
theorem double_five_ne : ∀ y : Fin 256, 0 < y → double^[5] y ≠ y := by decide +kernel
theorem double_six_ne : ∀ y : Fin 256, 0 < y → double^[6] y ≠ y := by decide +kernel
theorem double_seven_ne : ∀ y : Fin 256, 0 < y → double^[7] y ≠ y := by decide +kernel
theorem double_eight_ne : ∀ y : Fin 256, 0 < y → double^[8] y ≠ y := by decide +kernel
theorem double_nine_ne : ∀ y : Fin 256, 0 < y → double^[9] y ≠ y := by decide +kernel

/- So that Lean does not start too many threads. -/
set_option Elab.async false

/-! ## The 80/64 code on one wrong symbol -/

/-- The symbols of a pattern that is wrong in symbol `j` alone. -/
theorem symbolOf_single {j x : Nat} (hj : j < 10) (hx : x < 256) (i : Nat) :
    symbolOf (BitVec.ofNat 80 (x * 2 ^ (8 * j))) i = if i = j then x else 0 := by
  have fits : x * 2 ^ (8 * j) < 2 ^ 80 := calc
    x * 2 ^ (8 * j) < 2 ^ 8 * 2 ^ (8 * j) := Nat.mul_lt_mul_of_pos_right hx (by positivity)
    _ = 2 ^ (8 + 8 * j) := (pow_add ..).symm
    _ ≤ 2 ^ 80 := Nat.pow_le_pow_right (by omega) (by omega)
  rw [symbolOf, BitVec.toNat_ofNat, Nat.mod_eq_of_lt fits]
  rcases lt_trichotomy i j with h | rfl | h
  · obtain ⟨d, rfl⟩ := Nat.exists_eq_add_of_lt h
    rw [if_neg (by omega), show x * 2 ^ (8 * (i + d + 1)) = (x * 2 ^ (8 * d) * 256) * 2 ^ (8 * i) by ring,
      Nat.mul_div_cancel _ (by positivity), Nat.mul_mod_left]
  · rw [if_pos rfl, Nat.mul_div_cancel _ (by positivity), Nat.mod_eq_of_lt hx]
  · obtain ⟨d, rfl⟩ := Nat.exists_eq_add_of_lt h
    rw [if_neg (by omega), show 8 * (j + d + 1) = 8 * (d + 1) + 8 * j by ring, pow_add,
      Nat.mul_div_mul_right _ _ (by positivity), Nat.div_eq_of_lt, Nat.zero_mod]
    calc x < 2 ^ 8 := hx
      _ ≤ 2 ^ (8 * (d + 1)) := Nat.pow_le_pow_right (by omega) (by omega)

/-- Of a sum with one summand that is not 0, that summand remains. -/
theorem foldl_xor_single (f : Nat → Nat) {j n : Nat} (hj : j < n) (h : ∀ i, i ≠ j → f i = 0) :
    (List.range n).foldl (fun a i => a ^^^ f i) 0 = f j := by
  have upTo : ∀ m, (List.range m).foldl (fun a i => a ^^^ f i) 0 = if j < m then f j else 0 := by
    intro m
    induction m with
    | zero => rfl
    | succ m ih =>
      rw [List.range_succ, List.foldl_append, ih, List.foldl_cons, List.foldl_nil]
      rcases lt_trichotomy j m with hm | rfl | hm
      · rw [if_pos hm, if_pos (by omega), h m (by omega), Nat.xor_zero]
      · rw [if_neg (by omega), if_pos (by omega), Nat.zero_xor]
      · rw [if_neg (by omega), if_neg (by omega), h m (by omega), Nat.xor_zero]
  rw [upTo, if_pos hj]

theorem gf8Mul_zero_left (b : Nat) : gf8Mul 0 b = 0 := by
  have none_added : ∀ n, clmul n 0 b = 0 := by
    intro n
    induction n with
    | zero => rfl
    | succ n ih => simp [clmul, ih]
  rw [gf8Mul, none_added]
  rfl

theorem double_spec {x : Nat} (hx : x < 256) :
    (if x.testBit 7 then x <<< 1 ^^^ 0x11D else x <<< 1) = double x ∧ double x < 256 ∧ halve (double x) = x :=
  ⟨shift_eq_double ⟨x, hx⟩, double_lt ⟨x, hx⟩, halve_double ⟨x, hx⟩⟩

/-- The remainder of a symbol shifted up `j` places is the symbol doubled `j` times. -/
theorem polyMod_shiftLeft (j : Nat) {x : Nat} (hx : x < 256) : polyMod 8 0x11D j (x <<< j) = double^[j] x := by
  induction j generalizing x with
  | zero => rfl
  | succ j ih =>
    obtain ⟨remainder, symbol, -⟩ := double_spec hx
    have top : (x <<< (j + 1)).testBit (8 + j) = x.testBit 7 := by
      rw [Nat.testBit_shiftLeft, decide_eq_true (by omega), Bool.true_and, show 8 + j - (j + 1) = 7 by omega]
    have shifted : x <<< (j + 1) = (x <<< 1) <<< j := by rw [← Nat.shiftLeft_add, Nat.add_comm]
    rw [polyMod, top, shifted, ← Nat.shiftLeft_xor_distrib, ← apply_ite (· <<< j), Function.iterate_succ_apply, remainder,
      ih symbol]

/-- Steps above the highest place that a number can have do nothing. -/
theorem polyMod_of_lt {j n a : Nat} (hj : j ≤ n) (ha : a < 2 ^ (8 + j)) : polyMod 8 0x11D n a = polyMod 8 0x11D j a := by
  induction n, hj using Nat.le_induction with
  | base => rfl
  | succ n hn ih =>
    have low : a.testBit (8 + n) = false := Nat.testBit_lt_two_pow (ha.trans_le (Nat.pow_le_pow_right (by omega) (by omega)))
    rw [polyMod, low, if_neg Bool.false_ne_true, ih]

theorem polyMod_xor (n a b : Nat) : polyMod 8 0x11D n (a ^^^ b) = polyMod 8 0x11D n a ^^^ polyMod 8 0x11D n b := by
  induction n generalizing a b with
  | zero => rfl
  | succ n ih =>
    simp only [polyMod, Nat.testBit_xor, ← ih]
    congr 1
    cases a.testBit (8 + n) <;> cases b.testBit (8 + n) <;> simp [Nat.xor_assoc, Nat.xor_comm, Nat.xor_left_comm]

theorem clmul_two_pow (n a j : Nat) : clmul n a (2 ^ j) = if j < n then a <<< j else 0 := by
  induction n with
  | zero => rfl
  | succ n ih =>
    rw [clmul, ih, Nat.testBit_two_pow]
    rcases lt_trichotomy j n with h | rfl | h
    · simp [h, h.ne, Nat.lt_succ_of_lt h]
    · simp
    · simp [h.ne', Nat.not_lt.2 h.le, Nat.not_lt.2 (Nat.succ_le_of_lt h)]

theorem clmul_xor (n a b c : Nat) : clmul n a (b ^^^ c) = clmul n a b ^^^ clmul n a c := by
  induction n with
  | zero => exact (Nat.xor_self 0).symm
  | succ n ih =>
    rw [clmul, clmul, clmul, ih, Nat.testBit_xor]
    cases b.testBit n <;> cases c.testBit n <;> simp [Nat.xor_assoc, Nat.xor_comm, Nat.xor_left_comm]

theorem gf8Mul_xor (a b c : Nat) : gf8Mul a (b ^^^ c) = gf8Mul a b ^^^ gf8Mul a c := by
  rw [gf8Mul, gf8Mul, gf8Mul, clmul_xor, polyMod_xor]

section
variable {x : Nat} (hx : x < 256)
include hx

theorem gf8Mul_two_pow {j : Nat} (hj : j < 8) : gf8Mul x (2 ^ j) = double^[j] x := by
  rw [gf8Mul, clmul_two_pow, if_pos hj, polyMod_of_lt hj.le, polyMod_shiftLeft j hx]
  rw [Nat.shiftLeft_eq, pow_add]
  exact Nat.mul_lt_mul_of_pos_right hx (by positivity)

/-- The products of a symbol with the factors of the ten places are its first ten doublings: 2 to the 8th and to the 9th are sums
of lower powers, and so are the doublings. -/
theorem gf8Mul_gf8Pow {j : Nat} (hj : j < 10) : gf8Mul x (gf8Pow 2 j) = double^[j] x := by
  have low {i : Nat} (hi : i < 8) : gf8Pow 2 i = 2 ^ i := by
    interval_cases i
    exacts [gf8Pow_two_zero, gf8Pow_two_one, gf8Pow_two_two, gf8Pow_two_three, gf8Pow_two_four, gf8Pow_two_five, gf8Pow_two_six,
      gf8Pow_two_seven]
  obtain h | rfl | rfl : j < 8 ∨ j = 8 ∨ j = 9 := by omega
  · rw [low h, gf8Mul_two_pow hx h]
  · rw [gf8Pow_two_eight, gf8Mul_xor, gf8Mul_xor, gf8Mul_xor]
    simp only [gf8Mul_two_pow hx, Nat.reduceLT]
    exact double_eight ⟨x, hx⟩
  · rw [gf8Pow_two_nine, gf8Mul_xor, gf8Mul_xor, gf8Mul_xor]
    simp only [gf8Mul_two_pow hx, Nat.reduceLT]
    exact double_eight ⟨_, (double_spec hx).2.1⟩

theorem doublings_lt (j : Nat) : double^[j] x < 256 := by
  induction j with
  | zero => exact hx
  | succ j ih =>
    rw [Function.iterate_succ_apply']
    exact (double_spec ih).2.1

theorem halve_doublings (j : Nat) : halve (double^[j + 1] x) = double^[j] x := by
  rw [Function.iterate_succ_apply']
  exact (double_spec (doublings_lt hx j)).2.2

theorem doublings_pos (h0 : 0 < x) (j : Nat) : 0 < double^[j] x := by
  induction j with
  | zero => exact h0
  | succ j ih =>
    refine Nat.pos_of_ne_zero fun h => ih.ne' ?_
    rw [← halve_doublings hx, h]
    rfl

theorem doublings_ne_self (h0 : 0 < x) {d : Nat} (hd : d < 9) : double^[d + 1] x ≠ x := by
  interval_cases d
  exacts [double_one_ne ⟨x, hx⟩ h0, double_two_ne ⟨x, hx⟩ h0, double_three_ne ⟨x, hx⟩ h0, double_four_ne ⟨x, hx⟩ h0,
    double_five_ne ⟨x, hx⟩ h0, double_six_ne ⟨x, hx⟩ h0, double_seven_ne ⟨x, hx⟩ h0, double_eight_ne ⟨x, hx⟩ h0,
    double_nine_ne ⟨x, hx⟩ h0]

/-- The first ten doublings of a symbol other than 0 differ: this is what makes the place of one wrong symbol readable from the
two syndromes (R459). -/
theorem doublings_ne (h0 : 0 < x) {i j : Nat} (hij : i < j) (hj : j < 10) : double^[i] x ≠ double^[j] x := by
  induction i generalizing j with
  | zero =>
    obtain ⟨d, rfl⟩ := Nat.exists_eq_add_of_lt hij
    rw [Nat.zero_add]
    exact (doublings_ne_self hx h0 (by omega)).symm
  | succ i ih =>
    obtain ⟨k, rfl⟩ : ∃ k, j = k + 1 := ⟨j - 1, by omega⟩
    intro h
    refine ih (j := k) (by omega) (by omega) ?_
    rw [← halve_doublings hx, h, halve_doublings hx]

end

section
variable {j x : Nat} (hj : j < 10) (h0 : 0 < x) (hx : x < 256)
include hj hx

theorem eccS0_single : eccS0 (BitVec.ofNat 80 (x * 2 ^ (8 * j))) = x := by
  rw [eccS0, foldl_xor_single _ hj fun i hi => by rw [symbolOf_single hj hx, if_neg hi], symbolOf_single hj hx, if_pos rfl]

theorem eccS1_single : eccS1 (BitVec.ofNat 80 (x * 2 ^ (8 * j))) = gf8Mul x (gf8Pow 2 j) := by
  rw [eccS1, foldl_xor_single _ hj fun i hi => by rw [symbolOf_single hj hx, if_neg hi, gf8Mul_zero_left],
    symbolOf_single hj hx, if_pos rfl]

include h0

/-- One wrong symbol, by any pattern, is found and taken away (R459, R460). -/
theorem eccDecode_single : eccDecode (BitVec.ofNat 80 (x * 2 ^ (8 * j))) = .corrected j 0 := by
  have products {i : Nat} (hi : i < 10) := gf8Mul_gf8Pow hx hi
  have h1 : gf8Mul x (gf8Pow 2 j) ≠ 0 := products hj ▸ (doublings_pos hx h0 j).ne'
  have place : (List.range 10).find? (fun i => decide (gf8Mul x (gf8Pow 2 i) = gf8Mul x (gf8Pow 2 j))) = some j := by
    refine List.find?_range_eq_some.2 ⟨decide_eq_true rfl, List.mem_range.2 hj, fun i hi => ?_⟩
    rw [products (hi.trans hj), products hj, decide_eq_false (doublings_ne hx h0 hi hj), Bool.not_false]
  simp only [eccDecode, eccS0_single hj hx, eccS1_single hj hx, place, h0.ne', h1, decide_false, ne_eq,
    not_false_eq_true, decide_true, Bool.and_self, Bool.false_eq_true, if_false, if_true, BitVec.xor_self]
  rfl
end

/-! ## A core's load of a word in error -/

theorem KeepsData.tableUpdate (m a sym src : Nat) (s : State) : KeepsData s (tableUpdate m a sym src s) := by
  have counted (h : Nat) : KeepsData s (((s.bumpRf h 27 20).setRf h 11 8 sym).setRf h 19 16 src) :=
    ((KeepsData.bumpRf s h 27 20 1).trans (.setRf _ h 11 8 sym)).trans (.setRf _ h 19 16 src)
  simp only [Machine.tableUpdate]
  split
  · exact .ite ((counted _).trans (.setRb ..)) (counted _)
  · split
    · exact ((KeepsData.setReg s ..).trans (.setReg ..)).trans (.setRf ..)
    · exact .ite ((KeepsData.bump s _ 1).trans (.raiseWith 58 _ _ _ (by decide))) (.bump s _ 1)

/-- A failing word is counted, tabulated and reported; no byte changes (R463, R464). -/
theorem KeepsData.memFail (m a sym src : Nat) (s : State) : KeepsData s (memFail m a sym src s) := by
  have tabled (r : Nat) : KeepsData s (Machine.tableUpdate m a sym src (s.bump r)) :=
    (KeepsData.bump s r 1).trans (.tableUpdate ..)
  refine .ite ((tabled _).trans (.raiseWith _ _ _ _ (by decide))) (.ite ?_ (tabled _))
  exact ((tabled _).trans (.of_fields _ _ _ _ _ _ _ _ _ _ _)).trans (.raiseWith _ _ _ _ (by decide))

theorem applyResidue_zero (a : Nat) (bs : List Byte) (w : Nat) : applyResidue a bs w 0 = bs := by
  refine List.ext_getElem (by simp [applyResidue]) fun i _ _ => ?_
  simp [applyResidue, symbolOf]

/-- A load that meets one word with one wrong symbol delivers the stored bytes and records the correction (R460, R463). -/
theorem codedAccess_load_corrected {s : State} {a n w j : Nat} {e : BitVec 80} (he : errsIn s a n = [(w, e)])
    (hd : eccDecode e = .corrected j 0) (src : Nat) :
    codedAccess src a n none s = respond (leNat (s.bytes a n)) false (memFail (memIndex a) w j src s) := by
  simp only [codedAccess, eccRead, he, List.foldl_cons, List.foldl_nil, hd, applyResidue_zero]

/-- A load that meets an uncorrectable word is a bus error, with the word recorded (R463, R466). -/
theorem codedAccess_load_uncorrectable {s : State} {a n w : Nat} {e : BitVec 80} (he : errsIn s a n = [(w, e)])
    (hd : eccDecode e = .uncorrectable) (src : Nat) :
    codedAccess src a n none s = respond 0 true (memFail (memIndex a) w 0xF src s) := by
  simp only [codedAccess, eccRead, he, List.foldl_cons, List.foldl_nil, hd]

theorem memIndex_of_inSram {a n : Nat} (h : inSram a n = true) : memIndex a = 1 := by
  simp only [inSram, Bool.and_eq_true, decide_eq_true_eq] at h
  unfold sramBase at h
  rw [memIndex, if_neg (by rw [dramBase]; omega), if_neg (by omega)]

/-- A core's load from service SRAM is a read that the checker sees (R25, R460). -/
theorem exec_load_sram {s : State} {a : BitVec 40} {z : Fin 4} (hl : s.live = true)
    (h : inSram a.toNat (2 ^ z.val) = true) (k : Fin 6) :
    exec (.registerWrite (.core k) a z none) s = .next (codedAccess 1 a.toNat (2 ^ z.val) none s) := by
  rw [exec_registerWrite_core hl, coreAccess_of_cruMay _ _ (by rw [cruMay, h, Bool.true_or])]
  rfl

/-- Settles O7: one wrong symbol is found from the syndromes; a load that meets such a word, or one beyond correction, is
answered as the checker decides, and recording it keeps memory. -/
theorem codedRead : Obligations.CodedRead := by
  refine ⟨fun j x hj h0 hx => eccDecode_single hj h0 hx, fun s k a z w hl hs =>
    ⟨fun j x hj h0 hx he => ⟨?_, (KeepsData.memFail ..).mem⟩, fun e he hd => ⟨?_, (KeepsData.memFail ..).mem⟩⟩⟩
  · rw [exec_load_sram hl hs, codedAccess_load_corrected he (eccDecode_single hj h0 hx), memIndex_of_inSram hs]
  · rw [exec_load_sram hl hs, codedAccess_load_uncorrectable he hd, memIndex_of_inSram hs]

/-! ## Memory protection and DRAM -/

/-- While the logic die runs, no reset is in progress (R557). -/
theorem inReset_of_live {s : State} (hl : s.live = true) : s.pwr.inReset.isNone = true := (Bool.and_eq_true_iff.1 hl).1

/-- A word without error leaves the scrubber nothing to record (R471). -/
theorem scrubRead_clean {s : State} {a : Nat}
    (h : eccDecode (Sparse.get (fun _ => (0 : BitVec 80)) s.mu.errs (errKey (memIndex a) a)) = .clean) : scrubRead a s = s := by
  simp only [scrubRead, h]

/-- Settles O38: the conditions of each clause choose its branch. -/
theorem memoryUnitCommands : Obligations.MemoryUnitCommands := by
  intro s
  refine ⟨fun v hl hb hlim hin => ?_, fun hl hb hlim pat hc => ?_, fun hl hb => ?_, fun hl hb hlim => ?_, fun m hl => ?_,
    fun o hs hr => ?_, fun hl hd hr => ?_, fun a b c d e hl hd => ?_, fun r hl ht => ?_, fun hl hw hr => ?_⟩
  · simp only [exec, execScrubStart, State.whenLive_live _ _ hl] -- SCRUB_START
    exact congrArg _ (if_neg (by
      rw [Bool.or_eq_true_iff.2 hin, State.setReg_mu, hb, decide_eq_false (Nat.not_lt.2 hlim)]
      exact Bool.false_ne_true))
  · simp only [exec, execScrubWord, State.whenLive_live _ _ hl] -- SCRUB_WORD
    rw [if_pos (by simp [hb, hlim]), scrubRead_clean hc]
  · simp only [exec, execScrubStop, State.whenLive_live _ _ hl, hb, if_true] -- SCRUB_STOP
  · simp only [exec, execScrubEnd, State.whenLive_live _ _ hl] -- SCRUB_END
    rw [if_pos (by simp [hb, hlim])]
  · simp only [exec, execErrorTableClear, State.whenLive_live _ _ hl] -- ERROR_TABLE_CLEAR
  · simp only [exec, execVoteCheck, hs, hr, List.foldl_nil, ite_self] -- VOTE_CHECK
  · simp only [exec, execDramRefresh, State.whenLive_live _ _ hl, hd, hr, Bool.not_false, Bool.and_self, if_true] -- DRAM_REFRESH
  · simp only [exec, execDramTempPoll, State.whenLive_live _ _ hl, hd, if_true] -- DRAM_TEMP_POLL
  · simp only [exec, execDramTrainingDone, State.whenLive_live _ _ hl, ht, inReset_of_live hl, -- DRAM_TRAINING_DONE
      Bool.and_self, if_true]
    rfl
  · simp only [exec, execWipeDone, State.whenLive_live _ _ hl, hw, hr, Bool.not_false, Bool.true_and, if_true] -- WIPE_DONE

end Sys2Proof.Machine
end

section
/-!
PROOFS. The statements of spec/18_code_flash.md: the code flash and the XIP window.
-/

namespace Sys2Proof.Machine

open Sys2Proof

/- So that Lean does not start too many threads. -/
set_option Elab.async false

/-- A call that its arguments and the flash's state allow starts; FAIL is cleared (R483, R485). -/
theorem cfEntry_starts {s : State} {c : CfCall} (h : s.cf.op = none)
    (hr : cfRefused (s.setRb Reg.CF_STATUS 2 false) c = none) (kind : Nat) :
    cfEntry kind true c s = cfStart c (s.setRb Reg.CF_STATUS 2 false) := by
  simp only [cfEntry, h, hr, Option.isSome_none, Bool.not_true, Bool.false_eq_true, if_false]

/-- A verify whose words all hold ends its call (R486). -/
theorem cfVerify_of_holding {s : State} {p : CfOp} (ho : cfOverdone s p = none) (hf : cfFailing s p = []) :
    cfVerify p s = cfFinish p none s := by
  simp only [cfVerify, ho, hf]

/-- Settles O39: the conditions of each clause choose its branch. -/
theorem codeFlashCommands : Obligations.CodeFlashCommands := by
  intro s hl
  refine ⟨fun off src len ra mtvec a ho hoff hlen h4 h256 hsize hpage hsrc ha => ?_, fun off ra mtvec ho hoff hsize => ?_, ?_,
    fun p left ho hv => ?_, fun p ho hv hover hfail => ?_, fun l cru hx ho => ?_, fun v hv => ?_⟩
  · intro c t hr -- CF_PROGRAM
    simp only [exec, execCfProgram, State.whenLive_live _ _ hl, ha, Option.getD_some]
    rw [← cfEntry_starts ho hr 1]
    congr 2
    simp [hoff, hlen, h4, h256, hsize, hsrc, hpage]
  · intro c t hr -- CF_ERASE
    simp only [exec, execCfErase, State.whenLive_live _ _ hl]
    rw [← cfEntry_starts ho hr 2]
    congr 2
    simp [hoff, hsize]
  · simp only [exec, execCfInfo, State.whenLive_live _ _ hl] -- CF_INFO
  · simp only [exec, execCfPulseEnd, State.whenLive_live _ _ hl, ho, hv, Bool.false_eq_true, if_false] -- CF_PULSE_END
  · simp only [exec, execCfVerifyDone, State.whenLive_live _ _ hl, ho, hv, if_true, -- CF_VERIFY_DONE
      cfVerify_of_holding hover hfail, cfFinish]
  · have shown : (!cru && xipHidden s l.val) = false := by -- XIP_READ
      revert hx
      cases cru <;> simp
    simp only [exec, execXipRead, State.whenLive_live _ _ hl, shown, ho, Bool.false_eq_true, if_false]
  · simp only [exec, execL2Invalidate, State.whenLive_live _ _ hl, hv, if_true] -- L2_INVALIDATE

end Sys2Proof.Machine
end

section
/-!
PROOFS. The statements of spec/19_crucible_lifecycle.md: Crucible's engines and what they leave unchanged, its fuses, hash and
entropy, watchdog and cores, and the requests on code flash and images.
-/

namespace Sys2Proof.Machine

open Sys2Proof

/- So that Lean does not start too many threads. -/
set_option Elab.async false

/-! ## What the engines leave unchanged -/

/-- The command and status registers of Crucible's engines. -/
def engineRegs : List Nat := [Reg.CRU_FUSE_CMD, Reg.CRU_FUSE_STAT, Reg.CRU_BAND_CMD, Reg.CRU_BAND_STAT, Reg.CRU_HASH_CTRL]

/-- A command of Crucible's engines changes their own registers and Crucible alone, and no fuse. -/
structure EngineFrame (s t : State) : Prop where
  outside : t = { s with regs := t.regs, cru := t.cru }
  fuses : t.cru.fuses = s.cru.fuses
  regs : ∀ a, a ∉ engineRegs → t.reg a = s.reg a

namespace EngineFrame

theorem refl (s : State) : EngineFrame s s := ⟨rfl, rfl, fun _ _ => rfl⟩

theorem setReg {s t : State} (h : EngineFrame s t) {a : Nat} (ha : a ∈ engineRegs) (v : Word) :
    EngineFrame s (t.setReg a v) := by
  obtain ⟨outside, fuses, regs⟩ := h
  refine ⟨?_, fuses, fun b hb => ?_⟩
  · rw [outside]
    rfl
  · rw [State.reg_setReg_ne _ _ _ _ (fun e => hb (by rwa [e])), regs b hb]

theorem modCru {s t : State} (h : EngineFrame s t) (f : Cru → Cru) (hf : (f t.cru).fuses = t.cru.fuses) :
    EngineFrame s (modCru f t) := by
  obtain ⟨outside, fuses, regs⟩ := h
  refine ⟨?_, hf.trans fuses, regs⟩
  rw [outside]
  rfl

theorem fuseCmd (op arg : Nat) (s : State) : EngineFrame s (fuseCmd op arg s) := by
  have written := (EngineFrame.refl s).setReg (a := Reg.CRU_FUSE_CMD) (by decide) (BitVec.ofNat 32 (op + arg * 2 ^ 8))
  unfold Machine.fuseCmd
  split
  · exact .refl s
  · dsimp only
    split
    · exact written.setReg (by decide) _
    · exact (written.setReg (a := Reg.CRU_FUSE_STAT) (by decide) _).modCru _ rfl

theorem bandCmd (op b : Nat) (s : State) : EngineFrame s (bandCmd op b s) := by
  unfold Machine.bandCmd
  split
  · exact .refl s
  · have named := (EngineFrame.refl s).setReg (a := Reg.CRU_BAND_CMD) (by decide) (BitVec.ofNat 32 (b + op * 2 ^ 8))
    exact (named.setReg (a := Reg.CRU_BAND_STAT) (by decide) _).modCru _ rfl

end EngineFrame

/-- Settles O16: each engine's command keeps the frame, and so does each one that changes Crucible alone. -/
theorem crucibleEngineFrame : Obligations.CrucibleEngineFrame := by
  intro arg b m s t ⟨c, hc, h⟩
  have frame : EngineFrame s t := by
    simp only [List.mem_cons, List.not_mem_nil, or_false] at hc
    have own (f : Cru → Cru) (hf : (f s.cru).fuses = s.cru.fuses) : EngineFrame s (modCru f s) := (EngineFrame.refl s).modCru f hf
    obtain rfl | rfl | rfl | rfl | rfl | rfl | rfl | rfl | rfl | rfl | rfl | rfl | rfl | rfl | rfl | rfl | rfl | rfl | rfl := hc
    all_goals simp only [exec, execFuseLifecycle, execFuseVaultWord, execFuseKekStep, execFuseSvnCru, execFuseSvnSvc,
      execFuseSvnProf, execFuseKeySlot, execFuseIdentitySeed, execBandCmdCreate, execBandLoad, execBandUnload, execBandRewrap,
      execHashStart, execWdogKick, execWdogStop, execCoreRestart, execMailboxReply, execCruMbxPop, execSvcCmbxPop] at h
    iterate 8 exact whenLive_rel (.refl s) (.fuseCmd ..) h -- the fuse engine
    iterate 4 exact whenLive_rel (.refl s) (.bandCmd ..) h -- the band engine
    · refine whenLive_rel (.refl s) ?_ h -- HASH_START
      split
      · exact .refl s
      · exact ((EngineFrame.refl s).setReg (by decide) _).modCru _ rfl
    iterate 2 exact whenLive_rel (.refl s) (own _ rfl) h -- WDOG_KICK, WDOG_STOP
    · refine whenLive_rel (.refl s) ?_ h -- CORE_RESTART
      exact own (fun c => { c with cores := c.cores.mapIdx fun k e => if m.getLsbD k then
        (s.regAddr Reg.CRU_CORE_VEC_LO Reg.CRU_CORE_VEC_HI, (s.reg Reg.CRU_CORE_A0).toNat) else e }) rfl
    · refine whenLive_rel (.refl s) ?_ h -- MAILBOX_REPLY
      split
      · exact .refl s
      · exact own _ rfl
    iterate 2 exact whenLive_rel (.refl s) (own _ rfl) h -- CRU_MBX_POP, SVC_CMBX_POP
  exact ⟨frame.outside, frame.fuses, frame.regs⟩

/-! ## The fuse array -/

theorem fuseCmd_burns {s : State} (h : s.cru.burn = none) {op arg : Nat} (ha : op ≠ 7 ∨ arg ≤ 3) :
    fuseCmd op arg s = modCru (fun c => { c with burn := some (op, arg) })
      ((s.setReg Reg.CRU_FUSE_CMD (BitVec.ofNat 32 (op + arg * 2 ^ 8))).setRb Reg.CRU_FUSE_STAT 1 false) := by
  have allowed : ¬ (decide (op = 7) && decide (3 < arg)) = true := by
    simp only [Bool.and_eq_true, decide_eq_true_eq]
    omega
  simp only [fuseCmd, h, Option.isSome_none, Bool.false_eq_true, if_false]
  rw [if_neg allowed]

/-- A key slot above 3 is refused (R499). -/
theorem fuseCmd_refused {s : State} (h : s.cru.burn = none) {arg : Nat} (ha : 3 < arg) :
    fuseCmd 7 arg s = (s.setReg Reg.CRU_FUSE_CMD (BitVec.ofNat 32 (7 + arg * 2 ^ 8))).setRb Reg.CRU_FUSE_STAT 1 true := by
  simp only [fuseCmd, h, Option.isSome_none, Bool.false_eq_true, if_false, ha, decide_true, Bool.and_self, if_true]

theorem fuseCmd_busy {s : State} {b : Nat × Nat} (h : s.cru.burn = some b) (op arg : Nat) : fuseCmd op arg s = s := by
  simp only [fuseCmd, h, Option.isSome_some, if_true]

/-- What a burn leaves goes by its operation (R494, R499). -/
theorem burnEnd_eq (op arg : Nat) (s : State) : burnEnd op arg s =
    if op = 1 then burnLc (s.reg (Reg.CRU_FUSE_DATA 0)).toNat s
    else if op = 2 then burnVault (s.reg (Reg.CRU_FUSE_DATA 0)).toNat s else burnDone op arg s := by
  unfold burnEnd
  split
  · rfl
  · rfl
  · next h1 h2 => rw [if_neg h1, if_neg h2]

/-- Settles O40: each command is the fuse engine's with its own operation. -/
theorem fuseCommands : Obligations.FuseCommands := by
  intro s hl
  simp only [exec, execFuseLifecycle, execFuseVaultWord, execFuseKekStep, execFuseSvnCru, execFuseSvnSvc, execFuseSvnProf,
    execFuseKeySlot, execFuseIdentitySeed, execFuseBurnDone, State.whenLive_live _ _ hl]
  refine ⟨fun arg h => ?_, fun arg b h => ?_, fun op r h => ?_⟩
  · have burns {op : Nat} (ha : op ≠ 7 ∨ arg.toNat ≤ 3) := fuseCmd_burns h ha
    exact ⟨congrArg _ (burns (.inl (by decide))), congrArg _ (burns (.inl (by decide))), congrArg _ (burns (.inl (by decide))),
      congrArg _ (burns (.inl (by decide))), congrArg _ (burns (.inl (by decide))), congrArg _ (burns (.inl (by decide))),
      fun ha => congrArg _ (burns (.inr ha)), fun ha => congrArg _ (fuseCmd_refused h ha), congrArg _ (burns (.inl (by decide)))⟩
  · simp only [fuseCmd_busy h, and_self]
  · simp only [h, burnEnd_eq]

/-! ## Hash, entropy, watchdog and cores -/

/-- Settles O42: the conditions of each clause choose its branch. -/
theorem hashAndEntropyCommands : Obligations.HashAndEntropyCommands := by
  intro s hl
  simp only [exec, execHashStart, execHashDone, execRngDataRead, execEntropyHealthFail, State.whenLive_live _ _ hl]
  refine ⟨fun n h => ?_, fun n h => ?_, fun d n h hn h1 h64 hd => ?_, fun h => ?_, fun h => ?_, fun h => ?_, fun h => ?_⟩
  · rw [if_neg (by simp [h])] -- HASH_START
  · rw [if_pos h] -- HASH_START while one runs
  · simp only [h, hn, hd, h1, h64, decide_true, Bool.and_self, if_true] -- HASH_DONE
  · rw [if_neg (by simp [h])] -- RNG_DATA_READ
  · rw [if_pos h] -- RNG_DATA_READ after a failed health test
  · rw [if_neg (by simp [h])] -- ENTROPY_HEALTH_FAIL
  · rw [if_pos h] -- ENTROPY_HEALTH_FAIL once more

/-- Settles O43: the conditions of each clause choose its branch; a restart maps over the cores, by the mask. -/
theorem watchdogAndCoreCommands : Obligations.WatchdogAndCoreCommands := by
  intro s hl
  simp only [exec, execWdogKick, execWdogStop, execBootWatchdogExpiry, execTrialTimeout, execCoreRestart,
    State.whenLive_live _ _ hl]
  refine ⟨trivial, trivial, fun h => ?_, fun h => ?_, fun i hi ht hr => ?_, fun m => ⟨_, rfl, ?_, fun k hk => ?_, rfl⟩⟩
  · rw [if_pos h] -- BOOT_WATCHDOG_EXPIRY
  · rw [if_neg (by simp [h])] -- BOOT_WATCHDOG_EXPIRY with none running
  · simp only [hi, ht, hr, Bool.and_self, if_true] -- TRIAL_TIMEOUT
  · exact List.length_mapIdx -- CORE_RESTART
  · simp only [modCru, List.getElem?_mapIdx, List.getElem?_eq_getElem hk, Option.map_some]
    split <;> rfl

/-! ## Requests on code flash and images -/

section Requests

variable {s : State} {off src len : Nat} (fl : Option Nat)

/-- A program in a spare region, from memory that an argument may name, is the ROM's (R519). -/
theorem reqFlashWrite_of_valid {st : Nat} {t : State} (hs : inSpare off len = true) (hm : cruMay s src len = true)
    (hoff : off % 4 = 0) (hlen : len % 4 = 0) (h4 : 4 ≤ len) (hpage : off % 256 + len ≤ 256) (hsrc : src % 4 = 0)
    (hd : cfDo 1 off (s.bytes src len) (fl ≠ some 0) s = (st, t)) :
    reqFlashWrite off src len fl s = (⟨st, fl, t⟩ : Fl).rq := by
  rw [reqFlashWrite, if_neg (by simp [hs, hm]), if_neg (by simp [hoff, hlen, h4, hpage, hsrc]), hd]

theorem reqFlashWrite_outside (hs : inSpare off len = false) : reqFlashWrite off src len fl s = .no 1 s :=
  if_pos (by simp [hs])

/-- An erase of a sector of a spare region is the ROM's (R519). -/
theorem reqFlashErase_sector {st : Nat} {t : State} (hs : inSpare off 4096 = true) (hoff : off % 4096 = 0)
    (hd : cfDo 2 off [] (fl ≠ some 0) s = (st, t)) : reqFlashErase off 0 fl s = (⟨st, fl, t⟩ : Fl).rq := by
  simp only [reqFlashErase, if_true, hs, hoff, hd, Nat.zero_add, Bool.not_true, Bool.false_eq_true, if_false, ne_eq,
    not_true_eq_false, Nat.not_lt_zero, decide_false, Bool.or_self]

theorem reqSettings_of_valid {tag : Nat} (hlo : 0x100 ≤ tag) (hhi : tag ≤ 0x7FFF) (hlen : len ≤ 4080)
    (hm : cruMay s src len = true) : reqSettings tag src len fl s = (writeSetting tag (s.bytes src len) fl s).rq :=
  if_neg (by simp [hlo, hhi, hlen, hm])

/-- An activation outside a live one, of a staged image of a kind that takes the mode (R513, R514). -/
theorem reqActivate_of_staged {target mode kind : Nat} (hk : (if target = 0 then 2 else 1) = kind) (ha : s.cru.activation = none)
    (ht : target ≤ 1) (hm : mode ≤ 1) (hlive : target = 1 → mode = 1) (hs : stagedImage s kind = true) :
    reqActivate target mode s = .no 0 (if mode = 0 then activateLive s else selectSlot kind s) := by
  rw [reqActivate, hk, if_neg (by simp; omega), if_neg (by simp [ha]), if_neg (by simp [hs])]

end Requests

/-- Settles O46: each request is served, its own conditions hold, and its end is composed into the reply. -/
theorem imageRequests : Obligations.ImageRequests := by
  intro s hl hf hb seq
  have zero : (0 : BitVec 8).toNat = 0 := rfl
  have one : (1 : BitVec 8).toNat = 1 := rfl
  simp -zeta only [exec, execFlashWrite, execFlashErase, execSettingsWrite, execStage, execActivate, execReady,
    State.whenLive_live _ _ hl, serve_released hf hb]
  refine ⟨fun off src len fl st t hs hm hoff hlen h4 hpage hsrc hd => ?_, fun off src len fl hs => ?_,
    fun off fl st t hs hoff hd => ?_, fun tag src len fl hlo hhi hlen hm => ?_,
    fun target place off src len final fl hm => ?_, fun ha hs => ⟨?_, ?_⟩, fun ha hs => ?_, fun ha => ?_⟩
  · rw [reqFlashWrite_of_valid fl hs hm hoff hlen h4 hpage hsrc hd, cruReply_rq] -- FLASH_WRITE
  · rw [reqFlashWrite_outside fl hs] -- FLASH_WRITE outside the spare regions
    rfl
  · rw [zero, reqFlashErase_sector fl hs hoff hd, cruReply_rq] -- FLASH_ERASE
  · rw [reqSettings_of_valid fl hlo hhi hlen hm, cruReply_rq] -- SETTINGS_WRITE
  · rw [if_pos hm] -- STAGE
  · rw [zero, one, reqActivate_of_staged (target := 0) (kind := 2) rfl ha (by decide) (by decide) (by decide) hs] -- ACTIVATE
    simp only [Rq.no, one_ne_zero, if_false]
  · rw [zero, reqActivate_of_staged (target := 0) (kind := 2) rfl ha (by decide) (by decide) (by decide) hs]
    simp only [Rq.no, if_true]
  · rw [one, reqActivate_of_staged (target := 1) (kind := 1) rfl ha (by decide) (by decide) (by decide) hs]
    simp only [Rq.no, one_ne_zero, if_false]
  · simp only [ha, Rq.no] -- READY

end Sys2Proof.Machine
end

section
/-!
PROOFS. The statements of spec/20_events_recorder.md: events and function errors, and the event recorder.
-/

namespace Sys2Proof.Machine

open Sys2Proof

/- So that Lean does not start too many threads. -/
set_option Elab.async false

/-! ## Events and function errors -/

/-- A function that is neither FENCED nor RESETTING drops its tail (R532). -/
theorem tailDrop_of_running {s : State} {f : Nat} (hf : f ≤ 6) (he : errState s f < 2) (cause : Nat) :
    tailDrop f cause s = raiseQuiet 34 0
      (some ([BitVec.ofNat 8 f, BitVec.ofNat 8 cause] ++ leBytes 2 (errPri s f) ++ leBytes 2 (errSec s f))) false
      (holdEfts f (holdRings f (fenceOwn (fun n s => raiseBy innerDrop n 0 none s) f
        ((s.setFence f true).setRf (Reg.EVC_ERR_STATE f) 1 0 2)))) := by
  rw [tailDrop, tailDropBy, if_neg (by simp; omega)]

/-- A reset drops the function's tail, starts the retract that an actuator still needs, and is RESETTING (R533). -/
theorem startReset_of_not_resetting {s t : State} {f : Nat} (hf : f ≤ 6) (he : errState s f ≠ 3)
    (ht : parkDropped (tailDrop f 3 s) = t) : startReset f s =
      ((if (f = 2 ∨ f = 3) ∧ (actu t (f - 2)).retDone = false then parkDrive (f - 2) t else t).setReg Reg.EVC_FRESET
        (BitVec.ofNat 32 (f + 2 ^ 31))).setRf (Reg.EVC_ERR_STATE f) 1 0 3 := by
  rw [startReset, if_neg (by simp; omega), ht]
  simp only [Bool.and_eq_true, Bool.or_eq_true, decide_eq_true_eq, Bool.not_eq_true']

/-- Settles O48: the conditions of each clause choose its branch. -/
theorem eventCommands : Obligations.EventCommands := by
  intro s hl
  simp -zeta only [exec, execEventRaise, execHandleTimeout, execErrorSlotClear, execErrorRaise, execTailDrop, execSoftPost,
    execTokenRefill, execFunctionReset, execFunctionResetEnd, State.whenLive_live _ _ hl]
  refine ⟨fun n b p he hs => ?_, fun f he hr => ?_, fun f he => ?_, fun f cond h7 => ?_, fun f hf he => ?_, fun _ _ _ => rfl,
    fun n hr => ?_, fun f hf he => ?_, fun f pass chopper he h2 h3 => ?_⟩
  · rw [if_neg (by simp [he]), if_pos hs] -- EVENT_RAISE
  · rw [if_pos (by simp [he, hr])] -- HANDLE_TIMEOUT
  · rw [if_pos he] -- ERROR_SLOT_CLEAR
  · rw [if_neg h7] -- ERROR_RAISE
  · rw [tailDrop_of_running hf he] -- TAIL_DROP
    rfl
  · exact congrArg _ (if_neg hr) -- TOKEN_REFILL
  · exact congrArg _ (startReset_of_not_resetting hf he rfl) -- FUNCTION_RESET
  · refine congrArg _ (if_pos ?_) -- FUNCTION_RESET_END
    have retracted (k : Nat) (x : Nat) (h : f.val = k → (actu s x).retDone = true) :
        (decide (f.val = k) && !(actu s x).retDone) = false := by
      by_cases hk : f.val = k
      · rw [h hk, Bool.not_true, Bool.and_false]
      · rw [decide_eq_false hk, Bool.false_and]
    simp only [he, retracted 2 0 h2, retracted 3 1 h3, decide_true, Bool.or_self, Bool.not_false, Bool.and_self]

/-! ## The event recorder -/

/-- A page that has failed is recorded in its triplicated word and raised, where no page had failed before (R543). -/
theorem recFaultSet_first {s : State} (h : s.ramOnly = false) (page : Nat) : recFaultSet page s =
    raiseWith 38 0 (some (leBytes 2 (page % 4096)))
      { s with mu := { s.mu with trip3 := tripNat (1 + page % 4096 * 256) } } := by
  rw [recFaultSet, if_neg (by simp [h])]

/-- Settles O49: the conditions of each clause choose its branch. -/
theorem recorderCommands : Obligations.RecorderCommands := by
  intro s hl
  simp -zeta only [exec, execRecorderDrain, execDrainPop, execRecorderFreeze, execFreezeTimeout, execWindowLoad,
    execRecorderFaultSet, execTimeLoad, State.whenLive_live _ _ hl, State.aonWrite]
  refine ⟨fun old f ho hc => ?_, rfl, fun on => rfl, rfl, rfl, fun _ _ => trivial, fun page hb hr => ?_, fun hi hb => ?_⟩
  · rw [if_pos (by simpa [hc, inReset_of_live hl] using ho)] -- RECORDER_DRAIN
    rfl
  · have first : State.ramOnly { s with pwr := { s.pwr with aonBusy := true } } = false := hr -- RECORDER_FAULT_SET
    rw [if_neg (by simp [hb]), recFaultSet_first first, Nat.mod_eq_of_lt page.isLt]
  · rw [if_neg (by simp [hb])] -- TIME_LOAD

end Sys2Proof.Machine
end
